-- ==== Sys2Proof/Word.lean ====
section
/-!
DEFINITION. The word and byte types of the engine's registers and memory, and
the clamp that every saturating quantity of the manual uses.
-/
namespace Sys2Proof

/-- A 32-bit register word (chapter "Scope, Conventions and Terms", Limits). -/
abbrev Word := BitVec 32

/-- A byte of memory. -/
abbrev Byte := BitVec 8

/-- `v` held inside `[lo, hi]` (R15: narrowing saturates). -/
def clampInt (lo hi v : Int) : Int :=
  if v < lo then lo else if hi < v then hi else v

/-- The word that holds the low 32 bits of an integer in two's complement. -/
def wordOfInt (v : Int) : Word := BitVec.ofInt 32 v

/-- The two's complement value of a word. -/
def sval (w : Word) : Int := w.toInt

end Sys2Proof
end

