-- ==== Sys2Proof/Syntax.lean ====
section
/-!
DEFINITION. The commands the block takes: one constructor of `Instr` per row of the
table of operations and events, with the row's operands; and the types of operands.
-/
namespace Sys2Proof

/-- Who sends a request: its hallmark (R346), whether it is a DMA channel's, which
counts as its tenant's and never as the control core's (R350), and its agent code (R325). -/
structure Sender where
  hm    : Nat
  dma   : Bool := false
  agent : Nat := 0x10
  deriving DecidableEq, Repr

/-- An instruction reaching issue on a core (16: the control core): the predicate it
names and whether it inverts it (R194, R195), and whether its word holds a non-zero
value in a field marked zero or a reserved code (R196). -/
structure Issue where
  core : Nat
  q    : Nat := 0
  inv  : Bool := false
  bad  : Bool := false
  deriving DecidableEq, Repr

/-- The address of a load or store in format L: MODE 0 through pointer `n` with its PM
bit, MODE 1 through a base register and imm12 (R225). -/
inductive LsAddr where
  | ptr (n : Nat) (pm : Bool)
  | base (ga : Nat) (imm : Nat)
  deriving DecidableEq, Repr

/-- The KIND field of MTP and MFP (R230). -/
inductive PKind where
  | p | b | l | m
  deriving DecidableEq, Repr

/-- The count of a LOOP: FORM 0 a register, FORM 1 an immediate (R241). -/
inductive LoopCount where
  | reg (ga : Nat)
  | imm (n : Nat)
  deriving DecidableEq, Repr


/-- What a MADI receiver decodes of one frame (R452, R454): whether frame sync and the
symbols between subframes were good, whether it is a 96k frame, and its subframes, none for
one with an undecodable code inside. -/
structure MadiFrame where
  ok   : Bool
  f96  : Bool
  subs : List (Option Nat)
  deriving DecidableEq, Repr

/-- What a network heartbeat of the pair says, with the port it came on (R510); the manual
gives its contents and no layout. -/
structure NetHb where
  pairId : Nat
  role   : Nat
  state  : Nat
  esc    : Nat
  count  : Nat
  level  : Nat
  digs   : List Nat
  deriving DecidableEq, Repr

/-- What an engine that is to join learns of its peer over the link (R513). -/
structure JoinPeer where
  pairId : Nat := 0
  state  : Nat := 0
  running : Bool := false
  en     : Bool := false
  tick   : Nat := 0
  core   : Nat := 0
  ref    : Nat := 0
  phase  : Int := 0
  deriving DecidableEq, Repr

/-- The header and trailer of a received Svalento frame that passes its CRC and complement
(R503): SEQ, ACK when valid, NAK, PAIR_ID and hallmark. -/
structure SvlRx where
  seq    : Nat
  ack    : Option Nat := none
  nak    : Bool := false
  pairId : Nat := 0
  hm     : Nat := 0
  deriving DecidableEq, Repr

/-- What is wrong with a received Svalento frame (R503 to R506). -/
inductive SvlErr where
  | crc | complement | sequence | type | pair
  deriving DecidableEq, Repr

/-- The requester of a host read (R323): operand `slot` of a core's load, burst `idx` of a DMA
channel, or a DMA channel's descriptor fetch. -/
inductive HostReader where
  | core (c slot : Nat) | dma (k idx : Nat) | fetch (k : Nat)
  deriving DecidableEq, Repr

/-- The commands of the block: one constructor per row of the table, in the table's order. A core
instruction carries how it issues; a request carries its sender. -/
inductive Instr where
  /-- REGISTER_WRITE (R8). -/
  | registerWrite (by_ : Sender) (a : Nat) (v : Word)
  /-- CP_EVEN_WRITE (R10). -/
  | cpEvenWrite (by_ : Sender) (a : Nat) (v : Word)
  /-- CP_ODD_WRITE (R10). -/
  | cpOddWrite (by_ : Sender) (a : Nat) (v : Word)
  /-- CP_PAIR_TIMEOUT (R10). -/
  | cpPairTimeout (a : Nat)
  /-- UNMAPPED_ACCESS (R33). -/
  | unmappedAccess (by_ : Sender) (a : Nat) (write : Bool)
  /-- TICK_CFG_WRITE (R19). -/
  | tickCfgWrite (by_ : Sender) (v : Word)
  /-- TICK_RUN_START (R27). -/
  | tickRunStart (by_ : Sender)
  /-- DEFERRED_TICK_START (R74). -/
  | deferredTickStart
  /-- TICK_STOP_REQUEST (R28). -/
  | tickStopRequest
  /-- TICK_STOP_HOLD (R28). -/
  | tickStopHold
  /-- TICK_START (R20). -/
  | tickStart
  /-- GUARD_START (R22). -/
  | guardStart
  /-- SYS_ESC_LO_READ (R26). -/
  | sysEscLoRead (by_ : Sender)
  /-- EVR_OVERFLOW (R40). -/
  | evrOverflow
  /-- SYS_EVR_CFG_WRITE (R45). -/
  | sysEvrCfgWrite (len : Bool) (v : Word)
  /-- SYS_KEY_WRITE (R44). -/
  | sysKeyWrite (by_ : Sender) (v : Word)
  /-- SYS_RESET_WRITE (R44). -/
  | sysResetWrite (by_ : Sender) (v : Word)
  /-- CLK_TGT_COMMIT (R51). -/
  | clkTgtCommit (by_ : Sender) (v : Word)
  /-- SMALL_STEP_APPLY (R58). -/
  | smallStepApply
  /-- PLL_LOCK_DECLARED (R60). -/
  | pllLockDeclared
  /-- RELOCK_DONE (R60). -/
  | relockDone
  /-- RELOCK_TIMEOUT (R76). -/
  | relockTimeout
  /-- PLL_ACQUIRE_START (R78). -/
  | pllAcquireStart (v : Word)
  /-- CAL_MEASURE_START (R56). -/
  | calMeasureStart (by_ : Sender) (v : Word)
  /-- CAL_MEASURE_DONE (R56). -/
  | calMeasureDone (count : Nat)
  /-- LPO_CAL_UPDATE (R67). -/
  | lpoCalUpdate (count : Nat)
  /-- LOCK_LOST (R69). -/
  | lockLost
  /-- LOCK_REGAINED (R70). -/
  | lockRegained
  /-- LOCK_LOSS_TIMEOUT (R70). -/
  | lockLossTimeout
  /-- FREQ_MONITOR_WINDOW (R72). -/
  | freqMonitorWindow (count : Nat)
  /-- XTAL_FAIL (R73). -/
  | xtalFail
  /-- CLK_GATE_WRITE (R66). -/
  | clkGateWrite (v : Word)
  /-- CLK_GATE_CLOSE (R66). -/
  | clkGateClose (unit : Nat)
  /-- REF_GATE_END (R83). -/
  | refGateEnd (n : Nat) (present : Bool) (ppt : Int)
  /-- REF_LOS (R82). -/
  | refLos (n : Nat)
  /-- REF_EVENT (R92). -/
  | refEvent (n : Nat) (ph : Int)
  /-- VREF_FRAME_START (R105). -/
  | vrefFrameStart (off ph : Int)
  /-- REF_UPDATE (R91). -/
  | refUpdate
  /-- REF_HISTORY_SAMPLE (R100). -/
  | refHistorySample
  /-- REF_PTP_QUAL_WRITE (R85). -/
  | refPtpQualWrite (v : Word)
  /-- REF_FREQ_WRITE (R93). -/
  | refFreqWrite (by_ : Sender) (v : Word)
  /-- REF_PHASE_STEP_WRITE (R97). -/
  | refPhaseStepWrite (by_ : Sender) (v : Word)
  /-- REALIGN_COMMAND (R108). -/
  | realignCommand (v : Word)
  /-- REALIGN_APPLY (R108). -/
  | realignApply
  /-- TIME_INCR_COMMIT (R114). -/
  | timeIncrCommit (by_ : Sender) (v : Word)
  /-- TIME_STEP (R118). -/
  | timeStep (by_ : Sender) (v : Word)
  /-- TIME_NOW_CAPTURE (R117). -/
  | timeNowCapture (by_ : Sender)
  /-- TIME_LATCH_CAPTURE (R130). -/
  | timeLatchCapture (by_ : Sender)
  /-- TXTS_POP (R128). -/
  | txtsPop
  /-- TAQ_ARM (R137). -/
  | taqArm (by_ : Sender) (i : Nat) (v : Word)
  /-- TAQ_CANCEL (R146). -/
  | taqCancel (by_ : Sender) (i : Nat) (v : Word)
  /-- TAQ_CUTOFF (R141). -/
  | taqCutoff
  /-- TIMED_PATCH_APPLY (R136). -/
  | timedPatchApply
  /-- TIMED_MUTE_START (R391). -/
  | timedMuteStart
  /-- TIMED_GPIO_CHANGE (R136). -/
  | timedGpioChange
  /-- ADD (R199). -/
  | add (i : Issue) (rd ra rb : Nat)
  /-- SUB (R199). -/
  | sub (i : Issue) (rd ra rb : Nat)
  /-- ADDS (R200). -/
  | adds (i : Issue) (rd ra rb : Nat)
  /-- SUBS (R200). -/
  | subs (i : Issue) (rd ra rb : Nat)
  /-- AND (R199). -/
  | and (i : Issue) (rd ra rb : Nat)
  /-- OR (R199). -/
  | or (i : Issue) (rd ra rb : Nat)
  /-- XOR (R199). -/
  | xor (i : Issue) (rd ra rb : Nat)
  /-- ANDN (R199). -/
  | andn (i : Issue) (rd ra rb : Nat)
  /-- SHL (R205). -/
  | shl (i : Issue) (rd ra rb : Nat)
  /-- SHR (R205). -/
  | shr (i : Issue) (rd ra rb : Nat)
  /-- SRA (R205). -/
  | sra (i : Issue) (rd ra rb : Nat)
  /-- MIN (R199). -/
  | min (i : Issue) (rd ra rb : Nat)
  /-- MAX (R199). -/
  | max (i : Issue) (rd ra rb : Nat)
  /-- MINU (R199). -/
  | minu (i : Issue) (rd ra rb : Nat)
  /-- MAXU (R199). -/
  | maxu (i : Issue) (rd ra rb : Nat)
  /-- PEAK (R200). -/
  | peak (i : Issue) (rd ra rb : Nat)
  /-- MOV (R201). -/
  | mov (i : Issue) (rd ra : Nat)
  /-- NEG (R201). -/
  | neg (i : Issue) (rd ra : Nat)
  /-- NOT (R201). -/
  | not (i : Issue) (rd ra : Nat)
  /-- ABS (R201). -/
  | abs (i : Issue) (rd ra : Nat)
  /-- CLZ (R201). -/
  | clz (i : Issue) (rd ra : Nat)
  /-- CLS (R201). -/
  | cls (i : Issue) (rd ra : Nat)
  /-- LOG2 (R207). -/
  | log2 (i : Issue) (rd ra : Nat)
  /-- EXP2 (R208). -/
  | exp2 (i : Issue) (rd ra : Nat)
  /-- EXP2G (R208). -/
  | exp2g (i : Issue) (rd ra : Nat)
  /-- ADDI (R202). -/
  | addi (i : Issue) (rd ra imm : Nat)
  /-- ANDI (R202). -/
  | andi (i : Issue) (rd ra imm : Nat)
  /-- ORI (R202). -/
  | ori (i : Issue) (rd ra imm : Nat)
  /-- XORI (R202). -/
  | xori (i : Issue) (rd ra imm : Nat)
  /-- SHLI (R202). -/
  | shli (i : Issue) (rd ra k : Nat)
  /-- SHRI (R202). -/
  | shri (i : Issue) (rd ra k : Nat)
  /-- SRAI (R202). -/
  | srai (i : Issue) (rd ra k : Nat)
  /-- MOVI (R202). -/
  | movi (i : Issue) (rd imm : Nat)
  /-- CMP (R203). -/
  | cmp (i : Issue) (qd cond ra rb : Nat)
  /-- CMPI (R203). -/
  | cmpi (i : Issue) (qd cond ra imm : Nat)
  /-- DIVS (R206). -/
  | divs (i : Issue) (rd rb : Nat)
  /-- SQRS (R206). -/
  | sqrs (i : Issue) (rd : Nat)
  /-- MAC (R210). -/
  | mac (i : Issue) (fmt an ga gb : Nat) (clr : Bool)
  /-- MSU (R210). -/
  | msu (i : Issue) (fmt an ga gb : Nat) (clr : Bool)
  /-- DOT2 (R210). -/
  | dot2 (i : Issue) (fmt an ga gb : Nat) (sub clr : Bool)
  /-- MACP (R210). -/
  | macp (i : Issue) (fmt an ga gb : Nat) (sub clr : Bool)
  /-- BQ (R214). -/
  | bq (i : Issue) (an gx gc pp : Nat)
  /-- ACLR (R212). -/
  | aclr (i : Issue) (an : Nat)
  /-- AMOV (R212). -/
  | amov (i : Issue) (an am : Nat)
  /-- ALD (R212). -/
  | ald (i : Issue) (an ga : Nat)
  /-- AADD (R212). -/
  | aadd (i : Issue) (an am : Nat)
  /-- ASUB (R212). -/
  | asub (i : Issue) (an am : Nat)
  /-- ASHL (R212). -/
  | ashl (i : Issue) (an k : Nat)
  /-- ASRA (R212). -/
  | asra (i : Issue) (an k : Nat)
  /-- ANEG (R212). -/
  | aneg (i : Issue) (an : Nat)
  /-- RDA (R218). -/
  | rda (i : Issue) (gd an sh rm sm : Nat)
  /-- STA (R219). -/
  | sta (i : Issue) (an pn : Nat) (pm : Bool) (sh rm sm : Nat)
  /-- EXT (R222). -/
  | ext (i : Issue) (x20 : Nat)
  /-- LDW (R226). -/
  | ldw (i : Issue) (g : Nat) (ad : LsAddr)
  /-- LDD (R226). -/
  | ldd (i : Issue) (g : Nat) (ad : LsAddr)
  /-- STW (R226). -/
  | stw (i : Issue) (g : Nat) (ad : LsAddr)
  /-- STD (R226). -/
  | std (i : Issue) (g : Nat) (ad : LsAddr)
  /-- LD2 (R227). -/
  | ld2 (i : Issue) (gd ge pn : Nat) (pmn : Bool) (pm : Nat) (pmm wide : Bool)
  /-- MTP (R230). -/
  | mtp (i : Issue) (k : PKind) (n g : Nat)
  /-- MFP (R230). -/
  | mfp (i : Issue) (k : PKind) (n g : Nat)
  /-- PSTEP (R230). -/
  | pstep (i : Issue) (n imm : Nat)
  /-- LDL (R231). -/
  | ldl (i : Issue) (gd ga : Nat)
  /-- STC (R232). -/
  | stc (i : Issue) (gd gs ga : Nat)
  /-- BR (R238). -/
  | br (i : Issue) (off : Nat)
  /-- BRL (R238). -/
  | brl (i : Issue) (off : Nat)
  /-- JR (R239). -/
  | jr (i : Issue) (gd ga : Nat)
  /-- LOOP (R241). -/
  | loop (i : Issue) (n : LoopCount) (body : Nat)
  /-- LOOPS (R241). -/
  | loops (i : Issue)
  /-- PRED_AND (R244). -/
  | predAnd (i : Issue) (qd qa : Nat) (ia : Bool) (qb : Nat) (ib : Bool)
  /-- PRED_OR (R244). -/
  | predOr (i : Issue) (qd qa : Nat) (ia : Bool) (qb : Nat) (ib : Bool)
  /-- PRED_XOR (R244). -/
  | predXor (i : Issue) (qd qa : Nat) (ia : Bool) (qb : Nat) (ib : Bool)
  /-- PFLAG (R244). -/
  | pflag (i : Issue) (qd fc : Nat)
  /-- MFS (R245). -/
  | mfs (i : Issue) (g sr : Nat)
  /-- MTS (R245). -/
  | mts (i : Issue) (g sr : Nat)
  /-- LOCK (R185). -/
  | lock (i : Issue)
  /-- UNLOCK (R185). -/
  | unlock (i : Issue)
  /-- FENCE (R237). -/
  | fence (i : Issue)
  /-- GAP (R252). -/
  | gap (i : Issue) (k : Nat)
  /-- WFT (R251). -/
  | wft (i : Issue)
  /-- WFT_WAKE (R251). -/
  | wftWake (c : Nat)
  /-- SPLIT (R250). -/
  | split (i : Issue) (g : Nat)
  /-- TRAP (R247). -/
  | trap (i : Issue) (code : Nat)
  /-- BRK (R247). -/
  | brk (i : Issue)
  /-- RTE (R248). -/
  | rte (i : Issue)
  /-- TREADY (R254). -/
  | tready (i : Issue) (ga : Nat)
  /-- TCANCEL (R254). -/
  | tcancel (i : Issue) (ga : Nat)
  /-- TYIELD (R255). -/
  | tyield (i : Issue)
  /-- TDONE (R256). -/
  | tdone (i : Issue) (status : Nat)
  /-- TASK_COMPLETE (R256). -/
  | taskComplete (c : Nat)
  /-- WAITI (R260). -/
  | waiti (i : Issue)
  /-- WAITI_WAKE (R260). -/
  | waitiWake
  /-- IESET (R259). -/
  | ieset (i : Issue) (gd : Nat) (b : Bool)
  /-- MONCALL (R259). -/
  | moncall (i : Issue) (service : Nat)
  /-- ISYNC (R261). -/
  | isync (i : Issue)
  /-- IRQ_ENTRY (R181). -/
  | irqEntry
  /-- PREEMPTION (R190). -/
  | preemption (c d : Nat)
  /-- LOCK_BREAK (R186). -/
  | lockBreak (c : Nat)
  /-- REMOTE_LOAD_COMPLETE (R170). -/
  | remoteLoadComplete (c slot : Nat)
  /-- CORE_DMA_STARVE (R168). -/
  | coreDmaStarve (c k : Nat)
  /-- CORE_TENANT_WRITE (R165). -/
  | coreTenantWrite (by_ : Sender) (c : Nat) (v : Word)
  /-- SCRUB_DONE (R165). -/
  | scrubDone (c : Nat)
  /-- SCHED_SUBMIT (R270). -/
  | schedSubmit (by_ : Sender) (d : Nat)
  /-- SCHED_READY (R273). -/
  | schedReady (by_ : Sender) (v : Word)
  /-- SCHED_CANCEL (R277). -/
  | schedCancel (by_ : Sender) (d : Nat)
  /-- SCHED_FREE (R279). -/
  | schedFree (by_ : Sender) (d : Nat)
  /-- SCHED_RANGE_COMMIT (R268). -/
  | schedRangeCommit (by_ : Sender) (t : Nat) (v : Word)
  /-- TASK_DISPATCH (R292). -/
  | taskDispatch (u : Nat)
  /-- TASK_MIGRATE (R295). -/
  | taskMigrate (d c : Nat)
  /-- TASK_ABORT (R277). -/
  | taskAbort (c : Nat)
  /-- SCHED_CQ_POP (R282). -/
  | schedCqPop (by_ : Sender) (t : Nat)
  /-- ACCEL_JOB_COMPLETE (R296). -/
  | accelJobComplete (kind : Nat)
  /-- INGOT_HANDOVER (R306). -/
  | ingotHandover (by_ : Sender) (n : Nat) (v : Word)
  /-- DRAIN_COMPLETE (R306). -/
  | drainComplete (n : Nat)
  /-- INGOT_SCRUB_DONE (R307). -/
  | ingotScrubDone (n : Nat)
  /-- RETENTION_REQUEST (R313). -/
  | retentionRequest (by_ : Sender) (g : Nat) (v : Word)
  /-- RET_ENTERED (R313). -/
  | retEntered (g : Nat)
  /-- RET_WOKEN (R313). -/
  | retWoken (g : Nat)
  /-- INGOT_STARVE (R312). -/
  | ingotStarve (k n : Nat)
  /-- WINDOW_COMMIT (R320). -/
  | windowCommit (by_ : Sender) (t w : Nat) (v : Word)
  /-- FAULT_RECORD_CLEAR (R325). -/
  | faultRecordClear (t : Nat) (v : Word)
  /-- HOST_READ_COMPLETION (R323). -/
  | hostReadCompletion (h : HostReader) (data : Option (List Word))
  /-- HOST_READ_TIMEOUT (R323). -/
  | hostReadTimeout (h : HostReader)
  /-- DMA_START (R334). -/
  | dmaStart (by_ : Sender) (k : Nat)
  /-- DMA_RESUME (R334). -/
  | dmaResume (by_ : Sender) (k : Nat)
  /-- DMA_ABORT (R334). -/
  | dmaAbort (by_ : Sender) (k : Nat)
  /-- DMA_DESC_FETCH (R331). -/
  | dmaDescFetch (k : Nat)
  /-- DMA_BURST (R328). -/
  | dmaBurst (k : Nat)
  /-- DMA_DESC_COMPLETE (R330). -/
  | dmaDescComplete (k : Nat)
  /-- MBX_HDR_WRITE (R357). -/
  | mbxHdrWrite (by_ : Sender) (t d : Nat) (v : Word)
  /-- MBX_HDRC_WRITE (R357). -/
  | mbxHdrcWrite (by_ : Sender) (t d : Nat) (v : Word)
  /-- MBX_HDR_TIMEOUT (R357). -/
  | mbxHdrTimeout (t d : Nat)
  /-- MBX_DATA_WRITE (R359). -/
  | mbxDataWrite (by_ : Sender) (t d : Nat) (v : Word)
  /-- MBX_POP (R360). -/
  | mbxPop (by_ : Sender) (t d : Nat)
  /-- MBX_GO (R363). -/
  | mbxGo (by_ : Sender) (t d : Nat)
  /-- MBX_HDR_READ (R364). -/
  | mbxHdrRead (by_ : Sender) (t d : Nat)
  /-- MBX_FLUSH (R368). -/
  | mbxFlush (by_ : Sender) (t : Nat) (v : Word)
  /-- EVQ_POP (R369). -/
  | evqPop (by_ : Sender) (t : Nat)
  /-- EVQ_OVERFLOW (R370). -/
  | evqOverflow (t : Nat)
  /-- DOORBELL_RING (R371). -/
  | doorbellRing (by_ : Sender) (t : Nat) (v : Word)
  /-- DOORBELL_WAKE (R373). -/
  | doorbellWake (by_ : Sender) (t : Nat)
  /-- PATCH_ENTRY_WRITE (R386). -/
  | patchEntryWrite (by_ : Sender) (k d : Nat) (v : Word)
  /-- ROUTE_MUTE_CMD (R391). -/
  | routeMuteCmd (by_ : Sender) (v : Word)
  /-- CONTRIBUTION_WRITE (R394). -/
  | contributionWrite (by_ : Sender) (k c : Nat) (w0 w1 : Option Word)
  /-- SUMX_LIST_WRITE (R395). -/
  | sumxListWrite (by_ : Sender) (k n : Nat) (v : Word)
  /-- SUMX_SUM_JOB (R397). -/
  | sumxSumJob
  /-- SUMX_FINISH_JOB (R397). -/
  | sumxFinishJob
  /-- TAP_PEAK_CAPTURE (R400). -/
  | tapPeakCapture (by_ : Sender) (k : Nat)
  /-- LOUD_BLOCK (R401). -/
  | loudBlock (m : Nat)
  /-- CHAIN_WRITE (R414). -/
  | chainWrite (by_ : Sender) (c i : Nat) (v : Word)
  /-- COEF_WRITE (R408). -/
  | coefWrite (by_ : Sender) (k w : Nat) (v : Word)
  /-- EQA_CLEAR (R414). -/
  | eqaClear (by_ : Sender) (v : Word)
  /-- EQA_CHAIN_JOB (R412). -/
  | eqaChainJob
  /-- SAFE_ARM (R418). -/
  | safeArm (by_ : Sender) (g : Nat)
  /-- SAFE_ARM_CHECK_DONE (R419). -/
  | safeArmCheckDone (g : Nat)
  /-- SAFE_DISARM (R421). -/
  | safeDisarm (by_ : Sender) (g : Nat)
  /-- SAFE_CLRINC (R339). -/
  | safeClrinc (by_ : Sender) (g : Nat)
  /-- SAFE_SWAP (R422). -/
  | safeSwap (g : Nat)
  /-- SYNC_DONE (R424). -/
  | syncDone (g : Nat)
  /-- SAP_INPUT_FRAME (R441). -/
  | sapInputFrame (g bits phase : Nat) (lines margin : List (List Nat))
  /-- SAP_OUTPUT_FRAME (R441). -/
  | sapOutputFrame (g : Nat) (bad : List (List Nat))
  /-- SAP_CLOCK_LOSS (R447). -/
  | sapClockLoss (g : Nat)
  /-- MADI_RX_FRAME (R454). -/
  | madiRxFrame (p : Nat) (f : MadiFrame)
  /-- MADI_RX_NOSIG (R454). -/
  | madiRxNosig (p : Nat)
  /-- MADI_TX_FRAME (R453). -/
  | madiTxFrame (p : Nat)
  /-- NET_FRAME_RECEIVE (R466). -/
  | netFrameReceive (p : Nat) (fr : List Byte) (fcsOk : Bool) (hb : Option NetHb)
  /-- LEG_LOSS (R484). -/
  | legLoss (f p : Nat)
  /-- FLOW_LOSS (R485). -/
  | flowLoss (f : Nat)
  /-- MEDIA_PACKET_LAUNCH (R489). -/
  | mediaPacketLaunch (f : Nat)
  /-- CONTROL_FRAME_TRANSMIT (R494). -/
  | controlFrameTransmit (p : Nat)
  /-- FLOW_ENABLE (R474). -/
  | flowEnable (by_ : Sender) (tx : Bool) (f : Nat)
  /-- FLOW_DISABLE (R474). -/
  | flowDisable (by_ : Sender) (tx : Bool) (f : Nat)
  /-- LINK_UP (R497). -/
  | linkUp (p : Nat)
  /-- LINK_DOWN (R497). -/
  | linkDown (p : Nat)
  /-- HEARTBEAT (R504). -/
  | heartbeat (m : SvlRx) (esc state role prop count : Nat) (phase mcc : Int)
  /-- DIGEST (R527). -/
  | digest (m : SvlRx) (esc : Nat) (ds : List Nat)
  /-- FWD_WRITE (R519). -/
  | fwdWrite (m : SvlRx) (a : Nat) (v : Word) (esc : Nat)
  /-- FWD_TAQ (R145). -/
  | fwdTaq (m : SvlRx) (i esc : Nat)
  /-- FWD_MSG (R375). -/
  | fwdMsg (m : SvlRx) (t : Nat) (ws : List Word) (esc : Nat)
  /-- MIRROR (R523). -/
  | mirror (m : SvlRx) (port first esc : Nat) (ws : List Word)
  /-- HOSTDATA (R521). -/
  | hostdata (m : SvlRx) (k burst : Nat) (ws : List Word)
  /-- COPY (R514). -/
  | copy (m : SvlRx) (a round : Nat) (ws : List Word)
  /-- JOIN (R513). -/
  | join (m : SvlRx) (es : Nat)
  /-- ENTER (R515). -/
  | enter (m : SvlRx) (esc : Nat)
  /-- RECLAIM (R535). -/
  | reclaim (m : SvlRx) (esc : Nat)
  /-- SWITCH (R535). -/
  | switch (m : SvlRx) (esc : Nat)
  /-- RELINQUISH (R530). -/
  | relinquish (m : SvlRx) (esc : Nat)
  /-- LEAVE (R530). -/
  | leave (m : SvlRx) (esc : Nat)
  /-- SVL_RETRANSMIT (R505). -/
  | svlRetransmit
  /-- LINK_FAIL (R505). -/
  | linkFail
  /-- TRAINED (R502). -/
  | trained (lanes : Nat)
  /-- LANE_DOWN (R502). -/
  | laneDown (l : Nat)
  /-- LANE_UP (R541). -/
  | laneUp (l : Nat)
  /-- LINK_HEARTBEAT_LOST (R511). -/
  | linkHeartbeatLost
  /-- NET_HEARTBEAT_ABSENT (R511). -/
  | netHeartbeatAbsent
  /-- DUO_JOIN (R513). -/
  | duoJoin (by_ : Sender) (p : JoinPeer)
  /-- COPY_ROUND_END (R514). -/
  | copyRoundEnd
  /-- LOCKSTEP_ENTRY (R515). -/
  | lockstepEntry
  /-- PAIRED (R516). -/
  | paired
  /-- JOIN_CONVERGE_TIMEOUT (R516). -/
  | joinConvergeTimeout
  /-- FORWARDED_APPLY (R519). -/
  | forwardedApply
  /-- FAILOVER (R528). -/
  | failover
  /-- PRIMARY_GOES_SOLO (R533). -/
  | primaryGoesSolo
  /-- REVERT_HOLD_REACHED (R534). -/
  | revertHoldReached
  /-- DUO_SWITCH (R536). -/
  | duoSwitch (by_ : Sender)
  /-- ROLE_SWAP (R535). -/
  | roleSwap
  /-- DUO_LEAVE (R537). -/
  | duoLeave (by_ : Sender)
  /-- DEPARTURE_AT_F (R530). -/
  | departureAtF
  /-- JACK_DET_EDGE (R544). -/
  | jackDetEdge (level : Bool)
  /-- JACK_INSERT_CONFIRM (R543). -/
  | jackInsertConfirm
  /-- JACK_REMOVED (R544). -/
  | jackRemoved
  /-- JACK_CLASS (R545). -/
  | jackClass (zl zr ca cb : Nat)
  /-- BUTTON_SAMPLE (R548). -/
  | buttonSample (code : Nat)
  /-- BTN_PRESS (R548). -/
  | btnPress (k : Nat)
  /-- BTN_RELEASE (R548). -/
  | btnRelease
  /-- BTN_LONG (R548). -/
  | btnLong
  /-- SPK_CFG_WRITE (R555). -/
  | spkCfgWrite (by_ : Sender) (v : Word)
  /-- SPK_TRIP (R556). -/
  | spkTrip
  /-- SPK_SOFTSTART_DONE (R555). -/
  | spkSoftstartDone
  /-- SPK_RETRY (R555). -/
  | spkRetry
  /-- SPK_ATTEMPTS_RESET (R555). -/
  | spkAttemptsReset
  /-- SPK_FINAL_CLEAR (R557). -/
  | spkFinalClear (by_ : Sender)
  /-- SPK_THERMAL_ENTER (R558). -/
  | spkThermalEnter (temp : Nat)
  /-- SPK_THERMAL_EXIT (R558). -/
  | spkThermalExit (temp : Int)
  /-- SIL_SLEEP (R559). -/
  | silSleep (o : Nat)
  /-- SIL_WAKE (R560). -/
  | silWake (o : Nat)
  /-- RING_SAMPLE_WRITE (R562). -/
  | ringSampleWrite (sample : Word) (slots : Nat)
  /-- RING_CNT_CAPTURE (R562). -/
  | ringCntCapture (by_ : Sender)
  /-- FETCH_GO (R564). -/
  | fetchGo (by_ : Sender) (v : Word)
  /-- FETCH_COMPLETE (R564). -/
  | fetchComplete
  /-- PCIE_LINK_DOWN (R581). -/
  | pcieLinkDown (kind : Nat)
  /-- PCIE_LINK_UP (R581). -/
  | pcieLinkUp (speed : Nat)
  /-- FLR_START (R582). -/
  | flrStart (f : Nat)
  /-- FLR_COMPLETE (R582). -/
  | flrComplete (f : Nat)
  /-- APERTURE_ACCESS (R577). -/
  | apertureAccess (t o : Nat) (write : Option Word)
  /-- APERTURE_ABORT (R577). -/
  | apertureAbort (t : Nat)
  /-- PF_MSI_TRIGGER (R578). -/
  | pfMsiTrigger (by_ : Sender) (v : Word)
  /-- VF_MSI_TRIGGER (R578). -/
  | vfMsiTrigger (by_ : Sender) (t : Nat) (v : Word)
  /-- BOOT_ROM_START (R583). -/
  | bootRomStart
  /-- BOOT_PUSH_GO (R591). -/
  | bootPushGo (by_ : Sender)
  /-- BOOT_IMAGE_CHECK (R586). -/
  | bootImageCheck (img : Option (List Byte))
  /-- QSPI_COMMAND (R590). -/
  | qspiCommand (by_ : Sender) (v : Word)
  /-- CMD_DONE (R590). -/
  | cmdDone (data : List Byte)
  /-- TWB_ADDRESS_MATCH (R593). -/
  | twbAddressMatch (a : Nat) (read : Bool) (off : Option Nat) (part : Nat)
  /-- TWB_WRITE_WORD (R596). -/
  | twbWriteWord (w : Word)
  /-- TWB_READ_WORD (R597). -/
  | twbReadWord
  /-- TWB_STOP (R596). -/
  | twbStop (part : Nat)
  /-- TW_STRETCH (R598). -/
  | twStretch
  /-- TWB_LINGER_EXPIRE (R600). -/
  | twbLingerExpire
  /-- TW_WAKE (R600). -/
  | twWake
  /-- TWB_DORMANT_MATCH (R601). -/
  | twbDormantMatch (a : Nat)
  /-- PWR_CMD_RUN (R609). -/
  | pwrCmdRun (by_ : Sender)
  /-- PWR_CMD_IDLE (R609). -/
  | pwrCmdIdle (by_ : Sender)
  /-- PWR_CMD_LISTEN (R611). -/
  | pwrCmdListen (by_ : Sender)
  /-- PWR_CMD_DORMANT (R632). -/
  | pwrCmdDormant (by_ : Sender)
  /-- PWR_KEY_WRITE (R632). -/
  | pwrKeyWrite (by_ : Sender) (v : Word)
  /-- PWR_REQ_RUN (R614). -/
  | pwrReqRun (by_ : Sender)
  /-- IDLE_ENTRY (R610). -/
  | idleEntry
  /-- IDLE_EXIT (R610). -/
  | idleExit
  /-- LISTEN_ENTRY (R611). -/
  | listenEntry
  /-- LISTEN_EXIT (R611). -/
  | listenExit
  /-- DORMANT_ENTRY (R609). -/
  | dormantEntry
  /-- DORMANT_WAKE (R613). -/
  | dormantWake
  /-- WAKE_PIN_REQUEST (R614). -/
  | wakePinRequest (level : Bool)
  /-- POWER_ON_RESET (R617). -/
  | powerOnReset (up : Bool)
  /-- RESET_N_RESET (R618). -/
  | resetNReset (low gpio0 : Bool)
  /-- SUPPLY_RESET (R617). -/
  | supplyReset (ok : Bool)
  /-- SOFTWARE_RESET (R619). -/
  | softwareReset
  /-- FUSE_LOAD (R637). -/
  | fuseLoad
  /-- GPIO_OUT_WRITE (R625). -/
  | gpioOutWrite (by_ : Sender) (v : Word)
  /-- GPIO_EDGE (R626). -/
  | gpioEdge (k : Nat) (level : Bool)
  /-- WDT_START (R627). -/
  | wdtStart (by_ : Sender)
  /-- WDT_EARLY (R628). -/
  | wdtEarly
  /-- WDT_SERVICE_WRITE (R629). -/
  | wdtServiceWrite (by_ : Sender) (v : Word) (c : Nat)
  /-- WDT_EXPIRY (R629). -/
  | wdtExpiry
  /-- WATCHDOG_RESET (R629). -/
  | watchdogReset
  /-- FUSE_PROG_GO (R638). -/
  | fuseProgGo (by_ : Sender)
  /-- PROG_DONE (R638). -/
  | progDone
  /-- LC_ADVANCE_CMD (R639). -/
  | lcAdvanceCmd (by_ : Sender) (v : Word)
  /-- RETIRE_ERASE_DONE (R640). -/
  | retireEraseDone
  /-- FUSE_BLOW (R645). -/
  | fuseBlow
  /-- LC_ADVANCE (R645). -/
  | lcAdvance
  /-- DERIVE (R645). -/
  | derive
  /-- EXTEST (R646). -/
  | extest (cells : Option (List Bool))
  /-- SAMPLE_PRELOAD (R646). -/
  | samplePreload (sampled cells : List Bool)
  /-- IDCODE (R646). -/
  | idcode
  /-- CLAMP (R646). -/
  | clamp
  /-- HIGHZ (R646). -/
  | highz
  /-- BYPASS (R646). -/
  | bypass
  /-- WAKEREQ (R646). -/
  | wakereq
  /-- DPACC (R647). -/
  | dpacc (op a : Nat) (v : Word)
  /-- TEST_LOGIC_RESET (R652). -/
  | testLogicReset
  /-- DBG_REQUEST (R649). -/
  | dbgRequest (v : Word)
  /-- DBG_AUTH_SUBMIT (R649). -/
  | dbgAuthSubmit
  /-- DBG_CHALLENGE_EXPIRE (R649). -/
  | dbgChallengeExpire
  /-- DBG_CLOSE (R652). -/
  | dbgClose
  /-- DBG_HALT (R654). -/
  | dbgHalt (m : Nat)
  /-- DBG_RESUME (R648). -/
  | dbgResume (m : Nat)
  /-- DBG_STEP (R656). -/
  | dbgStep (m : Nat)
  /-- DEBUG_RESET (R618). -/
  | debugReset
  /-- ASSAY_SCRUB (R670). -/
  | assayScrub
  /-- TRACK_ENTRY_EXPIRE (R671). -/
  | trackEntryExpire
  /-- QUAR_LIFTED (R673). -/
  | quarLifted (by_ : Sender) (addr : Nat)
  /-- AVS_MEASUREMENT (R676). -/
  | avsMeasurement (counts : List Nat) (mv : Nat)
  /-- THERMAL_READING (R680). -/
  | thermalReading (t0 t1 t2 t3 : Int)
  /-- THERM_STOP (R681). -/
  | thermStop
  /-- LEVEL_DWELL_STEP (R684). -/
  | levelDwellStep
  /-- REGISTER_READ (R8). -/
  | registerRead (by_ : Sender) (a : Nat)
  /-- STORE_ACCEPTED (R236). -/
  | storeAccepted (c : Nat) (host : Bool)
  /-- SAMPLE_PERIOD (R24). -/
  | samplePeriod (mic : Word)
  /-- SVL_FRAME_ERROR (R505). -/
  | svlFrameError (k : SvlErr)
  /-- RECLAIM_ACK_TIMEOUT (R535). -/
  | reclaimAckTimeout
  /-- HP_LIMIT (R553). -/
  | hpLimit (sides : Nat)
  /-- CUE_SUPPLIES_ABSENT (R691). -/
  | cueSuppliesAbsent (vdd vdda : Bool)
  /-- DBG_WAIT_END (R649). -/
  | dbgWaitEnd
  /-- VF_ENABLE (R574). -/
  | vfEnable (en : Bool) (num : Nat) (ari : Bool)
  /-- MSIX_UNMASK (R578). -/
  | msixUnmask (f : Nat) (v : Option Nat)
  deriving DecidableEq, Repr

end Sys2Proof
end

