-- ==== Sys2Proof/WellFormed.lean ====
section
/-!
DEFINITION. Well-formed commands: every operand within the range that its field, its register
number or its index has in the manual. A meaning is defined on every command; the ranges say
which commands the outside can send.
-/
namespace Sys2Proof

/-- A hallmark is 8 bits (R346) and an agent code 8 bits (R325). -/
def Sender.wf (s : Sender) : Bool := s.hm < 256 && s.agent < 256

/-- Cores 0 to 16 and predicates Q0 to Q3 (R152, R194). -/
def Issue.wf (i : Issue) : Bool := i.core < 17 && i.q < 4

/-- SEQ and ACK are 12 bits, PAIR_ID 16 (R503, R540). -/
def SvlRx.wf (m : SvlRx) : Bool :=
  m.seq < 4096 && (match m.ack with | some a => decide (a < 4096) | none => true) && m.pairId < 65536 && m.hm < 256

/-- Pointers P0 to P7, registers G0 to G31 and a 12-bit offset (R225). -/
def LsAddr.wf : LsAddr → Bool
  | .ptr n _ => n < 8
  | .base ga imm => ga < 32 && imm < 4096

/-- A register, or a 12-bit count (R241). -/
def LoopCount.wf : LoopCount → Bool
  | .reg ga => ga < 32
  | .imm n => n < 4096

/-- A load has at most two operands, and there are 32 DMA channels (R227, R326). -/
def HostReader.wf : HostReader → Bool
  | .core c slot => c < 17 && slot < 2
  | .dma k _ => k < 32
  | .fetch k => k < 32

/-- Every operand is within its range. -/
def Instr.wf : Instr → Bool
  | .registerWrite by_ a _ => Sender.wf by_ && decide (a < 2 ^ 32)
  | .cpEvenWrite by_ a _ => Sender.wf by_ && decide (a < 2 ^ 32)
  | .cpOddWrite by_ a _ => Sender.wf by_ && decide (a < 2 ^ 32)
  | .cpPairTimeout a => decide (a < 2 ^ 32)
  | .unmappedAccess by_ a _ => Sender.wf by_ && decide (a < 2 ^ 32)
  | .tickCfgWrite by_ _ => Sender.wf by_
  | .tickRunStart by_ => Sender.wf by_
  | .deferredTickStart => true
  | .tickStopRequest => true
  | .tickStopHold => true
  | .tickStart => true
  | .guardStart => true
  | .sysEscLoRead by_ => Sender.wf by_
  | .evrOverflow => true
  | .sysEvrCfgWrite _ _ => true
  | .sysKeyWrite by_ _ => Sender.wf by_
  | .sysResetWrite by_ _ => Sender.wf by_
  | .clkTgtCommit by_ _ => Sender.wf by_
  | .smallStepApply => true
  | .pllLockDeclared => true
  | .relockDone => true
  | .relockTimeout => true
  | .pllAcquireStart _ => true
  | .calMeasureStart by_ _ => Sender.wf by_
  | .calMeasureDone _ => true
  | .lpoCalUpdate _ => true
  | .lockLost => true
  | .lockRegained => true
  | .lockLossTimeout => true
  | .freqMonitorWindow _ => true
  | .xtalFail => true
  | .clkGateWrite _ => true
  | .clkGateClose unit => decide (unit < 21)
  | .refGateEnd n _ _ => decide (n < 7)
  | .refLos n => decide (n < 7)
  | .refEvent n _ => decide (n < 7)
  | .vrefFrameStart _ _ => true
  | .refUpdate => true
  | .refHistorySample => true
  | .refPtpQualWrite _ => true
  | .refFreqWrite by_ _ => Sender.wf by_
  | .refPhaseStepWrite by_ _ => Sender.wf by_
  | .realignCommand _ => true
  | .realignApply => true
  | .timeIncrCommit by_ _ => Sender.wf by_
  | .timeStep by_ _ => Sender.wf by_
  | .timeNowCapture by_ => Sender.wf by_
  | .timeLatchCapture by_ => Sender.wf by_
  | .txtsPop => true
  | .taqArm by_ i _ => Sender.wf by_ && decide (i < 1024)
  | .taqCancel by_ i _ => Sender.wf by_ && decide (i < 1024)
  | .taqCutoff => true
  | .timedPatchApply => true
  | .timedMuteStart => true
  | .timedGpioChange => true
  | .add i rd ra rb => Issue.wf i && decide (rd < 32) && decide (ra < 32) && decide (rb < 32)
  | .sub i rd ra rb => Issue.wf i && decide (rd < 32) && decide (ra < 32) && decide (rb < 32)
  | .adds i rd ra rb => Issue.wf i && decide (rd < 32) && decide (ra < 32) && decide (rb < 32)
  | .subs i rd ra rb => Issue.wf i && decide (rd < 32) && decide (ra < 32) && decide (rb < 32)
  | .and i rd ra rb => Issue.wf i && decide (rd < 32) && decide (ra < 32) && decide (rb < 32)
  | .or i rd ra rb => Issue.wf i && decide (rd < 32) && decide (ra < 32) && decide (rb < 32)
  | .xor i rd ra rb => Issue.wf i && decide (rd < 32) && decide (ra < 32) && decide (rb < 32)
  | .andn i rd ra rb => Issue.wf i && decide (rd < 32) && decide (ra < 32) && decide (rb < 32)
  | .shl i rd ra rb => Issue.wf i && decide (rd < 32) && decide (ra < 32) && decide (rb < 32)
  | .shr i rd ra rb => Issue.wf i && decide (rd < 32) && decide (ra < 32) && decide (rb < 32)
  | .sra i rd ra rb => Issue.wf i && decide (rd < 32) && decide (ra < 32) && decide (rb < 32)
  | .min i rd ra rb => Issue.wf i && decide (rd < 32) && decide (ra < 32) && decide (rb < 32)
  | .max i rd ra rb => Issue.wf i && decide (rd < 32) && decide (ra < 32) && decide (rb < 32)
  | .minu i rd ra rb => Issue.wf i && decide (rd < 32) && decide (ra < 32) && decide (rb < 32)
  | .maxu i rd ra rb => Issue.wf i && decide (rd < 32) && decide (ra < 32) && decide (rb < 32)
  | .peak i rd ra rb => Issue.wf i && decide (rd < 32) && decide (ra < 32) && decide (rb < 32)
  | .mov i rd ra => Issue.wf i && decide (rd < 32) && decide (ra < 32)
  | .neg i rd ra => Issue.wf i && decide (rd < 32) && decide (ra < 32)
  | .not i rd ra => Issue.wf i && decide (rd < 32) && decide (ra < 32)
  | .abs i rd ra => Issue.wf i && decide (rd < 32) && decide (ra < 32)
  | .clz i rd ra => Issue.wf i && decide (rd < 32) && decide (ra < 32)
  | .cls i rd ra => Issue.wf i && decide (rd < 32) && decide (ra < 32)
  | .log2 i rd ra => Issue.wf i && decide (rd < 32) && decide (ra < 32)
  | .exp2 i rd ra => Issue.wf i && decide (rd < 32) && decide (ra < 32)
  | .exp2g i rd ra => Issue.wf i && decide (rd < 32) && decide (ra < 32)
  | .addi i rd ra imm => Issue.wf i && decide (rd < 32) && decide (ra < 32) && decide (imm < 4096)
  | .andi i rd ra imm => Issue.wf i && decide (rd < 32) && decide (ra < 32) && decide (imm < 4096)
  | .ori i rd ra imm => Issue.wf i && decide (rd < 32) && decide (ra < 32) && decide (imm < 4096)
  | .xori i rd ra imm => Issue.wf i && decide (rd < 32) && decide (ra < 32) && decide (imm < 4096)
  | .shli i rd ra k => Issue.wf i && decide (rd < 32) && decide (ra < 32) && decide (k < 32)
  | .shri i rd ra k => Issue.wf i && decide (rd < 32) && decide (ra < 32) && decide (k < 32)
  | .srai i rd ra k => Issue.wf i && decide (rd < 32) && decide (ra < 32) && decide (k < 32)
  | .movi i rd imm => Issue.wf i && decide (rd < 32) && decide (imm < 4096)
  | .cmp i qd cond ra rb => Issue.wf i && decide (qd < 4) && decide (cond < 8) && decide (ra < 32) && decide (rb < 32)
  | .cmpi i qd cond ra imm => Issue.wf i && decide (qd < 4) && decide (cond < 8) && decide (ra < 32) && decide (imm < 4096)
  | .divs i rd rb => Issue.wf i && decide (rd < 32) && decide (rb < 32)
  | .sqrs i rd => Issue.wf i && decide (rd < 32)
  | .mac i fmt an ga gb _ => Issue.wf i && decide (fmt < 5) && decide (an < 8) && decide (ga < 32) && decide (gb < 32)
  | .msu i fmt an ga gb _ => Issue.wf i && decide (fmt < 5) && decide (an < 8) && decide (ga < 32) && decide (gb < 32)
  | .dot2 i fmt an ga gb _ _ => Issue.wf i && decide (fmt < 5) && decide (an < 8) && decide (ga < 32) && decide (gb < 32)
  | .macp i fmt an ga gb _ _ => Issue.wf i && decide (fmt < 5) && decide (an < 8) && decide (ga < 32) && decide (gb < 32)
  | .bq i an gx gc pp => Issue.wf i && decide (an < 8) && decide (gx < 32) && decide (gc < 32) && decide (pp < 8)
  | .aclr i an => Issue.wf i && decide (an < 8)
  | .amov i an am => Issue.wf i && decide (an < 8) && decide (am < 8)
  | .ald i an ga => Issue.wf i && decide (an < 8) && decide (ga < 32)
  | .aadd i an am => Issue.wf i && decide (an < 8) && decide (am < 8)
  | .asub i an am => Issue.wf i && decide (an < 8) && decide (am < 8)
  | .ashl i an k => Issue.wf i && decide (an < 8) && decide (k < 16)
  | .asra i an k => Issue.wf i && decide (an < 8) && decide (k < 16)
  | .aneg i an => Issue.wf i && decide (an < 8)
  | .rda i gd an sh rm sm => Issue.wf i && decide (gd < 32) && decide (an < 8) && decide (sh < 64) && decide (rm < 3) && decide (sm < 3)
  | .sta i an pn _ sh rm sm => Issue.wf i && decide (an < 8) && decide (pn < 8) && decide (sh < 64) && decide (rm < 3) && decide (sm < 3)
  | .ext i x20 => Issue.wf i && decide (x20 < 2 ^ 20)
  | .ldw i g ad => Issue.wf i && LsAddr.wf ad && decide (g < 32)
  | .ldd i g ad => Issue.wf i && LsAddr.wf ad && decide (g < 32)
  | .stw i g ad => Issue.wf i && LsAddr.wf ad && decide (g < 32)
  | .std i g ad => Issue.wf i && LsAddr.wf ad && decide (g < 32)
  | .ld2 i gd ge pn _ pm _ _ => Issue.wf i && decide (gd < 32) && decide (ge < 32) && decide (pn < 8) && decide (pm < 8)
  | .mtp i _ n g => Issue.wf i && decide (n < 8) && decide (g < 32)
  | .mfp i _ n g => Issue.wf i && decide (n < 8) && decide (g < 32)
  | .pstep i n imm => Issue.wf i && decide (n < 8) && decide (imm < 4096)
  | .ldl i gd ga => Issue.wf i && decide (gd < 32) && decide (ga < 32)
  | .stc i gd gs ga => Issue.wf i && decide (gd < 32) && decide (gs < 32) && decide (ga < 32)
  | .br i off => Issue.wf i && decide (off < 2 ^ 23)
  | .brl i off => Issue.wf i && decide (off < 2 ^ 23)
  | .jr i gd ga => Issue.wf i && decide (gd < 32) && decide (ga < 32)
  | .loop i n body => Issue.wf i && LoopCount.wf n && decide (body < 512)
  | .loops i => Issue.wf i
  | .predAnd i qd qa _ qb _ => Issue.wf i && decide (qd < 4) && decide (qa < 4) && decide (qb < 4)
  | .predOr i qd qa _ qb _ => Issue.wf i && decide (qd < 4) && decide (qa < 4) && decide (qb < 4)
  | .predXor i qd qa _ qb _ => Issue.wf i && decide (qd < 4) && decide (qa < 4) && decide (qb < 4)
  | .pflag i qd fc => Issue.wf i && decide (qd < 4) && decide (fc < 10)
  | .mfs i g sr => Issue.wf i && decide (g < 32) && decide (sr < 32)
  | .mts i g sr => Issue.wf i && decide (g < 32) && decide (sr < 32)
  | .lock i => Issue.wf i
  | .unlock i => Issue.wf i
  | .fence i => Issue.wf i
  | .gap i k => Issue.wf i && decide (k < 32)
  | .wft i => Issue.wf i
  | .wftWake c => decide (c < 17)
  | .split i g => Issue.wf i && decide (g < 32)
  | .trap i code => Issue.wf i && decide (code < 1024)
  | .brk i => Issue.wf i
  | .rte i => Issue.wf i
  | .tready i ga => Issue.wf i && decide (ga < 32)
  | .tcancel i ga => Issue.wf i && decide (ga < 32)
  | .tyield i => Issue.wf i
  | .tdone i status => Issue.wf i && decide (status < 256)
  | .taskComplete c => decide (c < 16)
  | .waiti i => Issue.wf i
  | .waitiWake => true
  | .ieset i gd _ => Issue.wf i && decide (gd < 32)
  | .moncall i service => Issue.wf i && decide (service < 4096)
  | .isync i => Issue.wf i
  | .irqEntry => true
  | .preemption c d => decide (c < 16) && decide (d < 4096)
  | .lockBreak c => decide (c < 17)
  | .remoteLoadComplete c slot => decide (c < 17) && decide (slot < 2)
  | .coreDmaStarve c k => decide (c < 16) && decide (k < 32)
  | .coreTenantWrite by_ c _ => Sender.wf by_ && decide (c < 16)
  | .scrubDone c => decide (c < 16)
  | .schedSubmit by_ d => Sender.wf by_ && decide (d < 4096)
  | .schedReady by_ _ => Sender.wf by_
  | .schedCancel by_ d => Sender.wf by_ && decide (d < 4096)
  | .schedFree by_ d => Sender.wf by_ && decide (d < 4096)
  | .schedRangeCommit by_ t _ => Sender.wf by_ && decide (t < 16)
  | .taskDispatch u => decide (u < 19)
  | .taskMigrate d c => decide (d < 4096) && decide (c < 16)
  | .taskAbort c => decide (c < 16)
  | .schedCqPop by_ t => Sender.wf by_ && decide (t < 16)
  | .accelJobComplete kind => decide (kind < 3)
  | .ingotHandover by_ n _ => Sender.wf by_ && decide (n < 80)
  | .drainComplete n => decide (n < 80)
  | .ingotScrubDone n => decide (n < 80)
  | .retentionRequest by_ g _ => Sender.wf by_ && decide (g < 10)
  | .retEntered g => decide (g < 10)
  | .retWoken g => decide (g < 10)
  | .ingotStarve k n => decide (k < 32) && decide (n < 80)
  | .windowCommit by_ t w _ => Sender.wf by_ && decide (t < 16) && decide (w < 32)
  | .faultRecordClear t _ => decide (t < 16)
  | .hostReadCompletion h _ => HostReader.wf h
  | .hostReadTimeout h => HostReader.wf h
  | .dmaStart by_ k => Sender.wf by_ && decide (k < 32)
  | .dmaResume by_ k => Sender.wf by_ && decide (k < 32)
  | .dmaAbort by_ k => Sender.wf by_ && decide (k < 32)
  | .dmaDescFetch k => decide (k < 32)
  | .dmaBurst k => decide (k < 32)
  | .dmaDescComplete k => decide (k < 32)
  | .mbxHdrWrite by_ t d _ => Sender.wf by_ && decide (t < 16) && decide (d < 2)
  | .mbxHdrcWrite by_ t d _ => Sender.wf by_ && decide (t < 16) && decide (d < 2)
  | .mbxHdrTimeout t d => decide (t < 16) && decide (d < 2)
  | .mbxDataWrite by_ t d _ => Sender.wf by_ && decide (t < 16) && decide (d < 2)
  | .mbxPop by_ t d => Sender.wf by_ && decide (t < 16) && decide (d < 2)
  | .mbxGo by_ t d => Sender.wf by_ && decide (t < 16) && decide (d < 2)
  | .mbxHdrRead by_ t d => Sender.wf by_ && decide (t < 16) && decide (d < 2)
  | .mbxFlush by_ t _ => Sender.wf by_ && decide (t < 16)
  | .evqPop by_ t => Sender.wf by_ && decide (t < 16)
  | .evqOverflow t => decide (t < 16)
  | .doorbellRing by_ t _ => Sender.wf by_ && decide (t < 16)
  | .doorbellWake by_ t => Sender.wf by_ && decide (t < 16)
  | .patchEntryWrite by_ k d _ => Sender.wf by_ && decide (k < 2) && decide (d < 8192)
  | .routeMuteCmd by_ _ => Sender.wf by_
  | .contributionWrite by_ k c _ _ => Sender.wf by_ && decide (k < 2) && decide (c < 2 ^ 16)
  | .sumxListWrite by_ k n _ => Sender.wf by_ && decide (k < 2) && decide (n < 256)
  | .sumxSumJob => true
  | .sumxFinishJob => true
  | .tapPeakCapture by_ k => Sender.wf by_ && decide (k < 4096)
  | .loudBlock m => decide (m < 16)
  | .chainWrite by_ c i _ => Sender.wf by_ && decide (c < 2048) && decide (i < 8)
  | .coefWrite by_ k w _ => Sender.wf by_ && decide (k < 2) && decide (w < 122880)
  | .eqaClear by_ _ => Sender.wf by_
  | .eqaChainJob => true
  | .safeArm by_ g => Sender.wf by_ && decide (g < 16)
  | .safeArmCheckDone g => decide (g < 16)
  | .safeDisarm by_ g => Sender.wf by_ && decide (g < 16)
  | .safeClrinc by_ g => Sender.wf by_ && decide (g < 16)
  | .safeSwap g => decide (g < 16)
  | .syncDone g => decide (g < 16)
  | .sapInputFrame g _ _ _ _ => decide (g < 4)
  | .sapOutputFrame g _ => decide (g < 4)
  | .sapClockLoss g => decide (g < 4)
  | .madiRxFrame p _ => decide (p < 2)
  | .madiRxNosig p => decide (p < 2)
  | .madiTxFrame p => decide (p < 2)
  | .netFrameReceive p _ _ _ => decide (p < 2)
  | .legLoss f p => decide (f < 1024) && decide (p < 2)
  | .flowLoss f => decide (f < 1024)
  | .mediaPacketLaunch f => decide (f < 1024)
  | .controlFrameTransmit p => decide (p < 2)
  | .flowEnable by_ _ f => Sender.wf by_ && decide (f < 1024)
  | .flowDisable by_ _ f => Sender.wf by_ && decide (f < 1024)
  | .linkUp p => decide (p < 2)
  | .linkDown p => decide (p < 2)
  | .heartbeat m esc state role prop count _ _ => SvlRx.wf m && decide (esc < 2 ^ 64) && decide (state < 7) && decide (role < 2) && decide (prop < 4) && decide (count < 2 ^ 32)
  | .digest m esc _ => SvlRx.wf m && decide (esc < 2 ^ 64)
  | .fwdWrite m a _ esc => SvlRx.wf m && decide (a < 2 ^ 32) && decide (esc < 2 ^ 64)
  | .fwdTaq m i esc => SvlRx.wf m && decide (i < 1024) && decide (esc < 2 ^ 64)
  | .fwdMsg m t _ esc => SvlRx.wf m && decide (t < 16) && decide (esc < 2 ^ 64)
  | .mirror m port first esc _ => SvlRx.wf m && decide (port < 11) && decide (first < 64) && decide (esc < 2 ^ 64)
  | .hostdata m k burst _ => SvlRx.wf m && decide (k < 32) && decide (burst < 2 ^ 32)
  | .copy m a round _ => SvlRx.wf m && decide (a < 2 ^ 32) && decide (round < 9)
  | .join m es => SvlRx.wf m && decide (es < 2 ^ 64)
  | .enter m esc => SvlRx.wf m && decide (esc < 2 ^ 64)
  | .reclaim m esc => SvlRx.wf m && decide (esc < 2 ^ 64)
  | .switch m esc => SvlRx.wf m && decide (esc < 2 ^ 64)
  | .relinquish m esc => SvlRx.wf m && decide (esc < 2 ^ 64)
  | .leave m esc => SvlRx.wf m && decide (esc < 2 ^ 64)
  | .svlRetransmit => true
  | .linkFail => true
  | .trained lanes => decide (lanes < 4)
  | .laneDown l => decide (l < 2)
  | .laneUp l => decide (l < 2)
  | .linkHeartbeatLost => true
  | .netHeartbeatAbsent => true
  | .duoJoin by_ _ => Sender.wf by_
  | .copyRoundEnd => true
  | .lockstepEntry => true
  | .paired => true
  | .joinConvergeTimeout => true
  | .forwardedApply => true
  | .failover => true
  | .primaryGoesSolo => true
  | .revertHoldReached => true
  | .duoSwitch by_ => Sender.wf by_
  | .roleSwap => true
  | .duoLeave by_ => Sender.wf by_
  | .departureAtF => true
  | .jackDetEdge _ => true
  | .jackInsertConfirm => true
  | .jackRemoved => true
  | .jackClass _ _ ca cb => decide (ca < 256) && decide (cb < 256)
  | .buttonSample code => decide (code < 256)
  | .btnPress k => decide (k < 4)
  | .btnRelease => true
  | .btnLong => true
  | .spkCfgWrite by_ _ => Sender.wf by_
  | .spkTrip => true
  | .spkSoftstartDone => true
  | .spkRetry => true
  | .spkAttemptsReset => true
  | .spkFinalClear by_ => Sender.wf by_
  | .spkThermalEnter _ => true
  | .spkThermalExit _ => true
  | .silSleep o => decide (o < 2)
  | .silWake o => decide (o < 2)
  | .ringSampleWrite _ _ => true
  | .ringCntCapture by_ => Sender.wf by_
  | .fetchGo by_ _ => Sender.wf by_
  | .fetchComplete => true
  | .pcieLinkDown kind => decide (kind < 4)
  | .pcieLinkUp speed => decide (speed < 4)
  | .flrStart f => decide (f < 17)
  | .flrComplete f => decide (f < 17)
  | .apertureAccess t o _ => decide (t < 16) && decide (o < 2 ^ 16)
  | .apertureAbort t => decide (t < 16)
  | .pfMsiTrigger by_ _ => Sender.wf by_
  | .vfMsiTrigger by_ t _ => Sender.wf by_ && decide (t < 16)
  | .bootRomStart => true
  | .bootPushGo by_ => Sender.wf by_
  | .bootImageCheck _ => true
  | .qspiCommand by_ _ => Sender.wf by_
  | .cmdDone _ => true
  | .twbAddressMatch a _ _ part => decide (a < 128) && decide (part < 4)
  | .twbWriteWord _ => true
  | .twbReadWord => true
  | .twbStop part => decide (part < 4)
  | .twStretch => true
  | .twbLingerExpire => true
  | .twWake => true
  | .twbDormantMatch a => decide (a < 128)
  | .pwrCmdRun by_ => Sender.wf by_
  | .pwrCmdIdle by_ => Sender.wf by_
  | .pwrCmdListen by_ => Sender.wf by_
  | .pwrCmdDormant by_ => Sender.wf by_
  | .pwrKeyWrite by_ _ => Sender.wf by_
  | .pwrReqRun by_ => Sender.wf by_
  | .idleEntry => true
  | .idleExit => true
  | .listenEntry => true
  | .listenExit => true
  | .dormantEntry => true
  | .dormantWake => true
  | .wakePinRequest _ => true
  | .powerOnReset _ => true
  | .resetNReset _ _ => true
  | .supplyReset _ => true
  | .softwareReset => true
  | .fuseLoad => true
  | .gpioOutWrite by_ _ => Sender.wf by_
  | .gpioEdge k _ => decide (k < 6)
  | .wdtStart by_ => Sender.wf by_
  | .wdtEarly => true
  | .wdtServiceWrite by_ _ _ => Sender.wf by_
  | .wdtExpiry => true
  | .watchdogReset => true
  | .fuseProgGo by_ => Sender.wf by_
  | .progDone => true
  | .lcAdvanceCmd by_ _ => Sender.wf by_
  | .retireEraseDone => true
  | .fuseBlow => true
  | .lcAdvance => true
  | .derive => true
  | .extest _ => true
  | .samplePreload _ _ => true
  | .idcode => true
  | .clamp => true
  | .highz => true
  | .bypass => true
  | .wakereq => true
  | .dpacc op a _ => decide (op < 4) && decide (a < 2 ^ 32)
  | .testLogicReset => true
  | .dbgRequest _ => true
  | .dbgAuthSubmit => true
  | .dbgChallengeExpire => true
  | .dbgClose => true
  | .dbgHalt m => decide (m < 2 ^ 17)
  | .dbgResume m => decide (m < 2 ^ 17)
  | .dbgStep m => decide (m < 2 ^ 17)
  | .debugReset => true
  | .assayScrub => true
  | .trackEntryExpire => true
  | .quarLifted by_ addr => Sender.wf by_ && decide (addr < 2 ^ 32)
  | .avsMeasurement _ _ => true
  | .thermalReading _ _ _ _ => true
  | .thermStop => true
  | .levelDwellStep => true
  | .registerRead by_ a => Sender.wf by_ && decide (a < 2 ^ 32)
  | .storeAccepted c _ => decide (c < 17)
  | .samplePeriod _ => true
  | .svlFrameError _ => true
  | .reclaimAckTimeout => true
  | .hpLimit sides => decide (sides < 4)
  | .cueSuppliesAbsent _ _ => true
  | .dbgWaitEnd => true
  | .vfEnable _ num _ => decide (num < 17)
  | .msixUnmask f _ => decide (f < 17)

end Sys2Proof
end

