-- ==== Sys2Proof/Decode.lean ====
section
/-!
DEFINITION. Words that spell commands. The table of operations and events gives no row any bits,
so no word of its numbering spells a command. What the manual does encode are the instructions of
the Isalorin cores (R194 to R262): `isaDecode` reads one of their words, and `isaEncode` writes it.
-/
namespace Sys2Proof

/-- The command that a word spells by the table's bits: its rows give none. -/
def decodeTableWord (_nbits _w : Nat) : Option Instr := none

/-! ### Isalorin instruction words -/

/-- `width` bits of word `w` from bit `lo`. -/
def isaFld (w lo width : Nat) : Nat := w / 2 ^ lo % 2 ^ width

def isaBit (w i : Nat) : Bool := decide (w / 2 ^ i % 2 = 1)

/-- Loads and stores of format L (R225): the address, and whether a zero field is not zero. -/
def isaLs (w : Nat) : LsAddr × Bool :=
  if isaBit w 17 then (.base (isaFld w 12 5) (isaFld w 0 12), false)
  else (.ptr (isaFld w 14 3) (isaBit w 13), isaFld w 0 13 != 0)

/-- The KIND of MTP and MFP (R230). -/
def isaKind : Nat → PKind
  | 0 => .p | 1 => .b | 2 => .l | _ => .m

/-- Format R of major 0x00 (R199). -/
def isaAlu (i : Issue) (fn rd ra rb : Nat) : Option Instr :=
  match fn with
  | 0x00 => some (.add i rd ra rb) | 0x01 => some (.sub i rd ra rb)
  | 0x02 => some (.adds i rd ra rb) | 0x03 => some (.subs i rd ra rb)
  | 0x04 => some (.and i rd ra rb) | 0x05 => some (.or i rd ra rb)
  | 0x06 => some (.xor i rd ra rb) | 0x07 => some (.andn i rd ra rb)
  | 0x08 => some (.shl i rd ra rb) | 0x09 => some (.shr i rd ra rb)
  | 0x0A => some (.sra i rd ra rb) | 0x0B => some (.min i rd ra rb)
  | 0x0C => some (.max i rd ra rb) | 0x0D => some (.minu i rd ra rb)
  | 0x0E => some (.maxu i rd ra rb) | 0x0F => some (.peak i rd ra rb)
  | _ => none

/-- Format U of major 0x01 (R201). -/
def isaUnary (i : Issue) (fn rd ra : Nat) : Option Instr :=
  match fn with
  | 0x00 => some (.mov i rd ra) | 0x01 => some (.neg i rd ra) | 0x02 => some (.not i rd ra)
  | 0x03 => some (.abs i rd ra) | 0x04 => some (.clz i rd ra) | 0x05 => some (.cls i rd ra)
  | 0x06 => some (.log2 i rd ra) | 0x07 => some (.exp2 i rd ra) | 0x08 => some (.exp2g i rd ra)
  | _ => none

/-- The accumulator operations of major 0x14 (R212). -/
def isaAcc (f : Bool → Issue) (w : Nat) : Option Instr :=
  let an := isaFld w 20 3
  let am := isaFld w 17 3
  let ga := isaFld w 12 5
  let k := isaFld w 8 4
  match isaFld w 0 8 with
  | 0x00 => some (.aclr (f (am + ga + k != 0)) an)
  | 0x01 => some (.amov (f (ga + k != 0)) an am)
  | 0x02 => some (.ald (f (am + k != 0)) an ga)
  | 0x03 => some (.aadd (f (ga + k != 0)) an am)
  | 0x04 => some (.asub (f (ga + k != 0)) an am)
  | 0x05 => some (.ashl (f (am + ga != 0)) an k)
  | 0x06 => some (.asra (f (am + ga != 0)) an k)
  | 0x07 => some (.aneg (f (am + ga + k != 0)) an)
  | _ => none

/-- Predicate operations of major 0x24 (R244). -/
def isaPred (f : Bool → Issue) (w : Nat) : Option Instr :=
  let qd := isaFld w 21 2
  let qa := isaFld w 19 2
  let qb := isaFld w 16 2
  let fc := isaFld w 8 4
  let z := isaFld w 0 8 != 0
  match isaFld w 12 3 with
  | 0 => some (.predAnd (f (z || fc != 0)) qd qa (isaBit w 18) qb (isaBit w 15))
  | 1 => some (.predOr (f (z || fc != 0)) qd qa (isaBit w 18) qb (isaBit w 15))
  | 2 => some (.predXor (f (z || fc != 0)) qd qa (isaBit w 18) qb (isaBit w 15))
  | 3 => some (.pflag (f (z || isaFld w 15 6 != 0 || decide (10 ≤ fc))) qd fc)
  | _ => none

/-- The system class, major 0x29 (R247). -/
def isaSys (f : Bool → Issue) (w : Nat) : Option Instr :=
  let g := isaFld w 18 5
  let k := isaFld w 8 10
  match isaFld w 0 8 with
  | 0x00 => some (.lock (f (g + k != 0)))
  | 0x01 => some (.unlock (f (g + k != 0)))
  | 0x02 => some (.fence (f (g + k != 0)))
  | 0x03 => some (.gap (f (g != 0 || decide (32 ≤ k))) (k % 32))
  | 0x04 => some (.wft (f (g + k != 0)))
  | 0x05 => some (.split (f (k != 0)) g)
  | 0x06 => some (.trap (f (g != 0)) k)
  | 0x07 => some (.brk (f (g + k != 0)))
  | 0x08 => some (.rte (f (g + k != 0)))
  | _ => none

/-- Task operations, major 0x2A (R253). Where no rule makes a field zero its bits are not read
(R196; DEDUCED, log entry 12). -/
def isaTask (f : Bool → Issue) (w : Nat) : Option Instr :=
  let ga := isaFld w 18 5
  let k := isaFld w 8 10
  match isaFld w 0 8 with
  | 0x00 => some (.tready (f false) ga)
  | 0x01 => some (.tcancel (f false) ga)
  | 0x02 => some (.tyield (f (ga != 0)))
  | 0x03 => some (.tdone (f (ga != 0 || decide (256 ≤ k))) (k % 256))
  | _ => none

/-- LOOP and LOOPS, major 0x23 (R241). -/
def isaLoop (f : Bool → Issue) (w : Nat) : Option Instr :=
  let e := isaFld w 12 9
  match isaFld w 21 2 with
  | 0 => some (.loop (f (isaFld w 0 7 != 0)) (.reg (isaFld w 7 5)) e)
  | 1 => some (.loop (f false) (.imm (isaFld w 0 12)) e)
  | 2 => some (.loops (f (isaFld w 0 21 != 0)))
  | _ => none

/-- Pointer operations, major 0x1E (R230). -/
def isaPtr (f : Bool → Issue) (w : Nat) : Option Instr :=
  let z := isaFld w 0 11 != 0
  match isaFld w 21 2 with
  | 0 => some (.mtp (f z) (isaKind (isaFld w 11 2)) (isaFld w 13 3) (isaFld w 16 5))
  | 1 => some (.mfp (f z) (isaKind (isaFld w 11 2)) (isaFld w 13 3) (isaFld w 16 5))
  | 2 => some (.pstep (f (isaFld w 12 6 != 0)) (isaFld w 18 3) (isaFld w 0 12))
  | _ => none

/-- The immediate shifts, major 0x06 (R202). -/
def isaShift (f : Bool → Issue) (w : Nat) : Option Instr :=
  let rd := isaFld w 18 5
  let ra := isaFld w 13 5
  let i := f (isaFld w 7 6 != 0)
  match isaFld w 5 2 with
  | 0 => some (.shli i rd ra (isaFld w 0 5))
  | 1 => some (.shri i rd ra (isaFld w 0 5))
  | 2 => some (.srai i rd ra (isaFld w 0 5))
  | _ => none

/-- The MAC classes, majors 0x10 to 0x12 (R210); FMT 5 to 7 are reserved (R209). -/
def isaMac (f : Bool → Issue) (maj w : Nat) : Option Instr :=
  let fmt := isaFld w 7 3
  let i := f (isaFld w 0 5 != 0 || decide (5 ≤ fmt))
  let an := isaFld w 20 3
  let ga := isaFld w 15 5
  let gb := isaFld w 10 5
  match maj with
  | 0x10 => some (if isaBit w 6 then .msu i fmt an ga gb (isaBit w 5) else .mac i fmt an ga gb (isaBit w 5))
  | 0x11 => some (.dot2 i fmt an ga gb (isaBit w 6) (isaBit w 5))
  | _ => some (.macp i fmt an ga gb (isaBit w 6) (isaBit w 5))

/-- The command that word `w`, issued on core `core`, spells: its predicate, and whether a zero
field is not zero or a code is reserved (R194 to R198). Bits [7:0] of CMP, which no rule makes
zero, are not read (DEDUCED, log entry 12). A word whose major opcode or function
code is reserved spells none; the core traps ILLEGAL at it (R196). -/
def isaDecode (core w : Nat) : Option Instr :=
  let f (bad : Bool) : Issue := { core := core, q := isaFld w 23 2, inv := isaBit w 25, bad := bad }
  let rd := isaFld w 18 5
  let ra := isaFld w 13 5
  let rb := isaFld w 8 5
  let imm := isaFld w 0 12
  let z12 := isaBit w 12
  match isaFld w 26 6 with
  | 0x00 => isaAlu (f false) (isaFld w 0 8) rd ra rb
  | 0x01 => isaUnary (f (rb != 0)) (isaFld w 0 8) rd ra
  | 0x02 => some (.addi (f z12) rd ra imm)
  | 0x03 => some (.andi (f z12) rd ra imm)
  | 0x04 => some (.ori (f z12) rd ra imm)
  | 0x05 => some (.xori (f z12) rd ra imm)
  | 0x06 => isaShift f w
  | 0x07 => some (.cmp (f false) (isaFld w 21 2) (isaFld w 18 3) ra rb)
  | 0x08 => some (.cmpi (f z12) (isaFld w 21 2) (isaFld w 18 3) ra imm)
  | 0x09 => some (.movi (f (z12 || ra != 0)) rd imm)
  | 0x0A => match isaFld w 0 8 with
    | 0x00 => some (.divs (f (ra != 0)) rd rb)
    | 0x01 => some (.sqrs (f (ra + rb != 0)) rd)
    | _ => none
  | 0x10 => isaMac f 0x10 w
  | 0x11 => isaMac f 0x11 w
  | 0x12 => isaMac f 0x12 w
  | 0x13 => some (.bq (f (isaFld w 0 7 != 0)) (isaFld w 20 3) (isaFld w 15 5) (isaFld w 10 5) (isaFld w 7 3))
  | 0x14 => isaAcc f w
  | 0x15 => some (.rda (f (isaFld w 0 5 != 0 || isaFld w 7 2 == 3 || isaFld w 5 2 == 3)) rd
      (isaFld w 15 3) (isaFld w 9 6) (isaFld w 7 2) (isaFld w 5 2))
  | 0x18 => some (.ldw (f (isaLs w).2) rd (isaLs w).1)
  | 0x19 => some (.ldd (f (isaLs w).2) rd (isaLs w).1)
  | 0x1A => some (.ld2 (f (isaFld w 0 4 != 0)) rd ra (isaFld w 10 3) (isaBit w 9) (isaFld w 6 3) (isaBit w 5) (isaBit w 4))
  | 0x1B => some (.stw (f (isaLs w).2) rd (isaLs w).1)
  | 0x1C => some (.sta (f (isaFld w 0 5 != 0 || isaBit w 15 || isaFld w 7 2 == 3 || isaFld w 5 2 == 3))
      (isaFld w 20 3) (isaFld w 17 3) (isaBit w 16) (isaFld w 9 6) (isaFld w 7 2) (isaFld w 5 2))
  | 0x1D => some (.std (f (isaLs w).2) rd (isaLs w).1)
  | 0x1E => isaPtr f w
  | 0x1F => match isaFld w 0 8 with
    | 0x00 => some (.ldl (f (rb != 0)) rd ra)
    | 0x01 => some (.stc (f false) rd rb ra)
    | _ => none
  | 0x20 => some (.br (f false) (isaFld w 0 23))
  | 0x21 => some (.brl (f false) (isaFld w 0 23))
  | 0x22 => some (.jr (f (isaFld w 0 13 != 0)) rd ra)
  | 0x23 => isaLoop f w
  | 0x24 => isaPred f w
  | 0x28 => some (if isaBit w 12 then .mts (f (imm != 0)) rd ra else .mfs (f (imm != 0)) rd ra)
  | 0x29 => isaSys f w
  | 0x2A => isaTask f w
  | 0x2B => some (.ext { core := core, bad := isaFld w 20 6 != 0 } (isaFld w 0 20))
  | 0x2C => some (.waiti (f (isaFld w 0 23 != 0)))
  | 0x2D => some (.ieset (f (isaFld w 1 17 != 0)) rd (isaBit w 0))
  | 0x2E => some (.moncall (f (isaFld w 12 11 != 0)) imm)
  | 0x2F => some (.isync (f (isaFld w 0 23 != 0)))
  | _ => none

/-! ### Writing them -/

def isaB (b : Bool) : Nat := if b then 1 else 0

/-- A word of major `maj` issued as `i`, with operand fields `x` in bits [22:0]. -/
def isaWord (maj : Nat) (i : Issue) (x : Nat) : Nat :=
  maj * 2 ^ 26 + isaB i.inv * 2 ^ 25 + i.q * 2 ^ 23 + x

def isaR (rd ra rb fn : Nat) : Nat := rd * 2 ^ 18 + ra * 2 ^ 13 + rb * 2 ^ 8 + fn
def isaI (rd ra imm : Nat) : Nat := rd * 2 ^ 18 + ra * 2 ^ 13 + imm
def isaM (fmt an ga gb : Nat) (sub clr : Bool) : Nat :=
  an * 2 ^ 20 + ga * 2 ^ 15 + gb * 2 ^ 10 + fmt * 2 ^ 7 + isaB sub * 2 ^ 6 + isaB clr * 2 ^ 5

def isaL (g : Nat) : LsAddr → Nat
  | .ptr n pm => g * 2 ^ 18 + n * 2 ^ 14 + isaB pm * 2 ^ 13
  | .base ga imm => g * 2 ^ 18 + 2 ^ 17 + ga * 2 ^ 12 + imm

def isaKindCode : PKind → Nat
  | .p => 0 | .b => 1 | .l => 2 | .m => 3

def isaAccW (an am ga k fn : Nat) : Nat := an * 2 ^ 20 + am * 2 ^ 17 + ga * 2 ^ 12 + k * 2 ^ 8 + fn
def isaPredW (qd qa : Nat) (ia : Bool) (qb : Nat) (ib : Bool) (op fc : Nat) : Nat :=
  qd * 2 ^ 21 + qa * 2 ^ 19 + isaB ia * 2 ^ 18 + qb * 2 ^ 16 + isaB ib * 2 ^ 15 + op * 2 ^ 12 + fc * 2 ^ 8
def isaSysW (g k fn : Nat) : Nat := g * 2 ^ 18 + k * 2 ^ 8 + fn

/-- The word of a core instruction, for those the manual encodes: its operands in range and no
reserved field set. -/
def isaEncode : Instr → Option Nat
  | .add i rd ra rb => some (isaWord 0x00 i (isaR rd ra rb 0x00))
  | .sub i rd ra rb => some (isaWord 0x00 i (isaR rd ra rb 0x01))
  | .adds i rd ra rb => some (isaWord 0x00 i (isaR rd ra rb 0x02))
  | .subs i rd ra rb => some (isaWord 0x00 i (isaR rd ra rb 0x03))
  | .and i rd ra rb => some (isaWord 0x00 i (isaR rd ra rb 0x04))
  | .or i rd ra rb => some (isaWord 0x00 i (isaR rd ra rb 0x05))
  | .xor i rd ra rb => some (isaWord 0x00 i (isaR rd ra rb 0x06))
  | .andn i rd ra rb => some (isaWord 0x00 i (isaR rd ra rb 0x07))
  | .shl i rd ra rb => some (isaWord 0x00 i (isaR rd ra rb 0x08))
  | .shr i rd ra rb => some (isaWord 0x00 i (isaR rd ra rb 0x09))
  | .sra i rd ra rb => some (isaWord 0x00 i (isaR rd ra rb 0x0A))
  | .min i rd ra rb => some (isaWord 0x00 i (isaR rd ra rb 0x0B))
  | .max i rd ra rb => some (isaWord 0x00 i (isaR rd ra rb 0x0C))
  | .minu i rd ra rb => some (isaWord 0x00 i (isaR rd ra rb 0x0D))
  | .maxu i rd ra rb => some (isaWord 0x00 i (isaR rd ra rb 0x0E))
  | .peak i rd ra rb => some (isaWord 0x00 i (isaR rd ra rb 0x0F))
  | .mov i rd ra => some (isaWord 0x01 i (isaR rd ra 0 0x00))
  | .neg i rd ra => some (isaWord 0x01 i (isaR rd ra 0 0x01))
  | .not i rd ra => some (isaWord 0x01 i (isaR rd ra 0 0x02))
  | .abs i rd ra => some (isaWord 0x01 i (isaR rd ra 0 0x03))
  | .clz i rd ra => some (isaWord 0x01 i (isaR rd ra 0 0x04))
  | .cls i rd ra => some (isaWord 0x01 i (isaR rd ra 0 0x05))
  | .log2 i rd ra => some (isaWord 0x01 i (isaR rd ra 0 0x06))
  | .exp2 i rd ra => some (isaWord 0x01 i (isaR rd ra 0 0x07))
  | .exp2g i rd ra => some (isaWord 0x01 i (isaR rd ra 0 0x08))
  | .addi i rd ra imm => some (isaWord 0x02 i (isaI rd ra imm))
  | .andi i rd ra imm => some (isaWord 0x03 i (isaI rd ra imm))
  | .ori i rd ra imm => some (isaWord 0x04 i (isaI rd ra imm))
  | .xori i rd ra imm => some (isaWord 0x05 i (isaI rd ra imm))
  | .shli i rd ra k => some (isaWord 0x06 i (isaI rd ra k))
  | .shri i rd ra k => some (isaWord 0x06 i (isaI rd ra (32 + k)))
  | .srai i rd ra k => some (isaWord 0x06 i (isaI rd ra (64 + k)))
  | .movi i rd imm => some (isaWord 0x09 i (isaI rd 0 imm))
  | .cmp i qd cond ra rb => some (isaWord 0x07 i (qd * 2 ^ 21 + isaR cond ra rb 0))
  | .cmpi i qd cond ra imm => some (isaWord 0x08 i (qd * 2 ^ 21 + isaI cond ra imm))
  | .divs i rd rb => some (isaWord 0x0A i (isaR rd 0 rb 0x00))
  | .sqrs i rd => some (isaWord 0x0A i (isaR rd 0 0 0x01))
  | .mac i fmt an ga gb clr => some (isaWord 0x10 i (isaM fmt an ga gb false clr))
  | .msu i fmt an ga gb clr => some (isaWord 0x10 i (isaM fmt an ga gb true clr))
  | .dot2 i fmt an ga gb sub clr => some (isaWord 0x11 i (isaM fmt an ga gb sub clr))
  | .macp i fmt an ga gb sub clr => some (isaWord 0x12 i (isaM fmt an ga gb sub clr))
  | .bq i an gx gc pp => some (isaWord 0x13 i (an * 2 ^ 20 + gx * 2 ^ 15 + gc * 2 ^ 10 + pp * 2 ^ 7))
  | .aclr i an => some (isaWord 0x14 i (isaAccW an 0 0 0 0x00))
  | .amov i an am => some (isaWord 0x14 i (isaAccW an am 0 0 0x01))
  | .ald i an ga => some (isaWord 0x14 i (isaAccW an 0 ga 0 0x02))
  | .aadd i an am => some (isaWord 0x14 i (isaAccW an am 0 0 0x03))
  | .asub i an am => some (isaWord 0x14 i (isaAccW an am 0 0 0x04))
  | .ashl i an k => some (isaWord 0x14 i (isaAccW an 0 0 k 0x05))
  | .asra i an k => some (isaWord 0x14 i (isaAccW an 0 0 k 0x06))
  | .aneg i an => some (isaWord 0x14 i (isaAccW an 0 0 0 0x07))
  | .rda i gd an sh rm sm =>
    some (isaWord 0x15 i (gd * 2 ^ 18 + an * 2 ^ 15 + sh * 2 ^ 9 + rm * 2 ^ 7 + sm * 2 ^ 5))
  | .sta i an pn pm sh rm sm =>
    some (isaWord 0x1C i (an * 2 ^ 20 + pn * 2 ^ 17 + isaB pm * 2 ^ 16 + sh * 2 ^ 9 + rm * 2 ^ 7 + sm * 2 ^ 5))
  | .ext i x20 => if i.q = 0 ∧ i.inv = false then some (isaWord 0x2B i x20) else none
  | .ldw i g ad => some (isaWord 0x18 i (isaL g ad))
  | .ldd i g ad => some (isaWord 0x19 i (isaL g ad))
  | .stw i g ad => some (isaWord 0x1B i (isaL g ad))
  | .std i g ad => some (isaWord 0x1D i (isaL g ad))
  | .ld2 i gd ge pn pmn pm pmm wide =>
    some (isaWord 0x1A i (gd * 2 ^ 18 + ge * 2 ^ 13 + pn * 2 ^ 10 + isaB pmn * 2 ^ 9 + pm * 2 ^ 6
      + isaB pmm * 2 ^ 5 + isaB wide * 2 ^ 4))
  | .mtp i k n g => some (isaWord 0x1E i (g * 2 ^ 16 + n * 2 ^ 13 + isaKindCode k * 2 ^ 11))
  | .mfp i k n g => some (isaWord 0x1E i (2 ^ 21 + g * 2 ^ 16 + n * 2 ^ 13 + isaKindCode k * 2 ^ 11))
  | .pstep i n imm => some (isaWord 0x1E i (2 * 2 ^ 21 + n * 2 ^ 18 + imm))
  | .ldl i gd ga => some (isaWord 0x1F i (isaR gd ga 0 0x00))
  | .stc i gd gs ga => some (isaWord 0x1F i (isaR gd ga gs 0x01))
  | .br i off => some (isaWord 0x20 i off)
  | .brl i off => some (isaWord 0x21 i off)
  | .jr i gd ga => some (isaWord 0x22 i (isaR gd ga 0 0))
  | .loop i (.reg ga) body => some (isaWord 0x23 i (body * 2 ^ 12 + ga * 2 ^ 7))
  | .loop i (.imm n) body => some (isaWord 0x23 i (2 ^ 21 + body * 2 ^ 12 + n))
  | .loops i => some (isaWord 0x23 i (2 * 2 ^ 21))
  | .predAnd i qd qa ia qb ib => some (isaWord 0x24 i (isaPredW qd qa ia qb ib 0 0))
  | .predOr i qd qa ia qb ib => some (isaWord 0x24 i (isaPredW qd qa ia qb ib 1 0))
  | .predXor i qd qa ia qb ib => some (isaWord 0x24 i (isaPredW qd qa ia qb ib 2 0))
  | .pflag i qd fc => some (isaWord 0x24 i (isaPredW qd 0 false 0 false 3 fc))
  | .mfs i g sr => some (isaWord 0x28 i (isaR g sr 0 0))
  | .mts i g sr => some (isaWord 0x28 i (isaR g sr 16 0))
  | .lock i => some (isaWord 0x29 i (isaSysW 0 0 0x00))
  | .unlock i => some (isaWord 0x29 i (isaSysW 0 0 0x01))
  | .fence i => some (isaWord 0x29 i (isaSysW 0 0 0x02))
  | .gap i k => some (isaWord 0x29 i (isaSysW 0 k 0x03))
  | .wft i => some (isaWord 0x29 i (isaSysW 0 0 0x04))
  | .split i g => some (isaWord 0x29 i (isaSysW g 0 0x05))
  | .trap i code => some (isaWord 0x29 i (isaSysW 0 code 0x06))
  | .brk i => some (isaWord 0x29 i (isaSysW 0 0 0x07))
  | .rte i => some (isaWord 0x29 i (isaSysW 0 0 0x08))
  | .tready i ga => some (isaWord 0x2A i (isaSysW ga 0 0x00))
  | .tcancel i ga => some (isaWord 0x2A i (isaSysW ga 0 0x01))
  | .tyield i => some (isaWord 0x2A i (isaSysW 0 0 0x02))
  | .tdone i status => some (isaWord 0x2A i (isaSysW 0 status 0x03))
  | .waiti i => some (isaWord 0x2C i 0)
  | .ieset i gd b => some (isaWord 0x2D i (gd * 2 ^ 18 + isaB b))
  | .moncall i service => some (isaWord 0x2E i service)
  | .isync i => some (isaWord 0x2F i 0)
  | _ => none

/-- How a core instruction issues. -/
def Instr.issueOf : Instr → Option Issue
  | .add i _ _ _ => some i
  | .sub i _ _ _ => some i
  | .adds i _ _ _ => some i
  | .subs i _ _ _ => some i
  | .and i _ _ _ => some i
  | .or i _ _ _ => some i
  | .xor i _ _ _ => some i
  | .andn i _ _ _ => some i
  | .shl i _ _ _ => some i
  | .shr i _ _ _ => some i
  | .sra i _ _ _ => some i
  | .min i _ _ _ => some i
  | .max i _ _ _ => some i
  | .minu i _ _ _ => some i
  | .maxu i _ _ _ => some i
  | .peak i _ _ _ => some i
  | .mov i _ _ => some i
  | .neg i _ _ => some i
  | .not i _ _ => some i
  | .abs i _ _ => some i
  | .clz i _ _ => some i
  | .cls i _ _ => some i
  | .log2 i _ _ => some i
  | .exp2 i _ _ => some i
  | .exp2g i _ _ => some i
  | .addi i _ _ _ => some i
  | .andi i _ _ _ => some i
  | .ori i _ _ _ => some i
  | .xori i _ _ _ => some i
  | .shli i _ _ _ => some i
  | .shri i _ _ _ => some i
  | .srai i _ _ _ => some i
  | .movi i _ _ => some i
  | .cmp i _ _ _ _ => some i
  | .cmpi i _ _ _ _ => some i
  | .divs i _ _ => some i
  | .sqrs i _ => some i
  | .mac i _ _ _ _ _ => some i
  | .msu i _ _ _ _ _ => some i
  | .dot2 i _ _ _ _ _ _ => some i
  | .macp i _ _ _ _ _ _ => some i
  | .bq i _ _ _ _ => some i
  | .aclr i _ => some i
  | .amov i _ _ => some i
  | .ald i _ _ => some i
  | .aadd i _ _ => some i
  | .asub i _ _ => some i
  | .ashl i _ _ => some i
  | .asra i _ _ => some i
  | .aneg i _ => some i
  | .rda i _ _ _ _ _ => some i
  | .sta i _ _ _ _ _ _ => some i
  | .ext i _ => some i
  | .ldw i _ _ => some i
  | .ldd i _ _ => some i
  | .stw i _ _ => some i
  | .std i _ _ => some i
  | .ld2 i _ _ _ _ _ _ _ => some i
  | .mtp i _ _ _ => some i
  | .mfp i _ _ _ => some i
  | .pstep i _ _ => some i
  | .ldl i _ _ => some i
  | .stc i _ _ _ => some i
  | .br i _ => some i
  | .brl i _ => some i
  | .jr i _ _ => some i
  | .loop i _ _ => some i
  | .loops i => some i
  | .predAnd i _ _ _ _ _ => some i
  | .predOr i _ _ _ _ _ => some i
  | .predXor i _ _ _ _ _ => some i
  | .pflag i _ _ => some i
  | .mfs i _ _ => some i
  | .mts i _ _ => some i
  | .lock i => some i
  | .unlock i => some i
  | .fence i => some i
  | .gap i _ => some i
  | .wft i => some i
  | .split i _ => some i
  | .trap i _ => some i
  | .brk i => some i
  | .rte i => some i
  | .tready i _ => some i
  | .tcancel i _ => some i
  | .tyield i => some i
  | .tdone i _ => some i
  | .waiti i => some i
  | .ieset i _ _ => some i
  | .moncall i _ => some i
  | .isync i => some i
  | _ => none

end Sys2Proof
end

