-- ==== Sys2Proof/Config.lean ====
section
/-!
DEFINITION. What the manual leaves open, as constants without a body: nothing in
Lean can evaluate one or prove a value of one, so a claim that holds of the
model holds whatever they are. The log names each.
-/
namespace Sys2Proof

/-- The value of the n-th open value the machine has met (free value). -/
opaque Config.freeWord : Nat → Word

/-- The source frequency, in ppt, that the tracking loop of REF answers: a function
of REF_CTRL.BW, its last frequency and the phase error. The manual gives the loop's
bandwidth and peaking only (R92). -/
opaque Config.trackLoop : Nat → Int → Int → Int

/-- Which of the two codes next to the test tone's exact value the tone carries, by
sample rate, frequency, level and sample (R380 states the sine only). -/
opaque Config.toneRound : Nat → Nat → Nat → Nat → Bool

/-- One step of the K-weighting filter of ITU-R BS.1770 (R401, which names the filter
and not its arithmetic): the 96 kHz flag, the filter's state and the sample give the
next state and the square of the weighted sample in units of 2^-62. -/
opaque Config.kStep : Bool → List Int → Int → List Int × Nat


/-- Whether a loudness value not exact in u4.28 is the upper of its two neighbours, by
meter and interval (R401 states no rounding). -/
opaque Config.loudRound : Nat → Nat → Bool

/-- HMAC-SHA-256 of FIPS 198-1 and FIPS 180-4, which the manual names and does not define
(R642, R649): key bytes and message bytes give the eight words of the code, byte 0 in bits
[7:0] of word 0. -/
opaque Config.hmacSha256 : List Byte → List Byte → List Word

/-- CC_MON_VBASE.VBASE as the boot ROM leaves it, the base of its own service vectors (R644
gives no address). -/
opaque Config.romVectors : Nat

/-- Word `i` of the boot ROM (R32), whose contents the manual does not give. -/
opaque Config.romWord : Nat → Word

/-- SHA-256 of FIPS 180-4, ECDSA P-256 verification and AES-256-GCM decryption, which the
manual names and does not define (R586, R587): bytes to the 32 bytes of the hash; public key,
signature and hash to the verdict; key, nonce, additional data, ciphertext and tag to the
plaintext when the tag matches. -/
opaque Config.sha256 : List Byte → List Byte
opaque Config.ecdsaP256 : List Byte → List Byte → List Byte → Bool
opaque Config.aesGcm : List Byte → List Byte → List Byte → List Byte → List Byte → Option (List Byte)

end Sys2Proof
end

