-- ==== Sys2Proof/Machine/RegMap.lean ====
section
/-!
DEFINITION. The register map: every register the manual's register tables give,
with its address, its index ranges, its fields, their access types (R8) and
their reset values. Unlisted bits are reserved and read as zero (R6). A field
whose reset value is a fuse has 0 here and is set by the fuse load (R7).
-/
namespace Sys2Proof.Machine

/-- The access types of R8. -/
inductive Acc where
  | rw | ro | wo | w1c | rc | key | cp
  deriving DecidableEq, Repr

/-- One field: lowest bit, width, access type, reset value of index 0, and what
the reset value grows by with each index (the range registers). -/
structure RegField where
  lo    : Nat
  width : Nat
  acc   : Acc
  reset : Nat
  step  : Nat
  deriving DecidableEq, Repr

/-- One register or register array: the address of index 0, the (count, stride)
of each index, whether it is complement-paired (R10), and its fields. -/
structure RegRow where
  base   : Nat
  dims   : List (Nat × Nat)
  cp     : Bool
  fields : List RegField
  deriving DecidableEq, Repr

/-- The reset value of SUMX_LIM_ALPHA: the release coefficient at 100 ms of
R399, computed by its formula (the log entry names the rounding). -/
def sumxAlphaReset : Nat := 223673

/-- The SYS registers (R43). -/
def sysRows : List RegRow := [
  ⟨0x40000000, [], false, [⟨16, 16, .ro, 38422, 0⟩, ⟨0, 8, .ro, 66, 0⟩]⟩ /- SYS_ID -/,
  ⟨0x40000004, [], false, [⟨0, 32, .wo, 0, 0⟩]⟩ /- SYS_KEY -/,
  ⟨0x40000008, [], false, [⟨0, 1, .key, 0, 0⟩]⟩ /- SYS_RESET -/,
  ⟨0x40000010, [], false, [⟨0, 3, .rw, 4, 0⟩, ⟨4, 1, .rw, 0, 0⟩, ⟨8, 1, .rw, 0, 0⟩, ⟨16, 1, .ro, 1, 0⟩]⟩ /- TICK_CFG -/,
  ⟨0x40000018, [], false, [⟨0, 32, .ro, 0, 0⟩]⟩ /- SYS_ESC_LO -/,
  ⟨0x4000001C, [], false, [⟨0, 32, .ro, 0, 0⟩]⟩ /- SYS_ESC_HI -/,
  ⟨0x40000030, [], false, [⟨12, 20, .rw, 0, 0⟩]⟩ /- SYS_EVR_BASE -/,
  ⟨0x40000034, [], false, [⟨0, 5, .rw, 0, 0⟩]⟩ /- SYS_EVR_LEN -/,
  ⟨0x40000038, [], false, [⟨0, 15, .ro, 0, 0⟩]⟩ /- SYS_EVR_WR -/,
  ⟨0x4000003C, [], false, [⟨0, 15, .rw, 0, 0⟩]⟩ /- SYS_EVR_RD -/,
  ⟨0x40000040, [], false, [⟨0, 32, .rc, 0, 0⟩]⟩ /- SYS_EVR_DROP -/,
  ⟨0x40000044, [], false, [⟨0, 1, .w1c, 0, 0⟩, ⟨1, 1, .w1c, 0, 0⟩, ⟨2, 1, .w1c, 0, 0⟩, ⟨3, 1, .w1c, 0, 0⟩, ⟨4, 1, .w1c, 0, 0⟩, ⟨5, 1, .w1c, 0, 0⟩]⟩ /- SYS_EVT_STATUS -/]

/-- The CLK registers (R78). -/
def clkRows : List RegRow := [
  ⟨0x40010000, [], false, [⟨0, 3, .ro, 0, 0⟩, ⟨3, 1, .ro, 0, 0⟩, ⟨4, 1, .ro, 0, 0⟩, ⟨5, 1, .ro, 0, 0⟩, ⟨6, 1, .ro, 0, 0⟩, ⟨7, 1, .ro, 0, 0⟩, ⟨8, 1, .ro, 0, 0⟩, ⟨16, 5, .ro, 0, 0⟩]⟩ /- CLK_STATUS -/,
  ⟨0x40010004, [], false, [⟨0, 1, .rw, 0, 0⟩]⟩ /- CLK_CTRL -/,
  ⟨0x40010010, [], true, [⟨0, 1, .ro, 0, 0⟩, ⟨1, 1, .cp, 0, 0⟩]⟩ /- CLK_SEL -/,
  ⟨0x40010018, [], false, [⟨0, 32, .ro, 0, 0⟩]⟩ /- CLK_CUR_LO -/,
  ⟨0x4001001C, [], false, [⟨0, 8, .ro, 0, 0⟩, ⟨8, 7, .ro, 100, 0⟩]⟩ /- CLK_CUR_HI -/,
  ⟨0x40010020, [], false, [⟨0, 32, .rw, 0, 0⟩]⟩ /- CLK_TGT_LO -/,
  ⟨0x40010028, [], true, [⟨0, 8, .cp, 0, 0⟩, ⟨8, 7, .cp, 100, 0⟩]⟩ /- CLK_TGT -/,
  ⟨0x40010030, [], false, [⟨0, 16, .rw, 0, 0⟩, ⟨16, 1, .rw, 0, 0⟩, ⟨17, 1, .rw, 0, 0⟩, ⟨18, 1, .rw, 0, 0⟩, ⟨19, 1, .rw, 0, 0⟩, ⟨20, 1, .rw, 0, 0⟩]⟩ /- CLK_GATE -/,
  ⟨0x40010034, [], false, [⟨0, 21, .ro, 0, 0⟩]⟩ /- CLK_GATE_STATUS -/,
  ⟨0x40010040, [], false, [⟨0, 5, .rw, 0, 0⟩, ⟨8, 1, .rw, 0, 0⟩, ⟨16, 1, .wo, 0, 0⟩, ⟨17, 1, .ro, 0, 0⟩]⟩ /- CLK_CAL_CTRL -/,
  ⟨0x40010044, [], false, [⟨0, 17, .ro, 0, 0⟩, ⟨31, 1, .ro, 0, 0⟩]⟩ /- CLK_CAL_COUNT -/,
  ⟨0x40010048, [], false, [⟨0, 24, .ro, 0, 0⟩, ⟨31, 1, .ro, 0, 0⟩]⟩ /- CLK_LPO_CAL -/,
  ⟨0x4001004C, [], false, [⟨0, 6, .rw, 32, 0⟩]⟩ /- CLK_LPO_TRIM -/,
  ⟨0x40010050, [], false, [⟨0, 16, .ro, 0, 0⟩]⟩ /- CLK_MON -/,
  ⟨0x40010054, [], false, [⟨0, 12, .w1c, 0, 0⟩]⟩ /- CLK_EVT_STATUS -/,
  ⟨0x40010100, [(32, 8)], false, [⟨0, 17, .rw, 0, 0⟩, ⟨24, 5, .rw, 0, 0⟩, ⟨31, 1, .rw, 0, 0⟩]⟩ /- CLK_BAND_LO -/,
  ⟨0x40010104, [(32, 8)], false, [⟨0, 17, .rw, 0, 0⟩]⟩ /- CLK_BAND_HI -/]

/-- The REF registers (R110). -/
def refRows : List RegRow := [
  ⟨0x40020000, [], false, [⟨0, 3, .ro, 7, 0⟩, ⟨3, 1, .ro, 1, 0⟩, ⟨4, 1, .ro, 0, 0⟩, ⟨5, 1, .ro, 0, 0⟩, ⟨6, 1, .ro, 0, 0⟩, ⟨7, 1, .ro, 0, 0⟩, ⟨8, 1, .ro, 0, 0⟩, ⟨9, 1, .ro, 0, 0⟩, ⟨16, 7, .ro, 0, 0⟩]⟩ /- REF_STATUS -/,
  ⟨0x40020008, [], true, [⟨0, 1, .cp, 1, 0⟩, ⟨1, 3, .cp, 6, 0⟩, ⟨4, 1, .cp, 0, 0⟩, ⟨5, 1, .cp, 1, 0⟩, ⟨6, 1, .cp, 0, 0⟩, ⟨8, 2, .cp, 2, 0⟩]⟩ /- REF_CTRL -/,
  ⟨0x40020010, [], true, [⟨0, 3, .cp, 0, 0⟩, ⟨3, 3, .cp, 1, 0⟩, ⟨6, 3, .cp, 2, 0⟩, ⟨9, 3, .cp, 3, 0⟩, ⟨12, 3, .cp, 4, 0⟩, ⟨15, 3, .cp, 5, 0⟩, ⟨18, 3, .cp, 7, 0⟩]⟩ /- REF_PRIO -/,
  ⟨0x40020018, [], false, [⟨0, 4, .rw, 6, 0⟩]⟩ /- REF_HOLD_CFG -/,
  ⟨0x4002001C, [], false, [⟨0, 8, .rw, 10, 0⟩]⟩ /- REF_HOLDOFF -/,
  ⟨0x40020020, [], false, [⟨0, 32, .rw, 0, 0⟩]⟩ /- REF_FREQ_PPT -/,
  ⟨0x40020024, [], false, [⟨0, 32, .wo, 0, 0⟩]⟩ /- REF_PHASE_STEP -/,
  ⟨0x40020028, [], false, [⟨0, 32, .ro, 0, 0⟩]⟩ /- REF_PHASE_PEND -/,
  ⟨0x4002002C, [], false, [⟨0, 10, .rw, 50, 0⟩]⟩ /- REF_ANNEAL -/,
  ⟨0x40020030, [], false, [⟨0, 1, .wo, 0, 0⟩]⟩ /- REF_CMD -/,
  ⟨0x40020034, [], false, [⟨0, 32, .ro, 0, 0⟩]⟩ /- REF_OUT_OFFSET -/,
  ⟨0x40020038, [], false, [⟨0, 32, .ro, 0, 0⟩]⟩ /- REF_HOLD_WORD_LO -/,
  ⟨0x4002003C, [], false, [⟨0, 8, .ro, 0, 0⟩, ⟨8, 7, .ro, 100, 0⟩]⟩ /- REF_HOLD_WORD_HI -/,
  ⟨0x40020040, [], false, [⟨0, 32, .ro, 0, 0⟩]⟩ /- REF_WORD_LO -/,
  ⟨0x40020044, [], false, [⟨0, 15, .ro, 25600, 0⟩]⟩ /- REF_WORD_HI -/,
  ⟨0x40020048, [], false, [⟨0, 3, .rw, 2, 0⟩, ⟨4, 12, .rw, 625, 0⟩, ⟨16, 1, .rw, 0, 0⟩]⟩ /- REF_VIDEO_CFG -/,
  ⟨0x4002004C, [], false, [⟨0, 3, .rw, 0, 0⟩]⟩ /- REF_VSEQ -/,
  ⟨0x40020050, [], false, [⟨0, 32, .ro, 0, 0⟩]⟩ /- REF_VSEQ_ESC_LO -/,
  ⟨0x40020054, [], false, [⟨0, 32, .ro, 0, 0⟩]⟩ /- REF_VSEQ_ESC_HI -/,
  ⟨0x40020058, [], false, [⟨0, 1, .rw, 0, 0⟩, ⟨1, 1, .rw, 0, 0⟩, ⟨2, 1, .rw, 0, 0⟩, ⟨3, 1, .rw, 0, 0⟩]⟩ /- REF_OUT_CFG -/,
  ⟨0x4002005C, [], false, [⟨0, 1, .rw, 0, 0⟩]⟩ /- REF_PTP_QUAL -/,
  ⟨0x40020060, [], false, [⟨0, 13, .w1c, 0, 0⟩]⟩ /- REF_EVT_STATUS -/,
  ⟨0x40020100, [(6, 16)], false, [⟨0, 1, .rw, 0, 0⟩, ⟨1, 1, .rw, 0, 0⟩, ⟨2, 11, .rw, 100, 0⟩, ⟨16, 8, .rw, 50, 0⟩]⟩ /- REF_SRC_CFG[0–5] -/,
  ⟨0x40020160, [], false, [⟨0, 1, .rw, 1, 0⟩, ⟨1, 1, .rw, 0, 0⟩, ⟨2, 11, .rw, 100, 0⟩, ⟨16, 8, .rw, 50, 0⟩]⟩ /- REF_SRC_CFG[6] -/,
  ⟨0x40020104, [(6, 16)], false, [⟨0, 2, .ro, 0, 0⟩, ⟨2, 1, .ro, 0, 0⟩]⟩ /- REF_SRC_STATE[0–5] -/,
  ⟨0x40020164, [], false, [⟨0, 2, .ro, 2, 0⟩, ⟨2, 1, .ro, 0, 0⟩]⟩ /- REF_SRC_STATE[6] -/,
  ⟨0x40020108, [(7, 16)], false, [⟨0, 32, .ro, 0, 0⟩]⟩ /- REF_SRC_FREQ -/,
  ⟨0x4002010C, [(7, 16)], false, [⟨0, 32, .ro, 0, 0⟩]⟩ /- REF_SRC_PHASE -/]

/-- The TIME registers (R148). -/
def timeRows : List RegRow := [
  ⟨0x40030000, [], false, [⟨0, 1, .ro, 0, 0⟩, ⟨1, 1, .ro, 0, 0⟩, ⟨8, 6, .ro, 0, 0⟩]⟩ /- TIME_STATUS -/,
  ⟨0x40030008, [], false, [⟨0, 32, .rw, 2695539371, 0⟩]⟩ /- TIME_INCR_FRAC -/,
  ⟨0x40030010, [], true, [⟨0, 8, .cp, 1, 0⟩]⟩ /- TIME_INCR -/,
  ⟨0x40030018, [], false, [⟨0, 32, .ro, 2695539371, 0⟩]⟩ /- TIME_INCR_CUR_FRAC -/,
  ⟨0x4003001C, [], false, [⟨0, 8, .ro, 1, 0⟩]⟩ /- TIME_INCR_CUR_NS -/,
  ⟨0x40030020, [], false, [⟨0, 30, .ro, 0, 0⟩]⟩ /- TIME_NOW_NS -/,
  ⟨0x40030024, [], false, [⟨0, 32, .ro, 0, 0⟩]⟩ /- TIME_NOW_SEC_LO -/,
  ⟨0x40030028, [], false, [⟨0, 16, .ro, 0, 0⟩]⟩ /- TIME_NOW_SEC_HI -/,
  ⟨0x4003002C, [], false, [⟨0, 24, .ro, 0, 0⟩]⟩ /- TIME_NOW_FRAC -/,
  ⟨0x40030030, [], false, [⟨0, 32, .ro, 0, 0⟩]⟩ /- TIME_NOW_ESC_LO -/,
  ⟨0x40030040, [], false, [⟨0, 32, .rw, 0, 0⟩]⟩ /- TIME_ADJ_SEC -/,
  ⟨0x40030044, [], false, [⟨0, 16, .rw, 0, 0⟩]⟩ /- TIME_ADJ_SEC_HI -/,
  ⟨0x40030048, [], false, [⟨0, 32, .rw, 0, 0⟩]⟩ /- TIME_ADJ_NS -/,
  ⟨0x40030050, [], true, [⟨0, 1, .cp, 0, 0⟩, ⟨1, 1, .cp, 0, 0⟩]⟩ /- TIME_ADJ_CTRL -/,
  ⟨0x40030058, [], false, [⟨0, 32, .rw, 1000000, 0⟩]⟩ /- TIME_STEP_LIMIT -/,
  ⟨0x40030060, [], false, [⟨0, 32, .ro, 0, 0⟩]⟩ /- TIME_LATCH_ESC_LO -/,
  ⟨0x40030064, [], false, [⟨0, 32, .ro, 0, 0⟩]⟩ /- TIME_LATCH_ESC_HI -/,
  ⟨0x40030068, [], false, [⟨0, 30, .ro, 0, 0⟩]⟩ /- TIME_LATCH_NS -/,
  ⟨0x4003006C, [], false, [⟨0, 32, .ro, 0, 0⟩]⟩ /- TIME_LATCH_SEC_LO -/,
  ⟨0x40030070, [], false, [⟨0, 16, .ro, 0, 0⟩]⟩ /- TIME_LATCH_SEC_HI -/,
  ⟨0x40030074, [], false, [⟨0, 24, .ro, 0, 0⟩]⟩ /- TIME_LATCH_FRAC -/,
  ⟨0x40030078, [], false, [⟨0, 32, .ro, 0, 0⟩]⟩ /- TIME_MCC_LO -/,
  ⟨0x4003007C, [], false, [⟨0, 32, .ro, 0, 0⟩]⟩ /- TIME_MCC_HI -/,
  ⟨0x40030080, [], false, [⟨0, 32, .ro, 0, 0⟩]⟩ /- TIME_TICK_PHASE -/,
  ⟨0x400300A0, [], false, [⟨0, 1, .rc, 0, 0⟩, ⟨1, 1, .rc, 0, 0⟩, ⟨4, 4, .rc, 0, 0⟩, ⟨16, 16, .rc, 0, 0⟩]⟩ /- TIME_TXTS_INFO -/,
  ⟨0x400300A4, [], false, [⟨0, 32, .ro, 0, 0⟩]⟩ /- TIME_TXTS_SEC_LO -/,
  ⟨0x400300A8, [], false, [⟨0, 16, .ro, 0, 0⟩]⟩ /- TIME_TXTS_SEC_HI -/,
  ⟨0x400300AC, [], false, [⟨0, 30, .ro, 0, 0⟩]⟩ /- TIME_TXTS_NS -/,
  ⟨0x400300B0, [], false, [⟨0, 24, .ro, 0, 0⟩]⟩ /- TIME_TXTS_FRAC -/,
  ⟨0x400300C0, [], false, [⟨0, 6, .w1c, 0, 0⟩]⟩ /- TIME_EVT_STATUS -/,
  ⟨0x40030100, [(2, 32)], false, [⟨0, 32, .rw, 0, 0⟩]⟩ /- TIME_NET_INGRESS_LAT -/,
  ⟨0x40030104, [(2, 32)], false, [⟨0, 32, .rw, 0, 0⟩]⟩ /- TIME_NET_EGRESS_LAT -/,
  ⟨0x40030108, [(2, 32)], false, [⟨0, 32, .rw, 0, 0⟩]⟩ /- TIME_NET_ASYM -/,
  ⟨0x4003010C, [(2, 32)], false, [⟨0, 1, .rw, 0, 0⟩]⟩ /- TIME_NET_TS_CFG -/]

/-- The TAQ registers (R150). -/
def taqRows : List RegRow := [
  ⟨0x40040000, [(16, 4)], false, [⟨0, 7, .ro, 0, 0⟩, ⟨8, 7, .ro, 0, 0⟩]⟩ /- TAQ_TENANT_STATUS -/,
  ⟨0x40040040, [], false, [⟨0, 32, .rc, 0, 0⟩]⟩ /- TAQ_LATE_COUNT -/,
  ⟨0x40040044, [], false, [⟨0, 4, .w1c, 0, 0⟩]⟩ /- TAQ_EVT_STATUS -/]

/-- The SCHED registers (R299). -/
def schedRows : List RegRow := [
  ⟨0x40050000, [], false, [⟨0, 1, .rw, 0, 0⟩, ⟨1, 1, .rw, 0, 0⟩, ⟨2, 1, .rw, 1, 0⟩]⟩ /- SCHED_CTRL -/,
  ⟨0x40050004, [], false, [⟨0, 13, .ro, 0, 0⟩, ⟨16, 13, .ro, 0, 0⟩, ⟨31, 1, .ro, 0, 0⟩]⟩ /- SCHED_STATUS -/,
  ⟨0x40050008, [], false, [⟨0, 12, .wo, 0, 0⟩]⟩ /- SCHED_SUBMIT -/,
  ⟨0x4005000C, [], false, [⟨0, 12, .wo, 0, 0⟩, ⟨12, 3, .wo, 0, 0⟩]⟩ /- SCHED_READY -/,
  ⟨0x40050010, [], false, [⟨0, 12, .wo, 0, 0⟩]⟩ /- SCHED_CANCEL -/,
  ⟨0x40050014, [], false, [⟨0, 12, .wo, 0, 0⟩]⟩ /- SCHED_FREE -/,
  ⟨0x40050018, [], false, [⟨0, 5, .ro, 16, 0⟩, ⟨8, 2, .ro, 0, 0⟩]⟩ /- SCHED_SHED -/,
  ⟨0x4005001C, [], false, [⟨0, 32, .rc, 0, 0⟩]⟩ /- SCHED_MISS_TOTAL -/,
  ⟨0x40050020, [], false, [⟨0, 7, .w1c, 0, 0⟩]⟩ /- SCHED_EVT_STATUS -/,
  ⟨0x40050100, [(16, 16)], true, [⟨0, 12, .cp, 0, 256⟩, ⟨16, 13, .cp, 256, 0⟩]⟩ /- SCHED_RANGE -/,
  ⟨0x40050108, [(16, 16)], false, [⟨0, 12, .rc, 0, 0⟩, ⟨12, 3, .rc, 0, 0⟩, ⟨15, 1, .rc, 0, 0⟩, ⟨16, 8, .rc, 0, 0⟩, ⟨31, 1, .rc, 0, 0⟩]⟩ /- SCHED_CQ_LO -/,
  ⟨0x4005010C, [(16, 16)], false, [⟨0, 32, .ro, 0, 0⟩]⟩ /- SCHED_CQ_HI -/,
  ⟨0x40050200, [(16, 16)], false, [⟨0, 9, .ro, 0, 0⟩, ⟨9, 1, .ro, 0, 0⟩, ⟨10, 1, .ro, 0, 0⟩]⟩ /- SCHED_TSTAT -/,
  ⟨0x40050204, [(16, 16)], false, [⟨0, 32, .rc, 0, 0⟩]⟩ /- SCHED_MISS -/,
  ⟨0x40050208, [(16, 16)], false, [⟨0, 32, .rc, 0, 0⟩]⟩ /- SCHED_LATE -/,
  ⟨0x4005020C, [(16, 16)], false, [⟨0, 32, .rc, 0, 0⟩]⟩ /- SCHED_CQ_DROP -/,
  ⟨0x40050300, [(16, 4)], false, [⟨0, 12, .ro, 0, 0⟩, ⟨12, 1, .ro, 0, 0⟩, ⟨13, 2, .ro, 0, 0⟩, ⟨16, 13, .ro, 0, 0⟩]⟩ /- SCHED_CORE -/]

/-- The INGOT registers (R340). -/
def ingotRows : List RegRow := [
  ⟨0x40060000, [], false, [⟨0, 4, .w1c, 0, 0⟩]⟩ /- INGOT_EVT_STATUS -/,
  ⟨0x40060010, [], false, [⟨0, 2, .ro, 0, 0⟩, ⟨2, 2, .ro, 0, 0⟩, ⟨4, 2, .ro, 0, 0⟩, ⟨6, 2, .ro, 0, 0⟩, ⟨8, 2, .ro, 0, 0⟩, ⟨10, 2, .ro, 0, 0⟩, ⟨12, 2, .ro, 0, 0⟩, ⟨14, 2, .ro, 0, 0⟩, ⟨16, 2, .ro, 0, 0⟩, ⟨18, 2, .ro, 0, 0⟩]⟩ /- INGOT_RET_STATE -/,
  ⟨0x40060040, [(10, 4)], false, [⟨0, 1, .rw, 0, 0⟩, ⟨1, 1, .rw, 0, 0⟩]⟩ /- INGOT_RET -/,
  ⟨0x40060100, [(80, 8)], true, [⟨0, 8, .cp, 32, 0⟩, ⟨8, 8, .cp, 0, 0⟩, ⟨16, 1, .cp, 0, 0⟩]⟩ /- INGOT_OWN -/,
  ⟨0x40060400, [(80, 4)], false, [⟨0, 2, .ro, 1, 0⟩, ⟨8, 8, .ro, 32, 0⟩, ⟨16, 9, .ro, 0, 0⟩]⟩ /- INGOT_STATE -/]

/-- The XLAT registers (R341). -/
def xlatRows : List RegRow := [
  ⟨0x40070000, [], false, [⟨0, 3, .w1c, 0, 0⟩]⟩ /- XLAT_EVT_STATUS -/,
  ⟨0x40070100, [(16, 32)], false, [⟨0, 32, .ro, 0, 0⟩]⟩ /- XLAT_FAULT_VA -/,
  ⟨0x40070104, [(16, 32)], false, [⟨0, 32, .ro, 0, 0⟩]⟩ /- XLAT_FAULT_PA_LO -/,
  ⟨0x40070108, [(16, 32)], false, [⟨0, 32, .ro, 0, 0⟩]⟩ /- XLAT_FAULT_PA_HI -/,
  ⟨0x4007010C, [(16, 32)], false, [⟨0, 4, .ro, 0, 0⟩, ⟨4, 1, .ro, 0, 0⟩, ⟨8, 8, .ro, 0, 0⟩, ⟨16, 8, .ro, 0, 0⟩, ⟨24, 7, .ro, 0, 0⟩, ⟨31, 1, .w1c, 0, 0⟩]⟩ /- XLAT_FAULT_INFO -/,
  ⟨0x40070110, [(16, 32)], false, [⟨0, 32, .ro, 0, 0⟩]⟩ /- XLAT_FAULT_ESC_LO -/,
  ⟨0x40070114, [(16, 32)], false, [⟨0, 32, .ro, 0, 0⟩]⟩ /- XLAT_FAULT_ESC_HI -/,
  ⟨0x40071000, [(16, 2048), (32, 64)], true, [⟨12, 20, .cp, 0, 0⟩]⟩ /- XLAT_WIN_BASE -/,
  ⟨0x40071008, [(16, 2048), (32, 64)], true, [⟨12, 20, .cp, 0, 0⟩]⟩ /- XLAT_WIN_LIMIT -/,
  ⟨0x40071010, [(16, 2048), (32, 64)], true, [⟨12, 20, .cp, 0, 0⟩]⟩ /- XLAT_WIN_OFF_LO -/,
  ⟨0x40071018, [(16, 2048), (32, 64)], true, [⟨0, 32, .cp, 0, 0⟩]⟩ /- XLAT_WIN_OFF_HI -/,
  ⟨0x40071020, [(16, 2048), (32, 64)], true, [⟨0, 1, .cp, 0, 0⟩, ⟨1, 1, .cp, 0, 0⟩, ⟨2, 1, .cp, 0, 0⟩, ⟨3, 1, .cp, 0, 0⟩, ⟨4, 2, .cp, 0, 0⟩, ⟨8, 1, .cp, 0, 0⟩]⟩ /- XLAT_WIN_CTRL -/]

/-- The DMA registers (R342). -/
def dmaRows : List RegRow := [
  ⟨0x40080000, [(16, 4096), (2, 64)], false, [⟨5, 27, .rw, 0, 0⟩]⟩ /- DMA_CH_DESC -/,
  ⟨0x40080004, [(16, 4096), (2, 64)], false, [⟨0, 1, .wo, 0, 0⟩, ⟨1, 1, .wo, 0, 0⟩, ⟨2, 1, .wo, 0, 0⟩]⟩ /- DMA_CH_CMD -/,
  ⟨0x40080008, [(16, 4096), (2, 64)], false, [⟨0, 3, .ro, 0, 0⟩, ⟨4, 4, .ro, 0, 0⟩, ⟨16, 16, .ro, 0, 0⟩]⟩ /- DMA_CH_STATUS -/,
  ⟨0x4008000C, [(16, 4096), (2, 64)], false, [⟨0, 32, .ro, 0, 0⟩]⟩ /- DMA_CH_CUR -/,
  ⟨0x40080010, [(16, 4096), (2, 64)], false, [⟨0, 32, .ro, 0, 0⟩]⟩ /- DMA_CH_SRC -/,
  ⟨0x40080014, [(16, 4096), (2, 64)], false, [⟨0, 32, .ro, 0, 0⟩]⟩ /- DMA_CH_DST -/,
  ⟨0x40080018, [(16, 4096), (2, 64)], false, [⟨0, 16, .ro, 0, 0⟩, ⟨16, 16, .ro, 0, 0⟩]⟩ /- DMA_CH_LEFT -/,
  ⟨0x4008001C, [(16, 4096), (2, 64)], false, [⟨0, 32, .rc, 0, 0⟩]⟩ /- DMA_CH_MISMATCH -/,
  ⟨0x40080020, [(16, 4096), (2, 64)], false, [⟨0, 32, .rc, 0, 0⟩]⟩ /- DMA_CH_BYTES -/,
  ⟨0x40080800, [], false, [⟨0, 32, .ro, 0, 0⟩]⟩ /- DMA_ACTIVE -/,
  ⟨0x40080804, [], false, [⟨0, 4, .w1c, 0, 0⟩]⟩ /- DMA_EVT_STATUS -/]

/-- The MBX registers (R376, R377). -/
def mbxRows : List RegRow := [
  ⟨0x40090000, [(16, 4096)], false, [⟨0, 1, .rw, 0, 0⟩, ⟨1, 1, .rw, 0, 0⟩, ⟨2, 1, .rw, 0, 0⟩, ⟨8, 5, .rw, 16, 0⟩, ⟨16, 5, .rw, 16, 0⟩, ⟨24, 1, .rw, 0, 0⟩, ⟨25, 1, .rw, 0, 0⟩, ⟨28, 4, .rw, 15, 0⟩]⟩ /- MBX_CFG -/,
  ⟨0x40090004, [(16, 4096)], false, [⟨0, 5, .ro, 16, 0⟩, ⟨5, 1, .ro, 0, 0⟩, ⟨6, 4, .ro, 0, 0⟩, ⟨10, 1, .ro, 0, 0⟩, ⟨16, 5, .ro, 16, 0⟩, ⟨21, 1, .ro, 0, 0⟩, ⟨22, 4, .ro, 0, 0⟩, ⟨26, 1, .ro, 0, 0⟩]⟩ /- MBX_STAT -/,
  ⟨0x40090008, [(16, 4096)], false, [⟨0, 1, .wo, 0, 0⟩, ⟨1, 1, .wo, 0, 0⟩]⟩ /- MBX_CTRL -/,
  ⟨0x40090100, [(16, 4096)], false, [⟨0, 32, .rw, 0, 0⟩]⟩ /- MBX_H2E_HDR -/,
  ⟨0x40090200, [(16, 4096)], false, [⟨0, 32, .rw, 0, 0⟩]⟩ /- MBX_E2H_HDR -/,
  ⟨0x40090104, [(16, 4096)], false, [⟨0, 32, .rw, 4294967295, 0⟩]⟩ /- MBX_H2E_HDRC -/,
  ⟨0x40090204, [(16, 4096)], false, [⟨0, 32, .rw, 4294967295, 0⟩]⟩ /- MBX_E2H_HDRC -/,
  ⟨0x40090108, [(16, 4096)], false, [⟨0, 32, .wo, 0, 0⟩]⟩ /- MBX_H2E_DATA -/,
  ⟨0x40090208, [(16, 4096)], false, [⟨0, 32, .wo, 0, 0⟩]⟩ /- MBX_E2H_DATA -/,
  ⟨0x4009010C, [(16, 4096)], false, [⟨0, 32, .rc, 0, 0⟩]⟩ /- MBX_H2E_POP -/,
  ⟨0x4009020C, [(16, 4096)], false, [⟨0, 32, .rc, 0, 0⟩]⟩ /- MBX_E2H_POP -/,
  ⟨0x40090110, [(16, 4096)], false, [⟨0, 1, .wo, 0, 0⟩]⟩ /- MBX_H2E_GO -/,
  ⟨0x40090210, [(16, 4096)], false, [⟨0, 1, .wo, 0, 0⟩]⟩ /- MBX_E2H_GO -/,
  ⟨0x40090148, [(16, 4096), (14, 4)], false, [⟨0, 32, .rw, 0, 0⟩]⟩ /- MBX_H2E_MSG -/,
  ⟨0x40090248, [(16, 4096), (14, 4)], false, [⟨0, 32, .rw, 0, 0⟩]⟩ /- MBX_E2H_MSG -/,
  ⟨0x40090400, [(16, 4096)], false, [⟨0, 32, .rc, 0, 0⟩]⟩ /- MBX_EVQ_W0 -/,
  ⟨0x40090404, [(16, 4096), (3, 4)], false, [⟨0, 32, .ro, 0, 0⟩]⟩ /- MBX_EVQ_W -/,
  ⟨0x40090410, [(16, 4096)], false, [⟨0, 7, .ro, 0, 0⟩]⟩ /- MBX_EVQ_STAT -/,
  ⟨0x40090414, [(16, 4096)], false, [⟨0, 32, .rc, 0, 0⟩]⟩ /- MBX_EVQ_DROP -/,
  ⟨0x40090500, [(16, 4096)], false, [⟨0, 16, .wo, 0, 0⟩]⟩ /- MBX_DB_RING -/,
  ⟨0x40090504, [(16, 4096)], false, [⟨0, 16, .w1c, 0, 0⟩]⟩ /- MBX_DB_PEND -/,
  ⟨0x40090508, [(16, 4096)], false, [⟨0, 1, .wo, 0, 0⟩]⟩ /- MBX_DB_WAKE -/,
  ⟨0x40090540, [(16, 4096), (16, 4)], false, [⟨0, 12, .rw, 0, 0⟩, ⟨12, 3, .rw, 4, 0⟩, ⟨15, 1, .rw, 0, 0⟩]⟩ /- MBX_DB_MAP -/,
  ⟨0x40090F00, [], false, [⟨0, 8, .w1c, 0, 0⟩]⟩ /- MBX_EVT_STATUS -/,
  ⟨0x40090F04, [], false, [⟨0, 1, .rw, 1, 0⟩]⟩ /- MBX_ISOL -/]

/-- The ROUTE registers (R402). -/
def routeRows : List RegRow := [
  ⟨0x400A0000, [], false, [⟨0, 1, .ro, 0, 0⟩]⟩ /- ROUTE_STATUS -/,
  ⟨0x400A0004, [], false, [⟨0, 4, .w1c, 0, 0⟩]⟩ /- ROUTE_EVT_STATUS -/,
  ⟨0x400A0008, [], false, [⟨0, 15, .rw, 1000, 0⟩, ⟨16, 6, .rw, 18, 0⟩]⟩ /- ROUTE_TONE -/,
  ⟨0x400A0010, [], false, [⟨0, 13, .wo, 0, 0⟩, ⟨16, 1, .wo, 0, 0⟩, ⟨20, 12, .wo, 0, 0⟩]⟩ /- ROUTE_MUTE_CMD -/,
  ⟨0x400A0040, [(16, 4)], false, [⟨0, 12, .rw, 479, 0⟩]⟩ /- ROUTE_TRAMP -/,
  ⟨0x400A0100, [(256, 8)], true, [⟨0, 4, .cp, 0, 0⟩, ⟨4, 1, .cp, 0, 0⟩]⟩ /- ROUTE_DOWN -/,
  ⟨0x400A0900, [(256, 4)], false, [⟨0, 16, .rw, 0, 0⟩]⟩ /- ROUTE_SGRANT -/,
  ⟨0x400A1000, [(1024, 4)], false, [⟨0, 4, .rw, 0, 0⟩, ⟨4, 1, .rw, 0, 0⟩, ⟨8, 10, .rw, 0, 0⟩, ⟨18, 10, .rw, 0, 0⟩]⟩ /- ROUTE_PATH -/]

/-- The SUMX registers (R403). -/
def sumxRows : List RegRow := [
  ⟨0x400B0000, [], false, [⟨0, 1, .ro, 0, 0⟩]⟩ /- SUMX_STATUS -/,
  ⟨0x400B0004, [], false, [⟨0, 8, .w1c, 0, 0⟩]⟩ /- SUMX_EVT_STATUS -/,
  ⟨0x400B0040, [(16, 4)], false, [⟨0, 12, .rw, 479, 0⟩]⟩ /- SUMX_TRAMP -/,
  ⟨0x400B0080, [(16, 8)], true, [⟨0, 12, .cp, 0, 256⟩, ⟨16, 13, .cp, 256, 0⟩]⟩ /- SUMX_RANGE -/,
  ⟨0x400B0100, [(256, 8)], true, [⟨0, 24, .cp, 1048576, 0⟩]⟩ /- SUMX_BUS_GAIN -/,
  ⟨0x400B0900, [(256, 4)], false, [⟨0, 1, .rw, 0, 0⟩, ⟨1, 1, .rw, 0, 0⟩, ⟨2, 1, .rw, 0, 0⟩, ⟨3, 1, .rw, 1, 0⟩, ⟨8, 4, .rw, 0, 0⟩]⟩ /- SUMX_BUS_CFG -/,
  ⟨0x400B1000, [(256, 4)], false, [⟨0, 8, .rw, 10, 0⟩, ⟨8, 11, .rw, 100, 0⟩]⟩ /- SUMX_LIM -/,
  ⟨0x400B1400, [(256, 8)], true, [⟨0, 16, .cp, 0, 0⟩, ⟨16, 16, .cp, 0, 0⟩]⟩ /- SUMX_LIST_A -/,
  ⟨0x400B1C00, [(256, 8)], true, [⟨0, 16, .cp, 0, 0⟩, ⟨16, 16, .cp, 0, 0⟩]⟩ /- SUMX_LIST_B -/,
  ⟨0x400B2400, [(8, 4)], false, [⟨0, 32, .w1c, 0, 0⟩]⟩ /- SUMX_ACC_SAT -/,
  ⟨0x400B2420, [(8, 4)], false, [⟨0, 32, .w1c, 0, 0⟩]⟩ /- SUMX_BUS_SAT -/,
  ⟨0x400B2800, [(16, 64)], false, [⟨0, 8, .rw, 0, 0⟩]⟩ /- SUMX_LOUD_CFG -/,
  ⟨0x400B2804, [(16, 64), (8, 4)], false, [⟨0, 13, .rw, 8191, 0⟩, ⟨16, 16, .rw, 16384, 0⟩]⟩ /- SUMX_LOUD_CH -/,
  ⟨0x400B2824, [(16, 64)], false, [⟨0, 32, .ro, 0, 0⟩]⟩ /- SUMX_LOUD_VAL -/,
  ⟨0x400B2828, [(16, 64)], false, [⟨0, 32, .ro, 0, 0⟩]⟩ /- SUMX_LOUD_ESC -/,
  ⟨0x400B282C, [(16, 64)], false, [⟨0, 16, .ro, 0, 0⟩]⟩ /- SUMX_LOUD_SEQ -/,
  ⟨0x400B3000, [(256, 4)], false, [⟨0, 31, .ro, sumxAlphaReset, 0⟩]⟩ /- SUMX_LIM_ALPHA -/,
  ⟨0x400B4000, [(4096, 4)], false, [⟨0, 13, .rw, 8191, 0⟩, ⟨16, 1, .rw, 0, 0⟩, ⟨20, 4, .rw, 0, 0⟩]⟩ /- SUMX_TAP_CFG -/,
  ⟨0x400B8000, [(4096, 8)], false, [⟨0, 31, .ro, 0, 0⟩]⟩ /- SUMX_TAP_PEAK -/,
  ⟨0x400B8004, [(4096, 8)], false, [⟨0, 32, .ro, 0, 0⟩]⟩ /- SUMX_TAP_MSQ -/]

/-- The EQA registers (R427). -/
def eqaRows : List RegRow := [
  ⟨0x400C0000, [], false, [⟨0, 1, .rw, 0, 0⟩]⟩ /- EQA_CTRL -/,
  ⟨0x400C0004, [], false, [⟨0, 5, .w1c, 0, 0⟩]⟩ /- EQA_EVT_STATUS -/,
  ⟨0x400C0008, [], false, [⟨0, 15, .ro, 0, 0⟩, ⟨16, 1, .ro, 0, 0⟩]⟩ /- EQA_STATUS -/,
  ⟨0x400C0010, [], false, [⟨0, 11, .wo, 0, 0⟩]⟩ /- EQA_CLEAR -/,
  ⟨0x400C0040, [(16, 8)], true, [⟨0, 7, .cp, 0, 8⟩, ⟨16, 8, .cp, 8, 0⟩]⟩ /- EQA_CRANGE -/,
  ⟨0x400C00C0, [(16, 8)], true, [⟨0, 11, .cp, 0, 96⟩, ⟨16, 12, .cp, 96, 0⟩]⟩ /- EQA_SRANGE -/,
  ⟨0x400C0400, [(64, 4)], false, [⟨0, 32, .ro, 0, 0⟩]⟩ /- EQA_BANK -/,
  ⟨0x400C0500, [(64, 4)], false, [⟨0, 32, .w1c, 0, 0⟩]⟩ /- EQA_SAT -/]

/-- The SAFE registers (R428). -/
def safeRows : List RegRow := [
  ⟨0x400D0000, [], false, [⟨0, 1, .rw, 1, 0⟩]⟩ /- SAFE_CTRL -/,
  ⟨0x400D0004, [], false, [⟨0, 6, .w1c, 0, 0⟩]⟩ /- SAFE_EVT_STATUS -/,
  ⟨0x400D0008, [], false, [⟨0, 4, .wo, 0, 0⟩, ⟨8, 1, .wo, 0, 0⟩, ⟨9, 1, .wo, 0, 0⟩, ⟨10, 1, .wo, 0, 0⟩]⟩ /- SAFE_CMD -/,
  ⟨0x400D0100, [(16, 16)], true, [⟨0, 5, .cp, 16, 0⟩, ⟨8, 1, .cp, 0, 0⟩, ⟨9, 1, .cp, 0, 0⟩, ⟨10, 1, .cp, 0, 0⟩, ⟨12, 1, .cp, 0, 0⟩, ⟨16, 16, .cp, 0, 0⟩]⟩ /- SAFE_GRP_CFG -/,
  ⟨0x400D0108, [(16, 16)], false, [⟨0, 11, .rw, 0, 0⟩, ⟨16, 11, .rw, 0, 0⟩]⟩ /- SAFE_GRP_CHAINS -/,
  ⟨0x400D010C, [(16, 16)], false, [⟨0, 2, .ro, 0, 0⟩, ⟨2, 1, .ro, 0, 0⟩, ⟨16, 16, .ro, 0, 0⟩]⟩ /- SAFE_GRP_STATE -/,
  ⟨0x400D0200, [(16, 8)], false, [⟨0, 32, .ro, 0, 0⟩]⟩ /- SAFE_GRP_ESC_LO -/,
  ⟨0x400D0204, [(16, 8)], false, [⟨0, 32, .ro, 0, 0⟩]⟩ /- SAFE_GRP_ESC_HI -/,
  ⟨0x400D0400, [(16, 16)], false, [⟨12, 20, .rw, 0, 0⟩]⟩ /- SAFE_PARAM_VA0 -/,
  ⟨0x400D0404, [(16, 16)], false, [⟨12, 20, .rw, 0, 0⟩]⟩ /- SAFE_PARAM_VA1 -/,
  ⟨0x400D0408, [(16, 16)], false, [⟨0, 12, .rw, 0, 0⟩]⟩ /- SAFE_PARAM_PAGES -/,
  ⟨0x400D040C, [(16, 16)], false, [⟨0, 1, .ro, 0, 0⟩]⟩ /- SAFE_PARAM_SEL -/]

/-- The SAP registers (R460). -/
def sapRows : List RegRow := [
  ⟨0x400E0000, [], false, [⟨0, 1, .rw, 0, 0⟩]⟩ /- SAP_CTRL -/,
  ⟨0x400E0004, [], false, [⟨0, 7, .w1c, 0, 0⟩]⟩ /- SAP_EVT_STATUS -/,
  ⟨0x400E0040, [(4, 16)], false, [⟨0, 1, .rw, 0, 0⟩, ⟨1, 1, .rw, 0, 0⟩, ⟨2, 2, .rw, 0, 0⟩, ⟨4, 1, .rw, 0, 0⟩, ⟨5, 1, .rw, 0, 0⟩, ⟨6, 1, .rw, 0, 0⟩, ⟨8, 3, .rw, 3, 0⟩, ⟨12, 2, .rw, 2, 0⟩]⟩ /- SAP_GRP_CFG -/,
  ⟨0x400E0044, [(4, 16)], false, [⟨0, 2, .ro, 0, 0⟩, ⟨16, 12, .ro, 0, 0⟩]⟩ /- SAP_GRP_STATUS -/,
  ⟨0x400E0048, [(4, 16)], false, [⟨0, 16, .rc, 0, 0⟩, ⟨16, 16, .rc, 0, 0⟩]⟩ /- SAP_GRP_COUNT -/,
  ⟨0x400E0100, [(8, 32)], false, [⟨0, 1, .rw, 0, 0⟩, ⟨1, 2, .rw, 0, 0⟩, ⟨3, 1, .rw, 0, 0⟩, ⟨4, 5, .rw, 1, 0⟩, ⟨9, 2, .rw, 2, 0⟩, ⟨11, 2, .rw, 1, 0⟩, ⟨13, 1, .rw, 0, 0⟩]⟩ /- SAP_IN_CFG -/,
  ⟨0x400E0104, [(8, 32)], false, [⟨0, 32, .rw, 0, 0⟩]⟩ /- SAP_IN_MASK -/,
  ⟨0x400E0108, [(8, 32)], false, [⟨8, 24, .rw, 0, 0⟩]⟩ /- SAP_IN_BUF -/,
  ⟨0x400E010C, [(8, 32)], false, [⟨0, 1, .w1c, 0, 0⟩, ⟨8, 5, .ro, 0, 0⟩, ⟨16, 1, .ro, 0, 0⟩]⟩ /- SAP_IN_STATUS -/,
  ⟨0x400E0200, [(8, 32)], false, [⟨0, 1, .rw, 0, 0⟩, ⟨1, 2, .rw, 0, 0⟩, ⟨3, 1, .rw, 0, 0⟩, ⟨4, 5, .rw, 1, 0⟩, ⟨9, 2, .rw, 2, 0⟩, ⟨11, 2, .rw, 1, 0⟩, ⟨13, 1, .rw, 0, 0⟩, ⟨14, 1, .rw, 0, 0⟩, ⟨15, 1, .rw, 0, 0⟩]⟩ /- SAP_OUT_CFG -/,
  ⟨0x400E0204, [(8, 32)], false, [⟨0, 32, .rw, 0, 0⟩]⟩ /- SAP_OUT_MASK -/,
  ⟨0x400E0208, [(8, 32)], false, [⟨8, 24, .rw, 0, 0⟩]⟩ /- SAP_OUT_BUF -/,
  ⟨0x400E020C, [(8, 32)], false, [⟨0, 1, .w1c, 0, 0⟩, ⟨1, 1, .ro, 0, 0⟩, ⟨2, 1, .w1c, 0, 0⟩, ⟨8, 5, .ro, 0, 0⟩, ⟨16, 1, .ro, 0, 0⟩]⟩ /- SAP_OUT_STATUS -/,
  ⟨0x400E0210, [(8, 32)], false, [⟨0, 1, .rw, 0, 0⟩, ⟨1, 1, .rw, 0, 0⟩, ⟨2, 1, .rw, 0, 0⟩, ⟨3, 1, .rw, 1, 0⟩]⟩ /- SAP_DRV -/]

/-- The MADI registers (R461). -/
def madiRows : List RegRow := [
  ⟨0x400F0000, [], false, [⟨0, 1, .rw, 0, 0⟩]⟩ /- MADI_CTRL -/,
  ⟨0x400F0004, [], false, [⟨0, 7, .w1c, 0, 0⟩]⟩ /- MADI_EVT_STATUS -/,
  ⟨0x400F0100, [(2, 128)], false, [⟨0, 1, .rw, 0, 0⟩, ⟨1, 2, .rw, 0, 0⟩]⟩ /- MADI_RX_CFG -/,
  ⟨0x400F0104, [(2, 128)], false, [⟨0, 2, .ro, 0, 0⟩, ⟨8, 7, .ro, 0, 0⟩, ⟨16, 3, .ro, 0, 0⟩, ⟨19, 1, .ro, 0, 0⟩]⟩ /- MADI_RX_STATUS -/,
  ⟨0x400F0108, [(2, 128)], false, [⟨8, 24, .rw, 0, 0⟩]⟩ /- MADI_RX_BUF -/,
  ⟨0x400F010C, [(2, 128)], false, [⟨0, 16, .rc, 0, 0⟩, ⟨16, 16, .rc, 0, 0⟩]⟩ /- MADI_RX_ERR -/,
  ⟨0x400F0110, [(2, 128)], false, [⟨0, 32, .w1c, 0, 0⟩]⟩ /- MADI_RX_VFLAG_LO -/,
  ⟨0x400F0114, [(2, 128)], false, [⟨0, 32, .w1c, 0, 0⟩]⟩ /- MADI_RX_VFLAG_HI -/,
  ⟨0x400F0118, [(2, 128)], false, [⟨0, 32, .w1c, 0, 0⟩]⟩ /- MADI_RX_CSCHG_LO -/,
  ⟨0x400F011C, [(2, 128)], false, [⟨0, 32, .w1c, 0, 0⟩]⟩ /- MADI_RX_CSCHG_HI -/,
  ⟨0x400F0120, [(2, 128)], false, [⟨0, 1, .rw, 0, 0⟩, ⟨1, 2, .rw, 0, 0⟩, ⟨3, 1, .rw, 0, 0⟩, ⟨4, 1, .rw, 1, 0⟩]⟩ /- MADI_TX_CFG -/,
  ⟨0x400F0124, [(2, 128)], false, [⟨0, 32, .rw, 0, 0⟩]⟩ /- MADI_TX_MASK_LO -/,
  ⟨0x400F0128, [(2, 128)], false, [⟨0, 32, .rw, 0, 0⟩]⟩ /- MADI_TX_MASK_HI -/,
  ⟨0x400F012C, [(2, 128)], false, [⟨8, 24, .rw, 0, 0⟩]⟩ /- MADI_TX_BUF -/,
  ⟨0x400F0130, [(2, 128)], false, [⟨0, 1, .ro, 0, 0⟩, ⟨1, 1, .w1c, 0, 0⟩]⟩ /- MADI_TX_STATUS -/,
  ⟨0x400F1000, [(2, 4096), (64, 64), (6, 4)], false, [⟨0, 32, .ro, 0, 0⟩]⟩ /- MADI_RX_CS -/,
  ⟨0x400F1020, [(2, 4096), (64, 64), (6, 4)], false, [⟨0, 32, .ro, 0, 0⟩]⟩ /- MADI_RX_US -/,
  ⟨0x400F3000, [(2, 4096), (64, 64), (6, 4)], false, [⟨0, 32, .rw, 0, 0⟩]⟩ /- MADI_TX_CS -/,
  ⟨0x400F3020, [(2, 4096), (64, 64), (6, 4)], false, [⟨0, 32, .rw, 0, 0⟩]⟩ /- MADI_TX_US -/]

/-- The NET registers (R495). -/
def netRows : List RegRow := [
  ⟨0x40100000, [], false, [⟨0, 6, .w1c, 0, 0⟩]⟩ /- NET_EVT_STATUS -/,
  ⟨0x40100100, [(2, 256)], false, [⟨0, 1, .rw, 0, 0⟩, ⟨1, 1, .rw, 0, 0⟩]⟩ /- NET_CFG -/,
  ⟨0x40100104, [(2, 256)], false, [⟨0, 1, .ro, 0, 0⟩, ⟨1, 1, .ro, 1, 0⟩]⟩ /- NET_STATUS -/,
  ⟨0x40100108, [(2, 256)], false, [⟨0, 32, .rw, 0, 0⟩]⟩ /- NET_MAC_LO -/,
  ⟨0x4010010C, [(2, 256)], false, [⟨0, 16, .rw, 0, 0⟩]⟩ /- NET_MAC_HI -/,
  ⟨0x40100110, [(2, 256)], false, [⟨0, 32, .rw, 0, 0⟩]⟩ /- NET_IPV4 -/,
  ⟨0x40100120, [(2, 256)], false, [⟨12, 20, .rw, 0, 0⟩]⟩ /- NET_CRX_BASE -/,
  ⟨0x40100124, [(2, 256)], false, [⟨0, 4, .rw, 4, 0⟩]⟩ /- NET_CRX_LEN -/,
  ⟨0x40100128, [(2, 256)], false, [⟨0, 8, .ro, 0, 0⟩]⟩ /- NET_CRX_WR -/,
  ⟨0x4010012C, [(2, 256)], false, [⟨0, 8, .rw, 0, 0⟩]⟩ /- NET_CRX_RD -/,
  ⟨0x40100130, [(2, 256)], false, [⟨12, 20, .rw, 0, 0⟩]⟩ /- NET_CTX_BASE -/,
  ⟨0x40100134, [(2, 256)], false, [⟨0, 4, .rw, 4, 0⟩]⟩ /- NET_CTX_LEN -/,
  ⟨0x40100138, [(2, 256)], false, [⟨0, 8, .rw, 0, 0⟩]⟩ /- NET_CTX_WR -/,
  ⟨0x4010013C, [(2, 256)], false, [⟨0, 8, .ro, 0, 0⟩]⟩ /- NET_CTX_RD -/,
  ⟨0x40100140, [(2, 256), (4, 4)], false, [⟨0, 16, .rw, 0, 0⟩, ⟨16, 16, .rw, 64, 0⟩]⟩ /- NET_RATE -/,
  ⟨0x40100150, [(2, 256)], false, [⟨0, 32, .rc, 0, 0⟩]⟩ /- NET_RX_OK -/,
  ⟨0x40100154, [(2, 256)], false, [⟨0, 32, .rc, 0, 0⟩]⟩ /- NET_RX_FILTER -/,
  ⟨0x40100158, [(2, 256)], false, [⟨0, 32, .rc, 0, 0⟩]⟩ /- NET_RX_ERR -/,
  ⟨0x4010015C, [(2, 256)], false, [⟨0, 32, .rc, 0, 0⟩]⟩ /- NET_RX_RATE -/,
  ⟨0x40100160, [(2, 256)], false, [⟨0, 32, .rc, 0, 0⟩]⟩ /- NET_RX_RING -/,
  ⟨0x40100164, [(2, 256)], false, [⟨0, 32, .rc, 0, 0⟩]⟩ /- NET_TX_OK -/,
  ⟨0x40100180, [(2, 256), (16, 8)], false, [⟨0, 32, .rw, 0, 0⟩]⟩ /- NET_MCAST_LO -/,
  ⟨0x40100184, [(2, 256), (16, 8)], false, [⟨0, 16, .rw, 0, 0⟩, ⟨31, 1, .rw, 0, 0⟩]⟩ /- NET_MCAST_HI -/]

/-- The FLOW registers (R496). -/
def flowRows : List RegRow := [
  ⟨0x40110000, [], false, [⟨0, 9, .w1c, 0, 0⟩]⟩ /- FLOW_EVT_STATUS -/,
  ⟨0x40110010, [(2, 4)], false, [⟨0, 14, .ro, 0, 0⟩]⟩ /- FLOW_LOAD -/,
  ⟨0x40110100, [(16, 16)], true, [⟨0, 10, .cp, 0, 64⟩, ⟨16, 11, .cp, 64, 0⟩]⟩ /- FLOW_RX_RANGE -/,
  ⟨0x40110108, [(16, 16)], true, [⟨0, 10, .cp, 0, 64⟩, ⟨16, 11, .cp, 64, 0⟩]⟩ /- FLOW_TX_RANGE -/]

/-- The SVL registers (R539). -/
def svlRows : List RegRow := [
  ⟨0x40120000, [], false, [⟨0, 1, .rw, 0, 0⟩, ⟨1, 2, .rw, 3, 0⟩]⟩ /- SVL_CTRL -/,
  ⟨0x40120004, [], false, [⟨0, 2, .ro, 0, 0⟩, ⟨2, 1, .ro, 0, 0⟩]⟩ /- SVL_STATUS -/,
  ⟨0x40120008, [], false, [⟨0, 32, .rc, 0, 0⟩]⟩ /- SVL_RETX -/,
  ⟨0x4012000C, [], false, [⟨0, 32, .rc, 0, 0⟩]⟩ /- SVL_NAK -/,
  ⟨0x40120010, [], false, [⟨0, 16, .rc, 0, 0⟩]⟩ /- SVL_FAILS -/,
  ⟨0x40120014, [], false, [⟨0, 4, .w1c, 0, 0⟩]⟩ /- SVL_EVT_STATUS -/]

/-- The DUO registers (R540). -/
def duoRows : List RegRow := [
  ⟨0x40130000, [], false, [⟨0, 1, .rw, 0, 0⟩, ⟨1, 1, .wo, 0, 0⟩, ⟨2, 1, .wo, 0, 0⟩, ⟨3, 1, .wo, 0, 0⟩, ⟨8, 1, .ro, 0, 0⟩, ⟨9, 1, .ro, 0, 0⟩, ⟨12, 3, .ro, 0, 0⟩]⟩ /- DUO_CTRL -/,
  ⟨0x40130008, [], true, [⟨0, 16, .cp, 0, 0⟩, ⟨16, 1, .cp, 0, 0⟩, ⟨17, 1, .cp, 1, 0⟩, ⟨18, 1, .cp, 0, 0⟩, ⟨19, 1, .cp, 0, 0⟩, ⟨20, 3, .cp, 0, 0⟩, ⟨23, 1, .cp, 0, 0⟩]⟩ /- DUO_CFG -/,
  ⟨0x40130010, [], false, [⟨0, 8, .rw, 3, 0⟩]⟩ /- DUO_TIMEOUT -/,
  ⟨0x40130014, [], false, [⟨0, 24, .rw, 30000, 0⟩]⟩ /- DUO_REVERT_HOLD -/,
  ⟨0x40130018, [], false, [⟨0, 16, .rw, 3000, 0⟩, ⟨16, 16, .rw, 9000, 0⟩]⟩ /- DUO_JOIN -/,
  ⟨0x4013001C, [], false, [⟨0, 16, .rw, 0, 0⟩, ⟨16, 16, .rw, 0, 0⟩]⟩ /- DUO_DYN -/,
  ⟨0x40130020, [], false, [⟨0, 1, .ro, 0, 0⟩, ⟨1, 1, .ro, 0, 0⟩, ⟨2, 1, .ro, 0, 0⟩, ⟨3, 1, .ro, 0, 0⟩, ⟨8, 24, .ro, 0, 0⟩]⟩ /- DUO_STATUS -/,
  ⟨0x40130024, [], false, [⟨0, 32, .ro, 0, 0⟩]⟩ /- DUO_ESC_OFS_LO -/,
  ⟨0x40130028, [], false, [⟨0, 32, .ro, 0, 0⟩]⟩ /- DUO_ESC_OFS_HI -/,
  ⟨0x4013002C, [], false, [⟨0, 16, .ro, 0, 0⟩]⟩ /- DUO_DIVERGE -/,
  ⟨0x40130030, [], false, [⟨0, 8, .rw, 0, 0⟩, ⟨8, 8, .rw, 0, 0⟩, ⟨16, 2, .rw, 0, 0⟩]⟩ /- DUO_MIRROR -/,
  ⟨0x40130038, [], false, [⟨0, 32, .rw, 0, 0⟩]⟩ /- DUO_NHB_ADDR -/,
  ⟨0x4013003C, [], false, [⟨0, 16, .rw, 9616, 0⟩]⟩ /- DUO_NHB_PORT -/,
  ⟨0x40130040, [], false, [⟨0, 8, .ro, 0, 0⟩, ⟨8, 24, .ro, 0, 0⟩]⟩ /- DUO_SYNC -/,
  ⟨0x40130044, [], false, [⟨0, 16, .rc, 0, 0⟩, ⟨16, 16, .rc, 0, 0⟩]⟩ /- DUO_COUNT -/,
  ⟨0x40130048, [], false, [⟨0, 14, .w1c, 0, 0⟩]⟩ /- DUO_EVT_STATUS -/]

/-- The CUE registers (R569). -/
def cueRows : List RegRow := [
  ⟨0x40140000, [], false, [⟨0, 1, .rw, 0, 0⟩]⟩ /- CUE_CTRL -/,
  ⟨0x40140004, [], false, [⟨0, 16, .w1c, 0, 0⟩]⟩ /- CUE_EVT_STATUS -/,
  ⟨0x40140010, [], false, [⟨0, 1, .rw, 0, 0⟩]⟩ /- CUE_JACK_CFG -/,
  ⟨0x40140014, [], false, [⟨0, 3, .ro, 0, 0⟩, ⟨3, 1, .ro, 0, 0⟩, ⟨8, 8, .ro, 0, 0⟩, ⟨16, 8, .ro, 0, 0⟩]⟩ /- CUE_JACK_STATUS -/,
  ⟨0x40140020, [], false, [⟨0, 1, .rw, 0, 0⟩, ⟨1, 1, .rw, 0, 0⟩, ⟨4, 4, .rw, 0, 0⟩, ⟨8, 1, .rw, 0, 0⟩]⟩ /- CUE_MIC_CFG -/,
  ⟨0x40140024, [], false, [⟨0, 7, .rw, 20, 0⟩, ⟨8, 6, .rw, 10, 0⟩, ⟨16, 1, .rw, 0, 0⟩]⟩ /- CUE_BTN_CFG -/,
  ⟨0x40140028, [], false, [⟨0, 4, .ro, 0, 0⟩, ⟨8, 8, .ro, 0, 0⟩]⟩ /- CUE_BTN_STATUS -/,
  ⟨0x40140030, [(4, 4)], false, [⟨0, 8, .rw, 0, 0⟩, ⟨8, 8, .rw, 0, 0⟩, ⟨16, 1, .rw, 0, 0⟩]⟩ /- CUE_BTN_TH -/,
  ⟨0x40140040, [], false, [⟨0, 1, .rw, 0, 0⟩, ⟨1, 1, .rw, 0, 0⟩]⟩ /- CUE_HP_CFG -/,
  ⟨0x40140044, [], false, [⟨0, 1, .rw, 0, 0⟩]⟩ /- CUE_SPK_CFG -/,
  ⟨0x40140048, [], false, [⟨0, 3, .ro, 0, 0⟩, ⟨4, 3, .ro, 0, 0⟩, ⟨8, 1, .w1c, 0, 0⟩, ⟨16, 8, .ro, 0, 0⟩]⟩ /- CUE_SPK_STATUS -/,
  ⟨0x4014004C, [], false, [⟨0, 3, .w1c, 0, 0⟩, ⟨4, 1, .ro, 0, 0⟩]⟩ /- CUE_OUT_STATUS -/,
  ⟨0x40140050, [(2, 4)], false, [⟨0, 1, .rw, 0, 0⟩, ⟨1, 7, .rw, 90, 0⟩, ⟨8, 4, .rw, 6, 0⟩, ⟨12, 12, .rw, 60, 0⟩]⟩ /- CUE_SIL_CFG -/,
  ⟨0x40140058, [], false, [⟨0, 1, .rw, 0, 0⟩]⟩ /- CUE_SIL_CTRL -/,
  ⟨0x4014005C, [], false, [⟨0, 2, .ro, 0, 0⟩]⟩ /- CUE_SIL_STATUS -/,
  ⟨0x40140060, [], false, [⟨0, 1, .rw, 0, 0⟩, ⟨4, 4, .rw, 0, 0⟩, ⟨8, 4, .rw, 0, 0⟩]⟩ /- CUE_LISTEN -/,
  ⟨0x40140064, [], false, [⟨0, 1, .w1c, 0, 0⟩]⟩ /- CUE_LISTEN_STATUS -/,
  ⟨0x40140068, [], false, [⟨2, 30, .rw, 0, 0⟩]⟩ /- CUE_RING_BASE -/,
  ⟨0x4014006C, [], false, [⟨0, 32, .ro, 0, 0⟩]⟩ /- CUE_RING_CNT_LO -/,
  ⟨0x40140070, [], false, [⟨0, 32, .ro, 0, 0⟩]⟩ /- CUE_RING_CNT_HI -/,
  ⟨0x40140074, [], false, [⟨0, 32, .ro, 0, 0⟩]⟩ /- CUE_RING_TICK -/,
  ⟨0x40140080, [], false, [⟨0, 32, .rw, 0, 0⟩]⟩ /- CUE_FETCH_FROM_LO -/,
  ⟨0x40140084, [], false, [⟨0, 32, .rw, 0, 0⟩]⟩ /- CUE_FETCH_FROM_HI -/,
  ⟨0x40140088, [], false, [⟨0, 13, .rw, 0, 0⟩, ⟨15, 1, .rw, 0, 0⟩, ⟨16, 16, .rw, 0, 0⟩]⟩ /- CUE_FETCH_CFG -/,
  ⟨0x4014008C, [], false, [⟨0, 1, .wo, 0, 0⟩, ⟨16, 12, .wo, 0, 0⟩]⟩ /- CUE_FETCH_CTRL -/,
  ⟨0x40140090, [], false, [⟨0, 1, .ro, 0, 0⟩, ⟨1, 1, .w1c, 0, 0⟩, ⟨2, 1, .w1c, 0, 0⟩]⟩ /- CUE_FETCH_STATUS -/]

/-- The ASSAY registers (R686). -/
def assayRows : List RegRow := [
  ⟨0x40150000, [], false, [⟨0, 1, .rw, 1, 0⟩]⟩ /- ASSAY_CTRL -/,
  ⟨0x40150004, [], false, [⟨0, 9, .w1c, 0, 0⟩]⟩ /- ASSAY_EVT_STATUS -/,
  ⟨0x40150008, [], false, [⟨0, 9, .ro, 0, 0⟩, ⟨16, 9, .ro, 0, 0⟩, ⟨31, 1, .ro, 0, 0⟩]⟩ /- ASSAY_STATUS -/,
  ⟨0x4015000C, [], false, [⟨0, 32, .ro, 0, 0⟩]⟩ /- ASSAY_SWEEPS -/,
  ⟨0x40150010, [], false, [⟨0, 32, .rc, 0, 0⟩]⟩ /- ASSAY_WRITE_CNT -/,
  ⟨0x40150014, [], false, [⟨0, 32, .rc, 0, 0⟩]⟩ /- ASSAY_HELD_CNT -/,
  ⟨0x40150018, [], false, [⟨0, 32, .rc, 0, 0⟩]⟩ /- ASSAY_MOTION_DMA -/,
  ⟨0x4015001C, [], false, [⟨0, 32, .rc, 0, 0⟩]⟩ /- ASSAY_MOTION_MBX -/,
  ⟨0x40150020, [], false, [⟨0, 32, .rc, 0, 0⟩]⟩ /- ASSAY_MOTION_SVL -/,
  ⟨0x40150030, [], false, [⟨0, 32, .wo, 0, 0⟩]⟩ /- ASSAY_QCLR -/,
  ⟨0x40150400, [(256, 4)], false, [⟨0, 1, .ro, 0, 0⟩, ⟨2, 30, .ro, 0, 0⟩]⟩ /- ASSAY_QLIST -/]

/-- The ADAPT registers (R687). -/
def adaptRows : List RegRow := [
  ⟨0x40160000, [], false, [⟨0, 2, .ro, 0, 0⟩, ⟨4, 2, .ro, 0, 0⟩, ⟨8, 1, .ro, 0, 0⟩, ⟨9, 1, .ro, 0, 0⟩, ⟨10, 1, .ro, 0, 0⟩, ⟨11, 1, .ro, 0, 0⟩, ⟨16, 4, .ro, 0, 0⟩]⟩ /- ADAPT_STATUS -/,
  ⟨0x40160004, [], false, [⟨0, 7, .w1c, 0, 0⟩]⟩ /- ADAPT_EVT_STATUS -/,
  ⟨0x40160010, [], true, [⟨0, 1, .cp, 1, 0⟩, ⟨1, 1, .cp, 1, 0⟩, ⟨2, 1, .cp, 0, 0⟩, ⟨8, 2, .cp, 0, 0⟩, ⟨16, 5, .cp, 8, 0⟩]⟩ /- ADAPT_POLICY -/,
  ⟨0x40160018, [], true, [⟨0, 10, .cp, 650, 0⟩, ⟨16, 10, .cp, 850, 0⟩]⟩ /- ADAPT_AVS_CFG -/,
  ⟨0x40160020, [], true, [⟨0, 7, .cp, 100, 0⟩]⟩ /- ADAPT_THERM_CFG -/,
  ⟨0x40160028, [], false, [⟨0, 8, .rw, 20, 0⟩, ⟨8, 8, .rw, 50, 0⟩]⟩ /- ADAPT_AVS_MARGIN -/,
  ⟨0x4016002C, [], false, [⟨0, 10, .ro, 850, 0⟩]⟩ /- ADAPT_AVS_REQ -/,
  ⟨0x40160030, [], false, [⟨0, 10, .ro, 0, 0⟩]⟩ /- ADAPT_AVS_MEAS -/,
  ⟨0x40160034, [], false, [⟨0, 12, .ro, 0, 0⟩, ⟨16, 12, .ro, 2400, 0⟩]⟩ /- ADAPT_RO -/,
  ⟨0x40160040, [(4, 4)], false, [⟨0, 11, .ro, 0, 0⟩]⟩ /- ADAPT_TEMP -/,
  ⟨0x40160050, [], false, [⟨0, 7, .rw, 95, 0⟩, ⟨8, 7, .rw, 70, 0⟩]⟩ /- ADAPT_LOAD_CFG -/,
  ⟨0x40160054, [], false, [⟨0, 7, .ro, 0, 0⟩]⟩ /- ADAPT_LOAD -/,
  ⟨0x40160058, [], false, [⟨0, 24, .rw, 3000, 0⟩]⟩ /- ADAPT_DWELL -/]

/-- The PCIE registers (R603). -/
def pcieRows : List RegRow := [
  ⟨0x40170000, [], false, [⟨0, 1, .ro, 0, 0⟩, ⟨1, 2, .ro, 0, 0⟩, ⟨3, 1, .ro, 0, 0⟩, ⟨4, 1, .ro, 0, 0⟩, ⟨16, 16, .ro, 0, 0⟩]⟩ /- PCIE_STATUS -/,
  ⟨0x40170004, [], false, [⟨0, 5, .w1c, 0, 0⟩]⟩ /- PCIE_EVT_STATUS -/,
  ⟨0x40170008, [], false, [⟨0, 16, .rw, 0, 0⟩, ⟨16, 16, .rw, 0, 0⟩]⟩ /- PCIE_SUBSYS -/,
  ⟨0x4017000C, [], false, [⟨0, 16, .ro, 0, 0⟩]⟩ /- PCIE_VENDOR -/,
  ⟨0x40170010, [], false, [⟨0, 32, .wo, 0, 0⟩]⟩ /- PCIE_PF_MSI_TRIG -/,
  ⟨0x40170014, [], false, [⟨0, 16, .ro, 0, 0⟩, ⟨16, 1, .ro, 0, 0⟩]⟩ /- PCIE_FLR_PEND -/,
  ⟨0x40170040, [(16, 4)], false, [⟨4, 4, .wo, 0, 0⟩]⟩ /- PCIE_VF_TRIG -/,
  ⟨0x40170080, [(16, 4)], false, [⟨14, 18, .rw, 0, 0⟩]⟩ /- PCIE_VF_APERTURE -/,
  ⟨0x40170100, [], false, [⟨0, 32, .rw, 0, 0⟩]⟩ /- PCIE_BOOT_HADDR_LO -/,
  ⟨0x40170104, [], false, [⟨0, 32, .rw, 0, 0⟩]⟩ /- PCIE_BOOT_HADDR_HI -/,
  ⟨0x40170108, [], false, [⟨0, 1, .wo, 0, 0⟩]⟩ /- PCIE_BOOT_CTRL -/,
  ⟨0x4017010C, [], false, [⟨0, 3, .ro, 0, 0⟩, ⟨4, 2, .ro, 0, 0⟩, ⟨8, 4, .ro, 0, 0⟩]⟩ /- PCIE_BOOT_STATUS -/,
  ⟨0x40178000, [(32, 16), (3, 4)], false, [⟨0, 32, .rw, 0, 0⟩]⟩ /- MSI-X table address and data -/,
  ⟨0x4017800C, [(32, 16)], false, [⟨0, 1, .rw, 1, 0⟩]⟩ /- MSI-X vector control -/,
  ⟨0x40179000, [], false, [⟨0, 32, .ro, 0, 0⟩]⟩ /- PCIE_PBA -/]

/-- The TWB registers (R605). -/
def twbRows : List RegRow := [
  ⟨0x40180000, [], false, [⟨0, 1, .rw, 0, 0⟩, ⟨1, 1, .rw, 0, 0⟩]⟩ /- TWB_CTRL -/,
  ⟨0x40180004, [], false, [⟨0, 2, .rw, 0, 0⟩, ⟨2, 1, .rw, 0, 0⟩, ⟨8, 8, .rw, 100, 0⟩, ⟨16, 8, .rw, 20, 0⟩]⟩ /- TWB_CFG -/,
  ⟨0x40180008, [], false, [⟨0, 6, .rw, 8, 0⟩, ⟨8, 6, .rw, 10, 0⟩, ⟨16, 8, .rw, 24, 0⟩]⟩ /- TWB_TIMING -/,
  ⟨0x40180010, [], false, [⟨0, 7, .rw, 0, 0⟩, ⟨8, 1, .rw, 0, 0⟩, ⟨12, 4, .rw, 0, 0⟩, ⟨16, 1, .rw, 0, 0⟩, ⟨24, 7, .rw, 127, 0⟩]⟩ /- TWB_ADDR[0] -/,
  ⟨0x40180014, [(3, 4)], false, [⟨0, 7, .rw, 0, 0⟩, ⟨8, 1, .rw, 0, 0⟩, ⟨12, 4, .rw, 0, 0⟩, ⟨16, 1, .rw, 0, 0⟩]⟩ /- TWB_ADDR[1–3] -/,
  ⟨0x40180020, [], false, [⟨0, 1, .ro, 0, 0⟩, ⟨1, 1, .ro, 0, 0⟩, ⟨8, 7, .ro, 0, 0⟩]⟩ /- TWB_STATUS -/,
  ⟨0x40180024, [], false, [⟨0, 16, .rc, 0, 0⟩, ⟨16, 16, .rc, 0, 0⟩]⟩ /- TWB_COUNT -/,
  ⟨0x40180028, [], false, [⟨0, 5, .w1c, 0, 0⟩]⟩ /- TWB_EVT_STATUS -/]

/-- The QSPI registers (R604). -/
def qspiRows : List RegRow := [
  ⟨0x40190000, [], false, [⟨0, 1, .rw, 0, 0⟩]⟩ /- QSPI_CTRL -/,
  ⟨0x40190004, [], false, [⟨0, 8, .rw, 200, 0⟩]⟩ /- QSPI_CLK -/,
  ⟨0x40190008, [], false, [⟨0, 8, .rw, 0, 0⟩, ⟨8, 2, .rw, 0, 0⟩, ⟨10, 2, .rw, 0, 0⟩, ⟨12, 4, .rw, 0, 0⟩, ⟨16, 9, .rw, 0, 0⟩, ⟨28, 1, .rw, 0, 0⟩, ⟨31, 1, .wo, 0, 0⟩]⟩ /- QSPI_CMD -/,
  ⟨0x4019000C, [], false, [⟨0, 32, .rw, 0, 0⟩]⟩ /- QSPI_ADDR -/,
  ⟨0x40190010, [], false, [⟨0, 1, .ro, 0, 0⟩, ⟨1, 1, .w1c, 0, 0⟩]⟩ /- QSPI_STATUS -/,
  ⟨0x40190014, [], false, [⟨0, 2, .w1c, 0, 0⟩]⟩ /- QSPI_EVT_STATUS -/,
  ⟨0x40190100, [(64, 4)], false, [⟨0, 32, .rw, 0, 0⟩]⟩ /- QSPI_DATA -/]

/-- The WDT registers (R633). -/
def wdtRows : List RegRow := [
  ⟨0x401A0000, [], false, [⟨0, 1, .wo, 0, 0⟩, ⟨1, 1, .ro, 0, 0⟩, ⟨2, 1, .ro, 0, 0⟩]⟩ /- WDT_CTRL -/,
  ⟨0x401A0004, [], false, [⟨0, 22, .rw, 65536, 0⟩]⟩ /- WDT_PERIOD -/,
  ⟨0x401A0008, [], false, [⟨0, 32, .wo, 0, 0⟩]⟩ /- WDT_SERVICE -/,
  ⟨0x401A000C, [], false, [⟨0, 22, .ro, 0, 0⟩]⟩ /- WDT_COUNT -/,
  ⟨0x401A0010, [], false, [⟨0, 2, .ro, 0, 0⟩, ⟨2, 1, .ro, 0, 0⟩]⟩ /- WDT_FUSES -/,
  ⟨0x401A0014, [], false, [⟨0, 1, .ro, 0, 0⟩, ⟨1, 1, .ro, 0, 0⟩, ⟨2, 1, .w1c, 0, 0⟩]⟩ /- WDT_STATUS -/,
  ⟨0x401A0018, [], false, [⟨0, 2, .w1c, 0, 0⟩]⟩ /- WDT_EVT_STATUS -/]

/-- The SEC registers (R664). -/
def secRows : List RegRow := [
  ⟨0x401B0000, [], false, [⟨0, 3, .ro, 0, 0⟩, ⟨4, 1, .ro, 0, 0⟩, ⟨8, 4, .ro, 0, 0⟩, ⟨16, 6, .ro, 0, 0⟩]⟩ /- SEC_STATUS -/,
  ⟨0x401B0004, [], false, [⟨0, 16, .w1c, 0, 0⟩]⟩ /- SEC_CONSENT -/,
  ⟨0x401B0008, [], false, [⟨0, 32, .wo, 0, 0⟩]⟩ /- SEC_KEY -/,
  ⟨0x401B000C, [], false, [⟨0, 2, .key, 0, 0⟩, ⟨31, 1, .key, 0, 0⟩]⟩ /- SEC_LC_CMD -/,
  ⟨0x401B0010, [], false, [⟨0, 3, .w1c, 0, 0⟩]⟩ /- SEC_EVT_STATUS -/]

/-- The DBG registers (R664). -/
def dbgRows : List RegRow := [
  ⟨0x401C0000, [], false, [⟨0, 2, .ro, 0, 0⟩, ⟨2, 1, .ro, 0, 0⟩, ⟨3, 1, .ro, 0, 0⟩]⟩ /- DBG_STATUS -/,
  ⟨0x401C0004, [], false, [⟨0, 16, .wo, 0, 0⟩, ⟨16, 1, .wo, 0, 0⟩, ⟨17, 2, .wo, 0, 0⟩, ⟨31, 1, .wo, 0, 0⟩]⟩ /- DBG_REQ -/,
  ⟨0x401C0008, [], false, [⟨0, 17, .ro, 0, 0⟩]⟩ /- DBG_SCOPE -/,
  ⟨0x401C000C, [], false, [⟨0, 1, .rw, 0, 0⟩, ⟨1, 1, .rw, 0, 0⟩, ⟨2, 1, .rw, 0, 0⟩, ⟨3, 1, .rw, 0, 0⟩, ⟨8, 1, .wo, 0, 0⟩]⟩ /- DBG_CTRL -/,
  ⟨0x401C0010, [], false, [⟨0, 1, .wo, 0, 0⟩]⟩ /- DBG_AUTH -/,
  ⟨0x401C0020, [(8, 4)], false, [⟨0, 32, .ro, 0, 0⟩]⟩ /- DBG_CHAL -/,
  ⟨0x401C0040, [(8, 4)], false, [⟨0, 32, .wo, 0, 0⟩]⟩ /- DBG_RESP -/,
  ⟨0x401C0060, [], false, [⟨0, 17, .wo, 0, 0⟩]⟩ /- DBG_HALT -/,
  ⟨0x401C0064, [], false, [⟨0, 17, .wo, 0, 0⟩]⟩ /- DBG_RESUME -/,
  ⟨0x401C0068, [], false, [⟨0, 17, .wo, 0, 0⟩]⟩ /- DBG_STEP -/,
  ⟨0x401C006C, [], false, [⟨0, 17, .ro, 0, 0⟩]⟩ /- DBG_HALTED -/,
  ⟨0x401C0070, [], false, [⟨0, 1, .wo, 0, 0⟩]⟩ /- DBG_CMD -/,
  ⟨0x401C0080, [(4, 8)], false, [⟨0, 32, .rw, 0, 0⟩]⟩ /- DBG_WP_ADDR -/,
  ⟨0x401C0084, [(4, 8)], false, [⟨0, 17, .rw, 0, 0⟩, ⟨17, 1, .rw, 0, 0⟩, ⟨18, 1, .rw, 0, 0⟩, ⟨19, 1, .rw, 0, 0⟩, ⟨24, 5, .rw, 0, 0⟩]⟩ /- DBG_WP_CFG -/,
  ⟨0x401C00A0, [], false, [⟨0, 6, .w1c, 0, 0⟩]⟩ /- DBG_EVT_STATUS -/]

/-- The FUSE registers (R664). -/
def fuseRows : List RegRow := [
  ⟨0x401D0000, [], false, [⟨0, 1, .ro, 0, 0⟩, ⟨1, 6, .ro, 0, 0⟩]⟩ /- FUSE_STATUS -/,
  ⟨0x401D0004, [], false, [⟨0, 32, .wo, 0, 0⟩]⟩ /- FUSE_KEY -/,
  ⟨0x401D0008, [], false, [⟨0, 11, .rw, 0, 0⟩]⟩ /- FUSE_PROG_BIT -/,
  ⟨0x401D000C, [], false, [⟨0, 1, .key, 0, 0⟩]⟩ /- FUSE_PROG_CTRL -/,
  ⟨0x401D0010, [], false, [⟨0, 1, .ro, 0, 0⟩, ⟨1, 1, .w1c, 0, 0⟩]⟩ /- FUSE_PROG_STATUS -/,
  ⟨0x401D0014, [], false, [⟨0, 3, .w1c, 0, 0⟩]⟩ /- FUSE_EVT_STATUS -/,
  ⟨0x401D0100, [(64, 4)], false, [⟨0, 32, .ro, 0, 0⟩]⟩ /- FUSE_SHADOW -/]

/-- The PWR registers (R631). -/
def pwrRows : List RegRow := [
  ⟨0x401E0000, [], false, [⟨0, 2, .ro, 0, 0⟩, ⟨4, 1, .ro, 0, 0⟩, ⟨5, 1, .ro, 0, 0⟩, ⟨6, 1, .ro, 0, 0⟩]⟩ /- PWR_STATUS -/,
  ⟨0x401E0004, [], false, [⟨0, 2, .wo, 0, 0⟩]⟩ /- PWR_CMD -/,
  ⟨0x401E0008, [], false, [⟨0, 1, .rw, 0, 0⟩, ⟨1, 1, .rw, 0, 0⟩, ⟨2, 1, .rw, 1, 0⟩, ⟨3, 1, .rw, 0, 0⟩]⟩ /- PWR_CFG -/,
  ⟨0x401E000C, [], false, [⟨0, 32, .wo, 0, 0⟩]⟩ /- PWR_KEY -/,
  ⟨0x401E0010, [], false, [⟨0, 16, .rw, 32767, 0⟩]⟩ /- PWR_IDLE_CORES -/,
  ⟨0x401E0014, [], false, [⟨0, 10, .rw, 0, 0⟩]⟩ /- PWR_LISTEN_KEEP -/,
  ⟨0x401E0018, [], false, [⟨0, 1, .wo, 0, 0⟩]⟩ /- PWR_REQ -/,
  ⟨0x401E0020, [], false, [⟨0, 4, .ro, 1, 0⟩, ⟨8, 8, .w1c, 0, 0⟩, ⟨16, 2, .ro, 0, 0⟩]⟩ /- PWR_RESET_CAUSE -/,
  ⟨0x401E0024, [], false, [⟨0, 3, .ro, 0, 0⟩]⟩ /- PWR_WAKE_CAUSE -/,
  ⟨0x401E0028, [], false, [⟨0, 5, .w1c, 0, 0⟩]⟩ /- PWR_EVT_STATUS -/,
  ⟨0x401E0030, [], false, [⟨0, 1, .rw, 0, 0⟩]⟩ /- PWR_KEEP_CFG -/,
  ⟨0x401E0040, [(6, 4)], false, [⟨0, 1, .rw, 0, 0⟩, ⟨1, 1, .rw, 0, 0⟩, ⟨2, 2, .rw, 0, 0⟩, ⟨4, 4, .rw, 0, 0⟩, ⟨8, 1, .rw, 0, 0⟩]⟩ /- PWR_GPIO_CFG -/,
  ⟨0x401E0060, [], false, [⟨0, 6, .rw, 0, 0⟩]⟩ /- PWR_GPIO_OUT -/,
  ⟨0x401E0064, [], false, [⟨0, 6, .ro, 0, 0⟩]⟩ /- PWR_GPIO_IN -/,
  ⟨0x401E0100, [(64, 4)], false, [⟨0, 32, .rw, 0, 0⟩]⟩ /- PWR_KEEP -/]

/-- The CORE registers (R191). -/
def coreRows : List RegRow := [
  ⟨0x40200000, [(17, 65536)], false, [⟨0, 3, .ro, 0, 0⟩, ⟨4, 2, .ro, 0, 0⟩, ⟨6, 2, .ro, 0, 0⟩, ⟨8, 3, .ro, 0, 0⟩, ⟨11, 1, .ro, 0, 0⟩, ⟨12, 1, .ro, 0, 0⟩]⟩ /- CORE_STATUS -/,
  ⟨0x40200004, [(17, 65536)], false, [⟨0, 1, .rw, 0, 0⟩]⟩ /- CORE_CTRL -/,
  ⟨0x40200008, [(17, 65536)], false, [⟨0, 1, .rw, 0, 0⟩, ⟨1, 1, .rw, 1, 0⟩]⟩ /- CORE_MODE_INIT -/,
  ⟨0x40200010, [(17, 65536)], true, [⟨0, 4, .cp, 0, 0⟩]⟩ /- CORE_TENANT -/,
  ⟨0x40200018, [(17, 65536)], false, [⟨10, 6, .rw, 0, 0⟩]⟩ /- CORE_TRAP_VBASE -/,
  ⟨0x4020001C, [(17, 65536)], false, [⟨0, 17, .rw, 0, 0⟩]⟩ /- CORE_TRAP_HANDLE -/,
  ⟨0x40200020, [(17, 65536)], false, [⟨0, 5, .ro, 0, 0⟩, ⟨8, 1, .ro, 0, 0⟩, ⟨16, 16, .ro, 0, 0⟩]⟩ /- CORE_LAST_CAUSE -/,
  ⟨0x40200024, [(17, 65536)], false, [⟨0, 32, .ro, 0, 0⟩]⟩ /- CORE_LAST_PC -/,
  ⟨0x40200028, [(17, 65536)], false, [⟨0, 32, .ro, 0, 0⟩]⟩ /- CORE_LAST_ADDR -/,
  ⟨0x40200030, [(17, 65536)], false, [⟨0, 32, .ro, 0, 0⟩]⟩ /- CORE_CYCLES_LO -/,
  ⟨0x40200034, [(17, 65536)], false, [⟨0, 32, .ro, 0, 0⟩]⟩ /- CORE_CYCLES_HI -/,
  ⟨0x40200038, [(17, 65536)], false, [⟨0, 32, .rc, 0, 0⟩]⟩ /- CORE_STALLS -/,
  ⟨0x4020003C, [(17, 65536)], false, [⟨0, 32, .rc, 0, 0⟩]⟩ /- CORE_DMA_SLOTS -/,
  ⟨0x40200040, [(17, 65536)], false, [⟨0, 16, .rc, 0, 0⟩]⟩ /- CORE_LOCK_BREAKS -/,
  ⟨0x40200044, [(17, 65536)], false, [⟨0, 6, .w1c, 0, 0⟩]⟩ /- CORE_EVT_STATUS -/,
  ⟨0x40300080, [], false, [⟨0, 31, .ro, 0, 0⟩, ⟨31, 1, .ro, 0, 0⟩]⟩ /- CC_IRQ_STATUS -/,
  ⟨0x40300084, [], false, [⟨0, 32, .rw, 0, 0⟩]⟩ /- CC_IRQ_EN -/,
  ⟨0x40300088, [], false, [⟨10, 8, .rw, 0, 0⟩]⟩ /- CC_MON_VBASE -/,
  ⟨0x4030008C, [], false, [⟨0, 17, .ro, 0, 0⟩]⟩ /- CC_IRQ_CORE -/]

/-- The rows of the block whose registers start at `0x4000_0000 + k × 0x1_0000`
(R31). Block IDs 0x20 to 0x30 are the per-core control blocks. -/
def blockRows (k : Nat) : List RegRow :=
  match k with
  | 0x00 => sysRows | 0x01 => clkRows | 0x02 => refRows | 0x03 => timeRows
  | 0x04 => taqRows | 0x05 => schedRows | 0x06 => ingotRows | 0x07 => xlatRows
  | 0x08 => dmaRows | 0x09 => mbxRows | 0x0A => routeRows | 0x0B => sumxRows
  | 0x0C => eqaRows | 0x0D => safeRows | 0x0E => sapRows | 0x0F => madiRows
  | 0x10 => netRows | 0x11 => flowRows | 0x12 => svlRows | 0x13 => duoRows
  | 0x14 => cueRows | 0x15 => assayRows | 0x16 => adaptRows | 0x17 => pcieRows
  | 0x18 => twbRows | 0x19 => qspiRows | 0x1A => wdtRows | 0x1B => secRows
  | 0x1C => dbgRows | 0x1D => fuseRows | 0x1E => pwrRows
  | k => if 0x20 ≤ k ∧ k ≤ 0x30 then coreRows else []

/-- The first index of offset `off` in an array with the given dimensions, when
the offset is the start of an element. -/
def dimIndex : List (Nat × Nat) → Nat → Option Nat
  | [], off => if off = 0 then some 0 else none
  | (n, s) :: ds, off =>
    if off / s < n then (dimIndex ds (off % s)).map (fun _ => off / s) else none

/-- The row that holds the register word at address `a`, and its first index. -/
def findRow (a : Nat) : List RegRow → Option (RegRow × Nat)
  | [] => none
  | r :: rs =>
    if r.base ≤ a then
      match dimIndex r.dims (a - r.base) with
      | some i => some (r, i)
      | none => findRow a rs
    else findRow a rs

/-- The row of the register at word address `a` (R31). -/
def rowAt (a : Nat) : Option (RegRow × Nat) :=
  if 0x40000000 ≤ a ∧ a < 0x40310000 then findRow a (blockRows ((a - 0x40000000) / 0x10000))
  else none

/-- The value the fields of a row give register `i` of it at reset. -/
def RegRow.resetVal (r : RegRow) (i : Nat) : Word :=
  r.fields.foldl
    (fun w f => w ||| (BitVec.ofNat 32 ((f.reset + i * f.step) % 2 ^ f.width) <<< f.lo)) 0#32

/-- What the words of the table apertures of R32 hold at reset: TAQ entries
(R135: complements of zero), patch entries (R385), contributions (R393), EQA
sections (R407) and flow control words (R471: complement of a zero CP word);
every other aperture word resets to zero. -/
def apertureReset (a : Nat) : Word :=
  if 0x50000000 ≤ a ∧ a < 0x50010000 then 0xE0001FFF#32
  else if 0x50100000 ≤ a ∧ a < 0x50200000 then
    (if a % 8 = 0 then 0xE0001FFF#32 else 0xFF000000#32)
  else if 0x50200000 ≤ a ∧ a < 0x502F0000 then
    (if (a - (if a < 0x50278000 then 0x50200000 else 0x50278000)) % 20 = 0 then 0x40000000#32
     else 0#32)
  else if 0x50300000 ≤ a ∧ a < 0x50320000 then
    (if a % 64 = 0x3C then 0xFFFFFFFF#32 else 0#32)
  else if 0x50400000 ≤ a ∧ a < 0x50408000 then
    (if a % 8 = 4 then 0xFFFFFFFF#32 else 0#32)
  else 0#32

/-- The word at address `a` of the block registers and the table apertures right
after reset. The odd word of a complement-paired register holds the complement
of its even word (R12). -/
def resetWord (a : Nat) : Word :=
  if a < 0x50000000 then
    match rowAt a with
    | some (r, i) => r.resetVal i
    | none =>
      match rowAt (a - 4) with
      | some (r, i) => if r.cp then ~~~ (r.resetVal i) else 0#32
      | none => 0#32
  else apertureReset a

/-- `a` is the even word of a complement-paired register. -/
def isCpEven (a : Nat) : Bool :=
  match rowAt a with
  | some (r, _) => r.cp
  | none => false

/-- `a` is the odd word of a complement-paired register. -/
def isCpOdd (a : Nat) : Bool := decide (4 ≤ a) && isCpEven (a - 4)

end Sys2Proof.Machine
end

