-- ==== Sys2Proof/Machine/Regs.lean ====
section
/-!
DEFINITION. The manual's names of the registers and fields that the meanings
use: the address of each register (an index argument for each index of an
array, R31) and, for each field, its register's address, lowest bit and width.
-/
namespace Sys2Proof.Machine

/-- A field of a register: the register's address, the lowest bit, the width. -/
structure Fld where
  addr  : Nat
  lo    : Nat
  width : Nat
  deriving DecidableEq, Repr

/-- R43. -/
def SYS_RESET : Nat := 0x40000008
/-- R43. -/
def TICK_CFG : Nat := 0x40000010
def TICK_CFG_LEN : Fld := ⟨TICK_CFG, 0, 3⟩
def TICK_CFG_RATE : Fld := ⟨TICK_CFG, 4, 1⟩
def TICK_CFG_RUN : Fld := ⟨TICK_CFG, 8, 1⟩
def TICK_CFG_STOPPED : Fld := ⟨TICK_CFG, 16, 1⟩
/-- R43. -/
def SYS_ESC_LO : Nat := 0x40000018
/-- R43. -/
def SYS_ESC_HI : Nat := 0x4000001C
/-- R43. -/
def SYS_EVR_BASE : Nat := 0x40000030
def SYS_EVR_BASE_ADDR : Fld := ⟨SYS_EVR_BASE, 12, 20⟩
/-- R43. -/
def SYS_EVR_LEN : Nat := 0x40000034
def SYS_EVR_LEN_LOG2 : Fld := ⟨SYS_EVR_LEN, 0, 5⟩
/-- R43. -/
def SYS_EVR_WR : Nat := 0x40000038
def SYS_EVR_WR_IDX : Fld := ⟨SYS_EVR_WR, 0, 15⟩
/-- R43. -/
def SYS_EVR_RD : Nat := 0x4000003C
def SYS_EVR_RD_IDX : Fld := ⟨SYS_EVR_RD, 0, 15⟩
/-- R43. -/
def SYS_EVR_DROP : Nat := 0x40000040
def SYS_EVR_DROP_COUNT : Fld := ⟨SYS_EVR_DROP, 0, 32⟩
/-- R43. -/
def SYS_EVT_STATUS : Nat := 0x40000044
def SYS_EVT_STATUS_EVR_OVF : Fld := ⟨SYS_EVT_STATUS, 2, 1⟩
/-- R78. -/
def CLK_STATUS : Nat := 0x40010000
def CLK_STATUS_STATE : Fld := ⟨CLK_STATUS, 0, 3⟩
def CLK_STATUS_LOCK : Fld := ⟨CLK_STATUS, 3, 1⟩
def CLK_STATUS_NOBAND : Fld := ⟨CLK_STATUS, 4, 1⟩
def CLK_STATUS_STEP_PEND : Fld := ⟨CLK_STATUS, 5, 1⟩
def CLK_STATUS_XFAIL : Fld := ⟨CLK_STATUS, 6, 1⟩
def CLK_STATUS_CORE_SLOW : Fld := ⟨CLK_STATUS, 7, 1⟩
def CLK_STATUS_RELOCK : Fld := ⟨CLK_STATUS, 8, 1⟩
def CLK_STATUS_BAND : Fld := ⟨CLK_STATUS, 16, 5⟩
/-- R78. -/
def CLK_CTRL : Nat := 0x40010004
def CLK_CTRL_PLL_EN : Fld := ⟨CLK_CTRL, 0, 1⟩
/-- R78. -/
def CLK_SEL : Nat := 0x40010010
def CLK_SEL_XEXT : Fld := ⟨CLK_SEL, 0, 1⟩
def CLK_SEL_REFDRV : Fld := ⟨CLK_SEL, 1, 1⟩
/-- R78. -/
def CLK_CUR_LO : Nat := 0x40010018
def CLK_CUR_LO_FRAC : Fld := ⟨CLK_CUR_LO, 0, 32⟩
/-- R78. -/
def CLK_CUR_HI : Nat := 0x4001001C
def CLK_CUR_HI_FRAC_HI : Fld := ⟨CLK_CUR_HI, 0, 8⟩
def CLK_CUR_HI_INT : Fld := ⟨CLK_CUR_HI, 8, 7⟩
/-- R78. -/
def CLK_TGT_LO : Nat := 0x40010020
def CLK_TGT_LO_FRAC : Fld := ⟨CLK_TGT_LO, 0, 32⟩
/-- R78. -/
def CLK_TGT : Nat := 0x40010028
/-- R78. -/
def CLK_GATE : Nat := 0x40010030
/-- R78. -/
def CLK_GATE_STATUS : Nat := 0x40010034
/-- R78. -/
def CLK_CAL_CTRL : Nat := 0x40010040
def CLK_CAL_CTRL_CODE : Fld := ⟨CLK_CAL_CTRL, 0, 5⟩
def CLK_CAL_CTRL_VT : Fld := ⟨CLK_CAL_CTRL, 8, 1⟩
def CLK_CAL_CTRL_BUSY : Fld := ⟨CLK_CAL_CTRL, 17, 1⟩
/-- R78. -/
def CLK_CAL_COUNT : Nat := 0x40010044
def CLK_CAL_COUNT_COUNT : Fld := ⟨CLK_CAL_COUNT, 0, 17⟩
def CLK_CAL_COUNT_VALID : Fld := ⟨CLK_CAL_COUNT, 31, 1⟩
/-- R78. -/
def CLK_LPO_CAL : Nat := 0x40010048
def CLK_LPO_CAL_COUNT : Fld := ⟨CLK_LPO_CAL, 0, 24⟩
def CLK_LPO_CAL_VALID : Fld := ⟨CLK_LPO_CAL, 31, 1⟩
/-- R78. -/
def CLK_LPO_TRIM : Nat := 0x4001004C
/-- R78. -/
def CLK_MON : Nat := 0x40010050
def CLK_MON_ERR : Fld := ⟨CLK_MON, 0, 16⟩
/-- R78. -/
def CLK_EVT_STATUS : Nat := 0x40010054
/-- R78. -/
def CLK_BAND_LO (i : Nat) : Nat := 0x40010100 + 0x8 * i
def CLK_BAND_LO_LO (i : Nat) : Fld := ⟨(CLK_BAND_LO i), 0, 17⟩
def CLK_BAND_LO_CODE (i : Nat) : Fld := ⟨(CLK_BAND_LO i), 24, 5⟩
def CLK_BAND_LO_VALID (i : Nat) : Fld := ⟨(CLK_BAND_LO i), 31, 1⟩
/-- R78. -/
def CLK_BAND_HI (i : Nat) : Nat := 0x40010104 + 0x8 * i
def CLK_BAND_HI_HI (i : Nat) : Fld := ⟨(CLK_BAND_HI i), 0, 17⟩
/-- R110. -/
def REF_STATUS : Nat := 0x40020000
def REF_STATUS_SEL : Fld := ⟨REF_STATUS, 0, 3⟩
def REF_STATUS_HOLD : Fld := ⟨REF_STATUS, 3, 1⟩
def REF_STATUS_FORCED : Fld := ⟨REF_STATUS, 4, 1⟩
def REF_STATUS_PULL : Fld := ⟨REF_STATUS, 5, 1⟩
def REF_STATUS_OUT_MISALIGNED : Fld := ⟨REF_STATUS, 6, 1⟩
def REF_STATUS_BANDEDGE : Fld := ⟨REF_STATUS, 7, 1⟩
def REF_STATUS_HOLD_SHORT : Fld := ⟨REF_STATUS, 8, 1⟩
def REF_STATUS_ALIGN_IN_PULL : Fld := ⟨REF_STATUS, 9, 1⟩
def REF_STATUS_QUAL : Fld := ⟨REF_STATUS, 16, 7⟩
/-- R110. -/
def REF_CTRL : Nat := 0x40020008
def REF_CTRL_AUTO : Fld := ⟨REF_CTRL, 0, 1⟩
def REF_CTRL_MAN_SRC : Fld := ⟨REF_CTRL, 1, 3⟩
def REF_CTRL_REVERT : Fld := ⟨REF_CTRL, 4, 1⟩
def REF_CTRL_SWITCH_MODE : Fld := ⟨REF_CTRL, 5, 1⟩
def REF_CTRL_RELOCK_OK : Fld := ⟨REF_CTRL, 6, 1⟩
def REF_CTRL_BW : Fld := ⟨REF_CTRL, 8, 2⟩
/-- R110. -/
def REF_PRIO : Nat := 0x40020010
/-- R110. -/
def REF_HOLD_CFG : Nat := 0x40020018
def REF_HOLD_CFG_AVG_LOG2 : Fld := ⟨REF_HOLD_CFG, 0, 4⟩
/-- R110. -/
def REF_HOLDOFF : Nat := 0x4002001C
def REF_HOLDOFF_SEC : Fld := ⟨REF_HOLDOFF, 0, 8⟩
/-- R110. -/
def REF_FREQ_PPT : Nat := 0x40020020
/-- R110. -/
def REF_PHASE_STEP : Nat := 0x40020024
/-- R110. -/
def REF_PHASE_PEND : Nat := 0x40020028
/-- R110. -/
def REF_ANNEAL : Nat := 0x4002002C
def REF_ANNEAL_SLOPE : Fld := ⟨REF_ANNEAL, 0, 10⟩
/-- R110. -/
def REF_CMD : Nat := 0x40020030
/-- R110. -/
def REF_OUT_OFFSET : Nat := 0x40020034
/-- R110. -/
def REF_HOLD_WORD_LO : Nat := 0x40020038
def REF_HOLD_WORD_LO_FRAC : Fld := ⟨REF_HOLD_WORD_LO, 0, 32⟩
/-- R110. -/
def REF_HOLD_WORD_HI : Nat := 0x4002003C
def REF_HOLD_WORD_HI_FRAC_HI : Fld := ⟨REF_HOLD_WORD_HI, 0, 8⟩
def REF_HOLD_WORD_HI_INT : Fld := ⟨REF_HOLD_WORD_HI, 8, 7⟩
/-- R110. -/
def REF_WORD_LO : Nat := 0x40020040
def REF_WORD_LO_FRAC : Fld := ⟨REF_WORD_LO, 0, 32⟩
/-- R110. -/
def REF_WORD_HI : Nat := 0x40020044
def REF_WORD_HI_WORD : Fld := ⟨REF_WORD_HI, 0, 15⟩
/-- R110. -/
def REF_VIDEO_CFG : Nat := 0x40020048
def REF_VIDEO_CFG_RATE : Fld := ⟨REF_VIDEO_CFG, 0, 3⟩
/-- R110. -/
def REF_VSEQ : Nat := 0x4002004C
def REF_VSEQ_PHASE : Fld := ⟨REF_VSEQ, 0, 3⟩
/-- R110. -/
def REF_VSEQ_ESC_LO : Nat := 0x40020050
/-- R110. -/
def REF_VSEQ_ESC_HI : Nat := 0x40020054
/-- R110. -/
def REF_OUT_CFG : Nat := 0x40020058
/-- R110. -/
def REF_PTP_QUAL : Nat := 0x4002005C
def REF_PTP_QUAL_OK : Fld := ⟨REF_PTP_QUAL, 0, 1⟩
/-- R110. -/
def REF_EVT_STATUS : Nat := 0x40020060
/-- R110. -/
def REF_SRC_CFG (i : Nat) : Nat := 0x40020100 + 0x10 * i
def REF_SRC_CFG_EN (i : Nat) : Fld := ⟨(REF_SRC_CFG i), 0, 1⟩
def REF_SRC_CFG_DIV2 (i : Nat) : Fld := ⟨(REF_SRC_CFG i), 1, 1⟩
def REF_SRC_CFG_WIN (i : Nat) : Fld := ⟨(REF_SRC_CFG i), 2, 11⟩
def REF_SRC_CFG_QUAL_TIME (i : Nat) : Fld := ⟨(REF_SRC_CFG i), 16, 8⟩
/-- R110. -/
def REF_SRC_STATE (i : Nat) : Nat := 0x40020104 + 0x10 * i
def REF_SRC_STATE_STATE (i : Nat) : Fld := ⟨(REF_SRC_STATE i), 0, 2⟩
def REF_SRC_STATE_LOS (i : Nat) : Fld := ⟨(REF_SRC_STATE i), 2, 1⟩
/-- R110. -/
def REF_SRC_FREQ (i : Nat) : Nat := 0x40020108 + 0x10 * i
/-- R110. -/
def REF_SRC_PHASE (i : Nat) : Nat := 0x4002010C + 0x10 * i
/-- R148. -/
def TIME_STATUS : Nat := 0x40030000
def TIME_STATUS_MCC_VALID : Fld := ⟨TIME_STATUS, 0, 1⟩
def TIME_STATUS_TXTS_NE : Fld := ⟨TIME_STATUS, 1, 1⟩
def TIME_STATUS_TXTS_LEVEL : Fld := ⟨TIME_STATUS, 8, 6⟩
/-- R148. -/
def TIME_INCR_FRAC : Nat := 0x40030008
def TIME_INCR_FRAC_FRAC : Fld := ⟨TIME_INCR_FRAC, 0, 32⟩
/-- R148. -/
def TIME_INCR : Nat := 0x40030010
/-- R148. -/
def TIME_INCR_CUR_FRAC : Nat := 0x40030018
def TIME_INCR_CUR_FRAC_FRAC : Fld := ⟨TIME_INCR_CUR_FRAC, 0, 32⟩
/-- R148. -/
def TIME_INCR_CUR_NS : Nat := 0x4003001C
def TIME_INCR_CUR_NS_NS : Fld := ⟨TIME_INCR_CUR_NS, 0, 8⟩
/-- R148. -/
def TIME_NOW_NS : Nat := 0x40030020
/-- R148. -/
def TIME_NOW_ESC_LO : Nat := 0x40030030
/-- R148. -/
def TIME_ADJ_SEC : Nat := 0x40030040
/-- R148. -/
def TIME_ADJ_SEC_HI : Nat := 0x40030044
def TIME_ADJ_SEC_HI_SEC : Fld := ⟨TIME_ADJ_SEC_HI, 0, 16⟩
/-- R148. -/
def TIME_ADJ_NS : Nat := 0x40030048
/-- R148. -/
def TIME_ADJ_CTRL : Nat := 0x40030050
/-- R148. -/
def TIME_STEP_LIMIT : Nat := 0x40030058
/-- R148. -/
def TIME_LATCH_ESC_LO : Nat := 0x40030060
/-- R148. -/
def TIME_TICK_PHASE : Nat := 0x40030080
/-- R148. -/
def TIME_TXTS_INFO : Nat := 0x400300A0
/-- R148. -/
def TIME_TXTS_SEC_LO : Nat := 0x400300A4
/-- R148. -/
def TIME_TXTS_SEC_HI : Nat := 0x400300A8
/-- R148. -/
def TIME_TXTS_NS : Nat := 0x400300AC
/-- R148. -/
def TIME_TXTS_FRAC : Nat := 0x400300B0
/-- R148. -/
def TIME_EVT_STATUS : Nat := 0x400300C0
/-- R148. -/
def TIME_NET_INGRESS_LAT (i : Nat) : Nat := 0x40030100 + 0x20 * i
/-- R148. -/
def TIME_NET_EGRESS_LAT (i : Nat) : Nat := 0x40030104 + 0x20 * i
/-- R148. -/
def TIME_NET_ASYM (i : Nat) : Nat := 0x40030108 + 0x20 * i
/-- R148. -/
def TIME_NET_TS_CFG (i : Nat) : Nat := 0x4003010C + 0x20 * i
def TIME_NET_TS_CFG_ONESTEP_EN (i : Nat) : Fld := ⟨(TIME_NET_TS_CFG i), 0, 1⟩
/-- R150. -/
def TAQ_TENANT_STATUS (i : Nat) : Nat := 0x40040000 + 0x4 * i
/-- R150. -/
def TAQ_LATE_COUNT : Nat := 0x40040040
def TAQ_LATE_COUNT_COUNT : Fld := ⟨TAQ_LATE_COUNT, 0, 32⟩
/-- R150. -/
def TAQ_EVT_STATUS : Nat := 0x40040044
/-- R191. -/
def CORE_STATUS (i : Nat) : Nat := 0x40200000 + 0x10000 * i
/-- R191. -/
def CORE_CTRL (i : Nat) : Nat := 0x40200004 + 0x10000 * i
def CORE_CTRL_EN (i : Nat) : Fld := ⟨(CORE_CTRL i), 0, 1⟩
/-- R191. -/
def CORE_MODE_INIT (i : Nat) : Nat := 0x40200008 + 0x10000 * i
def CORE_MODE_INIT_RMODE (i : Nat) : Fld := ⟨(CORE_MODE_INIT i), 0, 1⟩
def CORE_MODE_INIT_SATEN (i : Nat) : Fld := ⟨(CORE_MODE_INIT i), 1, 1⟩
/-- R191. -/
def CORE_TENANT (i : Nat) : Nat := 0x40200010 + 0x10000 * i
def CORE_TENANT_TENANT (i : Nat) : Fld := ⟨(CORE_TENANT i), 0, 4⟩
/-- R191. -/
def CORE_TRAP_VBASE (i : Nat) : Nat := 0x40200018 + 0x10000 * i
def CORE_TRAP_VBASE_VBASE (i : Nat) : Fld := ⟨(CORE_TRAP_VBASE i), 10, 6⟩
/-- R191. -/
def CORE_TRAP_HANDLE (i : Nat) : Nat := 0x4020001C + 0x10000 * i
/-- R191. -/
def CORE_LAST_CAUSE (i : Nat) : Nat := 0x40200020 + 0x10000 * i
/-- R191. -/
def CORE_LAST_PC (i : Nat) : Nat := 0x40200024 + 0x10000 * i
/-- R191. -/
def CORE_LAST_ADDR (i : Nat) : Nat := 0x40200028 + 0x10000 * i
/-- R191. -/
def CORE_CYCLES_LO (i : Nat) : Nat := 0x40200030 + 0x10000 * i
/-- R191. -/
def CORE_DMA_SLOTS (i : Nat) : Nat := 0x4020003C + 0x10000 * i
/-- R191. -/
def CORE_LOCK_BREAKS (i : Nat) : Nat := 0x40200040 + 0x10000 * i
/-- R191. -/
def CORE_EVT_STATUS (i : Nat) : Nat := 0x40200044 + 0x10000 * i
/-- R191. -/
def CC_IRQ_STATUS : Nat := 0x40300080
/-- R191. -/
def CC_IRQ_EN : Nat := 0x40300084
/-- R191. -/
def CC_MON_VBASE : Nat := 0x40300088
def CC_MON_VBASE_VBASE : Fld := ⟨CC_MON_VBASE, 10, 8⟩
/-- R191. -/
def CC_IRQ_CORE : Nat := 0x4030008C
/-- R299. -/
def SCHED_CTRL : Nat := 0x40050000
def SCHED_CTRL_EN : Fld := ⟨SCHED_CTRL, 0, 1⟩
def SCHED_CTRL_CANCEL_PROP : Fld := ⟨SCHED_CTRL, 1, 1⟩
def SCHED_CTRL_MIGRATE : Fld := ⟨SCHED_CTRL, 2, 1⟩
/-- R299. -/
def SCHED_STATUS : Nat := 0x40050004
/-- R299. -/
def SCHED_SUBMIT : Nat := 0x40050008
/-- R299. -/
def SCHED_READY : Nat := 0x4005000C
/-- R299. -/
def SCHED_CANCEL : Nat := 0x40050010
/-- R299. -/
def SCHED_FREE : Nat := 0x40050014
/-- R299. -/
def SCHED_SHED : Nat := 0x40050018
def SCHED_SHED_PRIO : Fld := ⟨SCHED_SHED, 0, 5⟩
def SCHED_SHED_LEVEL : Fld := ⟨SCHED_SHED, 8, 2⟩
/-- R299. -/
def SCHED_MISS_TOTAL : Nat := 0x4005001C
def SCHED_MISS_TOTAL_COUNT : Fld := ⟨SCHED_MISS_TOTAL, 0, 32⟩
/-- R299. -/
def SCHED_EVT_STATUS : Nat := 0x40050020
/-- R299. -/
def SCHED_RANGE (i : Nat) : Nat := 0x40050100 + 0x10 * i
def SCHED_RANGE_BASE (i : Nat) : Fld := ⟨(SCHED_RANGE i), 0, 12⟩
def SCHED_RANGE_COUNT (i : Nat) : Fld := ⟨(SCHED_RANGE i), 16, 13⟩
/-- R299. -/
def SCHED_CQ_LO (i : Nat) : Nat := 0x40050108 + 0x10 * i
/-- R299. -/
def SCHED_CQ_HI (i : Nat) : Nat := 0x4005010C + 0x10 * i
/-- R299. -/
def SCHED_TSTAT (i : Nat) : Nat := 0x40050200 + 0x10 * i
def SCHED_TSTAT_MISS_EPISODE (i : Nat) : Fld := ⟨(SCHED_TSTAT i), 10, 1⟩
/-- R299. -/
def SCHED_MISS (i : Nat) : Nat := 0x40050204 + 0x10 * i
/-- R299. -/
def SCHED_LATE (i : Nat) : Nat := 0x40050208 + 0x10 * i
/-- R299. -/
def SCHED_CQ_DROP (i : Nat) : Nat := 0x4005020C + 0x10 * i
/-- R299. -/
def SCHED_CORE (i : Nat) : Nat := 0x40050300 + 0x4 * i
/-- R340. -/
def INGOT_EVT_STATUS : Nat := 0x40060000
/-- R340. -/
def INGOT_RET_STATE : Nat := 0x40060010
/-- R340. -/
def INGOT_RET (i : Nat) : Nat := 0x40060040 + 0x4 * i
def INGOT_RET_RETAIN (i : Nat) : Fld := ⟨(INGOT_RET i), 0, 1⟩
def INGOT_RET_POLICY (i : Nat) : Fld := ⟨(INGOT_RET i), 1, 1⟩
/-- R340. -/
def INGOT_OWN (i : Nat) : Nat := 0x40060100 + 0x8 * i
def INGOT_OWN_OWNER (i : Nat) : Fld := ⟨(INGOT_OWN i), 0, 8⟩
def INGOT_OWN_SCRUB (i : Nat) : Fld := ⟨(INGOT_OWN i), 16, 1⟩
/-- R340. -/
def INGOT_STATE (i : Nat) : Nat := 0x40060400 + 0x4 * i
def INGOT_STATE_STATE (i : Nat) : Fld := ⟨(INGOT_STATE i), 0, 2⟩
def INGOT_STATE_PREV (i : Nat) : Fld := ⟨(INGOT_STATE i), 8, 8⟩
/-- R341. -/
def XLAT_EVT_STATUS : Nat := 0x40070000
/-- R341. -/
def XLAT_FAULT_VA (i : Nat) : Nat := 0x40070100 + 0x20 * i
/-- R341. -/
def XLAT_FAULT_PA_LO (i : Nat) : Nat := 0x40070104 + 0x20 * i
/-- R341. -/
def XLAT_FAULT_PA_HI (i : Nat) : Nat := 0x40070108 + 0x20 * i
/-- R341. -/
def XLAT_FAULT_INFO (i : Nat) : Nat := 0x4007010C + 0x20 * i
def XLAT_FAULT_INFO_MORE (i : Nat) : Fld := ⟨(XLAT_FAULT_INFO i), 24, 7⟩
def XLAT_FAULT_INFO_VALID (i : Nat) : Fld := ⟨(XLAT_FAULT_INFO i), 31, 1⟩
/-- R341. -/
def XLAT_FAULT_ESC_LO (i : Nat) : Nat := 0x40070110 + 0x20 * i
/-- R341. -/
def XLAT_FAULT_ESC_HI (i : Nat) : Nat := 0x40070114 + 0x20 * i
/-- R341. -/
def XLAT_WIN_BASE (i j : Nat) : Nat := 0x40071000 + 0x800 * i + 0x40 * j
def XLAT_WIN_BASE_BASE (i j : Nat) : Fld := ⟨(XLAT_WIN_BASE i j), 12, 20⟩
/-- R341. -/
def XLAT_WIN_LIMIT (i j : Nat) : Nat := 0x40071008 + 0x800 * i + 0x40 * j
def XLAT_WIN_LIMIT_LIMIT (i j : Nat) : Fld := ⟨(XLAT_WIN_LIMIT i j), 12, 20⟩
/-- R341. -/
def XLAT_WIN_OFF_LO (i j : Nat) : Nat := 0x40071010 + 0x800 * i + 0x40 * j
def XLAT_WIN_OFF_LO_OFF (i j : Nat) : Fld := ⟨(XLAT_WIN_OFF_LO i j), 12, 20⟩
/-- R341. -/
def XLAT_WIN_OFF_HI (i j : Nat) : Nat := 0x40071018 + 0x800 * i + 0x40 * j
def XLAT_WIN_OFF_HI_OFF (i j : Nat) : Fld := ⟨(XLAT_WIN_OFF_HI i j), 0, 32⟩
/-- R341. -/
def XLAT_WIN_CTRL (i j : Nat) : Nat := 0x40071020 + 0x800 * i + 0x40 * j
/-- R342. -/
def DMA_CH_DESC (i j : Nat) : Nat := 0x40080000 + 0x1000 * i + 0x40 * j
/-- R342. -/
def DMA_CH_CMD (i j : Nat) : Nat := 0x40080004 + 0x1000 * i + 0x40 * j
/-- R342. -/
def DMA_CH_STATUS (i j : Nat) : Nat := 0x40080008 + 0x1000 * i + 0x40 * j
def DMA_CH_STATUS_STATE (i j : Nat) : Fld := ⟨(DMA_CH_STATUS i j), 0, 3⟩
def DMA_CH_STATUS_KIND (i j : Nat) : Fld := ⟨(DMA_CH_STATUS i j), 4, 4⟩
def DMA_CH_STATUS_DONE (i j : Nat) : Fld := ⟨(DMA_CH_STATUS i j), 16, 16⟩
/-- R342. -/
def DMA_CH_CUR (i j : Nat) : Nat := 0x4008000C + 0x1000 * i + 0x40 * j
/-- R342. -/
def DMA_CH_SRC (i j : Nat) : Nat := 0x40080010 + 0x1000 * i + 0x40 * j
/-- R342. -/
def DMA_CH_DST (i j : Nat) : Nat := 0x40080014 + 0x1000 * i + 0x40 * j
/-- R342. -/
def DMA_CH_LEFT (i j : Nat) : Nat := 0x40080018 + 0x1000 * i + 0x40 * j
/-- R342. -/
def DMA_CH_MISMATCH (i j : Nat) : Nat := 0x4008001C + 0x1000 * i + 0x40 * j
/-- R342. -/
def DMA_CH_BYTES (i j : Nat) : Nat := 0x40080020 + 0x1000 * i + 0x40 * j
/-- R342. -/
def DMA_ACTIVE : Nat := 0x40080800
/-- R342. -/
def DMA_EVT_STATUS : Nat := 0x40080804
/-- R376. -/
def MBX_CFG (i : Nat) : Nat := 0x40090000 + 0x1000 * i
def MBX_CFG_EN (i : Nat) : Fld := ⟨(MBX_CFG i), 0, 1⟩
def MBX_CFG_H2E_MODE (i : Nat) : Fld := ⟨(MBX_CFG i), 1, 1⟩
def MBX_CFG_E2H_MODE (i : Nat) : Fld := ⟨(MBX_CFG i), 2, 1⟩
def MBX_CFG_H2E_BLEN (i : Nat) : Fld := ⟨(MBX_CFG i), 8, 5⟩
def MBX_CFG_E2H_BLEN (i : Nat) : Fld := ⟨(MBX_CFG i), 16, 5⟩
def MBX_CFG_HOSTSRC (i : Nat) : Fld := ⟨(MBX_CFG i), 24, 1⟩
def MBX_CFG_ESIDE (i : Nat) : Fld := ⟨(MBX_CFG i), 25, 1⟩
def MBX_CFG_ARRDB (i : Nat) : Fld := ⟨(MBX_CFG i), 28, 4⟩
/-- R376. -/
def MBX_STAT (i : Nat) : Nat := 0x40090004 + 0x1000 * i
/-- R376. -/
def MBX_CTRL (i : Nat) : Nat := 0x40090008 + 0x1000 * i
/-- R376. -/
def MBX_H2E_HDR (i : Nat) : Nat := 0x40090100 + 0x1000 * i
/-- R376. -/
def MBX_H2E_HDRC (i : Nat) : Nat := 0x40090104 + 0x1000 * i
/-- R376. -/
def MBX_EVQ_W0 (i : Nat) : Nat := 0x40090400 + 0x1000 * i
/-- R376. -/
def MBX_EVQ_DROP (i : Nat) : Nat := 0x40090414 + 0x1000 * i
def MBX_EVQ_DROP_COUNT (i : Nat) : Fld := ⟨(MBX_EVQ_DROP i), 0, 32⟩
/-- R376. -/
def MBX_DB_RING (i : Nat) : Nat := 0x40090500 + 0x1000 * i
/-- R376. -/
def MBX_DB_PEND (i : Nat) : Nat := 0x40090504 + 0x1000 * i
/-- R376. -/
def MBX_DB_WAKE (i : Nat) : Nat := 0x40090508 + 0x1000 * i
/-- R376. -/
def MBX_DB_MAP (i j : Nat) : Nat := 0x40090540 + 0x1000 * i + 0x4 * j
def MBX_DB_MAP_IDX (i j : Nat) : Fld := ⟨(MBX_DB_MAP i j), 0, 12⟩
def MBX_DB_MAP_CTR (i j : Nat) : Fld := ⟨(MBX_DB_MAP i j), 12, 3⟩
def MBX_DB_MAP_V (i j : Nat) : Fld := ⟨(MBX_DB_MAP i j), 15, 1⟩
/-- R377. -/
def MBX_EVT_STATUS : Nat := 0x40090F00
/-- R377. -/
def MBX_ISOL : Nat := 0x40090F04
/-- R402. -/
def ROUTE_STATUS : Nat := 0x400A0000
def ROUTE_STATUS_BANK : Fld := ⟨ROUTE_STATUS, 0, 1⟩
/-- R402. -/
def ROUTE_EVT_STATUS : Nat := 0x400A0004
/-- R402. -/
def ROUTE_TONE : Nat := 0x400A0008
def ROUTE_TONE_FREQ : Fld := ⟨ROUTE_TONE, 0, 15⟩
def ROUTE_TONE_LEVEL : Fld := ⟨ROUTE_TONE, 16, 6⟩
/-- R402. -/
def ROUTE_MUTE_CMD : Nat := 0x400A0010
/-- R402. -/
def ROUTE_TRAMP (i : Nat) : Nat := 0x400A0040 + 0x4 * i
def ROUTE_TRAMP_LEN (i : Nat) : Fld := ⟨(ROUTE_TRAMP i), 0, 12⟩
/-- R402. -/
def ROUTE_DOWN (i : Nat) : Nat := 0x400A0100 + 0x8 * i
def ROUTE_DOWN_TENANT (i : Nat) : Fld := ⟨(ROUTE_DOWN i), 0, 4⟩
def ROUTE_DOWN_V (i : Nat) : Fld := ⟨(ROUTE_DOWN i), 4, 1⟩
/-- R402. -/
def ROUTE_SGRANT (i : Nat) : Nat := 0x400A0900 + 0x4 * i
/-- R402. -/
def ROUTE_PATH (i : Nat) : Nat := 0x400A1000 + 0x4 * i
def ROUTE_PATH_CORE (i : Nat) : Fld := ⟨(ROUTE_PATH i), 0, 4⟩
def ROUTE_PATH_EN (i : Nat) : Fld := ⟨(ROUTE_PATH i), 4, 1⟩
def ROUTE_PATH_IN (i : Nat) : Fld := ⟨(ROUTE_PATH i), 8, 10⟩
def ROUTE_PATH_OUT (i : Nat) : Fld := ⟨(ROUTE_PATH i), 18, 10⟩
/-- R403. -/
def SUMX_STATUS : Nat := 0x400B0000
def SUMX_STATUS_BANK : Fld := ⟨SUMX_STATUS, 0, 1⟩
/-- R403. -/
def SUMX_EVT_STATUS : Nat := 0x400B0004
/-- R403. -/
def SUMX_TRAMP (i : Nat) : Nat := 0x400B0040 + 0x4 * i
def SUMX_TRAMP_LEN (i : Nat) : Fld := ⟨(SUMX_TRAMP i), 0, 12⟩
/-- R403. -/
def SUMX_RANGE (i : Nat) : Nat := 0x400B0080 + 0x8 * i
def SUMX_RANGE_BASE (i : Nat) : Fld := ⟨(SUMX_RANGE i), 0, 12⟩
def SUMX_RANGE_COUNT (i : Nat) : Fld := ⟨(SUMX_RANGE i), 16, 13⟩
/-- R403. -/
def SUMX_BUS_GAIN (i : Nat) : Nat := 0x400B0100 + 0x8 * i
/-- R403. -/
def SUMX_BUS_CFG (i : Nat) : Nat := 0x400B0900 + 0x4 * i
def SUMX_BUS_CFG_EN (i : Nat) : Fld := ⟨(SUMX_BUS_CFG i), 0, 1⟩
def SUMX_BUS_CFG_LIM_EN (i : Nat) : Fld := ⟨(SUMX_BUS_CFG i), 1, 1⟩
def SUMX_BUS_CFG_RMODE (i : Nat) : Fld := ⟨(SUMX_BUS_CFG i), 2, 1⟩
def SUMX_BUS_CFG_SATEN (i : Nat) : Fld := ⟨(SUMX_BUS_CFG i), 3, 1⟩
def SUMX_BUS_CFG_TENANT (i : Nat) : Fld := ⟨(SUMX_BUS_CFG i), 8, 4⟩
/-- R403. -/
def SUMX_LIM (i : Nat) : Nat := 0x400B1000 + 0x4 * i
def SUMX_LIM_CEIL (i : Nat) : Fld := ⟨(SUMX_LIM i), 0, 8⟩
def SUMX_LIM_REL_MS (i : Nat) : Fld := ⟨(SUMX_LIM i), 8, 11⟩
/-- R403. -/
def SUMX_LIST_A (i : Nat) : Nat := 0x400B1400 + 0x8 * i
/-- R403. -/
def SUMX_LIST_B (i : Nat) : Nat := 0x400B1C00 + 0x8 * i
/-- R403. -/
def SUMX_ACC_SAT (i : Nat) : Nat := 0x400B2400 + 0x4 * i
/-- R403. -/
def SUMX_BUS_SAT (i : Nat) : Nat := 0x400B2420 + 0x4 * i
/-- R403. -/
def SUMX_LOUD_CFG (i : Nat) : Nat := 0x400B2800 + 0x40 * i
def SUMX_LOUD_CFG_CH_EN (i : Nat) : Fld := ⟨(SUMX_LOUD_CFG i), 0, 8⟩
/-- R403. -/
def SUMX_LOUD_CH (i j : Nat) : Nat := 0x400B2804 + 0x40 * i + 0x4 * j
def SUMX_LOUD_CH_SRC (i j : Nat) : Fld := ⟨(SUMX_LOUD_CH i j), 0, 13⟩
def SUMX_LOUD_CH_G (i j : Nat) : Fld := ⟨(SUMX_LOUD_CH i j), 16, 16⟩
/-- R403. -/
def SUMX_LOUD_VAL (i : Nat) : Nat := 0x400B2824 + 0x40 * i
/-- R403. -/
def SUMX_LOUD_ESC (i : Nat) : Nat := 0x400B2828 + 0x40 * i
/-- R403. -/
def SUMX_LOUD_SEQ (i : Nat) : Nat := 0x400B282C + 0x40 * i
def SUMX_LOUD_SEQ_SEQ (i : Nat) : Fld := ⟨(SUMX_LOUD_SEQ i), 0, 16⟩
/-- R403. -/
def SUMX_LIM_ALPHA (i : Nat) : Nat := 0x400B3000 + 0x4 * i
def SUMX_LIM_ALPHA_ALPHA (i : Nat) : Fld := ⟨(SUMX_LIM_ALPHA i), 0, 31⟩
/-- R403. -/
def SUMX_TAP_CFG (i : Nat) : Nat := 0x400B4000 + 0x4 * i
def SUMX_TAP_CFG_SRC (i : Nat) : Fld := ⟨(SUMX_TAP_CFG i), 0, 13⟩
def SUMX_TAP_CFG_EN (i : Nat) : Fld := ⟨(SUMX_TAP_CFG i), 16, 1⟩
/-- R403. -/
def SUMX_TAP_PEAK (i : Nat) : Nat := 0x400B8000 + 0x8 * i
/-- R403. -/
def SUMX_TAP_MSQ (i : Nat) : Nat := 0x400B8004 + 0x8 * i
/-- R427. -/
def EQA_CTRL : Nat := 0x400C0000
def EQA_CTRL_EN : Fld := ⟨EQA_CTRL, 0, 1⟩
/-- R427. -/
def EQA_EVT_STATUS : Nat := 0x400C0004
/-- R427. -/
def EQA_STATUS : Nat := 0x400C0008
/-- R427. -/
def EQA_CLEAR : Nat := 0x400C0010
/-- R427. -/
def EQA_CRANGE (i : Nat) : Nat := 0x400C0040 + 0x8 * i
def EQA_CRANGE_BASE (i : Nat) : Fld := ⟨(EQA_CRANGE i), 0, 7⟩
def EQA_CRANGE_COUNT (i : Nat) : Fld := ⟨(EQA_CRANGE i), 16, 8⟩
/-- R427. -/
def EQA_SRANGE (i : Nat) : Nat := 0x400C00C0 + 0x8 * i
def EQA_SRANGE_BASE (i : Nat) : Fld := ⟨(EQA_SRANGE i), 0, 11⟩
def EQA_SRANGE_COUNT (i : Nat) : Fld := ⟨(EQA_SRANGE i), 16, 12⟩
/-- R427. -/
def EQA_BANK (i : Nat) : Nat := 0x400C0400 + 0x4 * i
/-- R427. -/
def EQA_SAT (i : Nat) : Nat := 0x400C0500 + 0x4 * i
/-- R428. -/
def SAFE_CTRL : Nat := 0x400D0000
def SAFE_CTRL_SHADOW : Fld := ⟨SAFE_CTRL, 0, 1⟩
/-- R428. -/
def SAFE_EVT_STATUS : Nat := 0x400D0004
/-- R428. -/
def SAFE_CMD : Nat := 0x400D0008
/-- R428. -/
def SAFE_GRP_CFG (i : Nat) : Nat := 0x400D0100 + 0x10 * i
def SAFE_GRP_CFG_OWNER (i : Nat) : Fld := ⟨(SAFE_GRP_CFG i), 0, 5⟩
def SAFE_GRP_CFG_ROUTE (i : Nat) : Fld := ⟨(SAFE_GRP_CFG i), 8, 1⟩
def SAFE_GRP_CFG_SUMX (i : Nat) : Fld := ⟨(SAFE_GRP_CFG i), 9, 1⟩
def SAFE_GRP_CFG_EQA (i : Nat) : Fld := ⟨(SAFE_GRP_CFG i), 10, 1⟩
def SAFE_GRP_CFG_SYNC (i : Nat) : Fld := ⟨(SAFE_GRP_CFG i), 12, 1⟩
def SAFE_GRP_CFG_PMASK (i : Nat) : Fld := ⟨(SAFE_GRP_CFG i), 16, 16⟩
/-- R428. -/
def SAFE_GRP_CHAINS (i : Nat) : Nat := 0x400D0108 + 0x10 * i
def SAFE_GRP_CHAINS_CFIRST (i : Nat) : Fld := ⟨(SAFE_GRP_CHAINS i), 0, 11⟩
def SAFE_GRP_CHAINS_CLAST (i : Nat) : Fld := ⟨(SAFE_GRP_CHAINS i), 16, 11⟩
/-- R428. -/
def SAFE_GRP_STATE (i : Nat) : Nat := 0x400D010C + 0x10 * i
def SAFE_GRP_STATE_STATE (i : Nat) : Fld := ⟨(SAFE_GRP_STATE i), 0, 2⟩
def SAFE_GRP_STATE_TIMED (i : Nat) : Fld := ⟨(SAFE_GRP_STATE i), 2, 1⟩
def SAFE_GRP_STATE_SWAPS (i : Nat) : Fld := ⟨(SAFE_GRP_STATE i), 16, 16⟩
/-- R428. -/
def SAFE_GRP_ESC_LO (i : Nat) : Nat := 0x400D0200 + 0x8 * i
/-- R428. -/
def SAFE_GRP_ESC_HI (i : Nat) : Nat := 0x400D0204 + 0x8 * i
/-- R428. -/
def SAFE_PARAM_VA0 (i : Nat) : Nat := 0x400D0400 + 0x10 * i
def SAFE_PARAM_VA0_VA (i : Nat) : Fld := ⟨(SAFE_PARAM_VA0 i), 12, 20⟩
/-- R428. -/
def SAFE_PARAM_VA1 (i : Nat) : Nat := 0x400D0404 + 0x10 * i
def SAFE_PARAM_VA1_VA (i : Nat) : Fld := ⟨(SAFE_PARAM_VA1 i), 12, 20⟩
/-- R428. -/
def SAFE_PARAM_PAGES (i : Nat) : Nat := 0x400D0408 + 0x10 * i
def SAFE_PARAM_PAGES_PAGES (i : Nat) : Fld := ⟨(SAFE_PARAM_PAGES i), 0, 12⟩
/-- R428. -/
def SAFE_PARAM_SEL (i : Nat) : Nat := 0x400D040C + 0x10 * i
def SAFE_PARAM_SEL_SEL (i : Nat) : Fld := ⟨(SAFE_PARAM_SEL i), 0, 1⟩
/-- R460. -/
def SAP_CTRL : Nat := 0x400E0000
def SAP_CTRL_EN : Fld := ⟨SAP_CTRL, 0, 1⟩
/-- R460. -/
def SAP_EVT_STATUS : Nat := 0x400E0004
/-- R460. -/
def SAP_GRP_CFG (i : Nat) : Nat := 0x400E0040 + 0x10 * i
def SAP_GRP_CFG_EN (i : Nat) : Fld := ⟨(SAP_GRP_CFG i), 0, 1⟩
def SAP_GRP_CFG_MASTER (i : Nat) : Fld := ⟨(SAP_GRP_CFG i), 1, 1⟩
/-- R460. -/
def SAP_GRP_STATUS (i : Nat) : Nat := 0x400E0044 + 0x10 * i
def SAP_GRP_STATUS_STATE (i : Nat) : Fld := ⟨(SAP_GRP_STATUS i), 0, 2⟩
def SAP_GRP_STATUS_PHASE (i : Nat) : Fld := ⟨(SAP_GRP_STATUS i), 16, 12⟩
/-- R460. -/
def SAP_GRP_COUNT (i : Nat) : Nat := 0x400E0048 + 0x10 * i
def SAP_GRP_COUNT_RESYNCS (i : Nat) : Fld := ⟨(SAP_GRP_COUNT i), 0, 16⟩
def SAP_GRP_COUNT_SLIPS (i : Nat) : Fld := ⟨(SAP_GRP_COUNT i), 16, 16⟩
/-- R460. -/
def SAP_IN_CFG (i : Nat) : Nat := 0x400E0100 + 0x20 * i
/-- R460. -/
def SAP_IN_STATUS (i : Nat) : Nat := 0x400E010C + 0x20 * i
def SAP_IN_STATUS_MARGIN (i : Nat) : Fld := ⟨(SAP_IN_STATUS i), 0, 1⟩
def SAP_IN_STATUS_MSLOT (i : Nat) : Fld := ⟨(SAP_IN_STATUS i), 8, 5⟩
def SAP_IN_STATUS_FAULT (i : Nat) : Fld := ⟨(SAP_IN_STATUS i), 16, 1⟩
/-- R460. -/
def SAP_OUT_STATUS (i : Nat) : Nat := 0x400E020C + 0x20 * i
def SAP_OUT_STATUS_CLASH (i : Nat) : Fld := ⟨(SAP_OUT_STATUS i), 0, 1⟩
def SAP_OUT_STATUS_RELEASED (i : Nat) : Fld := ⟨(SAP_OUT_STATUS i), 1, 1⟩
def SAP_OUT_STATUS_SAT (i : Nat) : Fld := ⟨(SAP_OUT_STATUS i), 2, 1⟩
def SAP_OUT_STATUS_CSLOT (i : Nat) : Fld := ⟨(SAP_OUT_STATUS i), 8, 5⟩
def SAP_OUT_STATUS_FAULT (i : Nat) : Fld := ⟨(SAP_OUT_STATUS i), 16, 1⟩
/-- R460. -/
def SAP_DRV (i : Nat) : Nat := 0x400E0210 + 0x20 * i
def SAP_DRV_POLICY (i : Nat) : Fld := ⟨(SAP_DRV i), 1, 1⟩
def SAP_DRV_CHECK (i : Nat) : Fld := ⟨(SAP_DRV i), 3, 1⟩
/-- R461. -/
def MADI_CTRL : Nat := 0x400F0000
def MADI_CTRL_EN : Fld := ⟨MADI_CTRL, 0, 1⟩
/-- R461. -/
def MADI_EVT_STATUS : Nat := 0x400F0004
/-- R461. -/
def MADI_RX_CFG (i : Nat) : Nat := 0x400F0100 + 0x80 * i
def MADI_RX_CFG_EN (i : Nat) : Fld := ⟨(MADI_RX_CFG i), 0, 1⟩
def MADI_RX_CFG_MODE (i : Nat) : Fld := ⟨(MADI_RX_CFG i), 1, 2⟩
/-- R461. -/
def MADI_RX_STATUS (i : Nat) : Nat := 0x400F0104 + 0x80 * i
def MADI_RX_STATUS_STATE (i : Nat) : Fld := ⟨(MADI_RX_STATUS i), 0, 2⟩
def MADI_RX_STATUS_CHANS (i : Nat) : Fld := ⟨(MADI_RX_STATUS i), 8, 7⟩
def MADI_RX_STATUS_FILL (i : Nat) : Fld := ⟨(MADI_RX_STATUS i), 16, 3⟩
def MADI_RX_STATUS_F96 (i : Nat) : Fld := ⟨(MADI_RX_STATUS i), 19, 1⟩
/-- R461. -/
def MADI_RX_BUF (i : Nat) : Nat := 0x400F0108 + 0x80 * i
/-- R461. -/
def MADI_RX_ERR (i : Nat) : Nat := 0x400F010C + 0x80 * i
def MADI_RX_ERR_PARITY (i : Nat) : Fld := ⟨(MADI_RX_ERR i), 0, 16⟩
def MADI_RX_ERR_SLIPS (i : Nat) : Fld := ⟨(MADI_RX_ERR i), 16, 16⟩
/-- R461. -/
def MADI_RX_VFLAG_LO (i : Nat) : Nat := 0x400F0110 + 0x80 * i
/-- R461. -/
def MADI_RX_VFLAG_HI (i : Nat) : Nat := 0x400F0114 + 0x80 * i
/-- R461. -/
def MADI_RX_CSCHG_LO (i : Nat) : Nat := 0x400F0118 + 0x80 * i
/-- R461. -/
def MADI_RX_CSCHG_HI (i : Nat) : Nat := 0x400F011C + 0x80 * i
/-- R461. -/
def MADI_TX_CFG (i : Nat) : Nat := 0x400F0120 + 0x80 * i
def MADI_TX_CFG_EN (i : Nat) : Fld := ⟨(MADI_TX_CFG i), 0, 1⟩
def MADI_TX_CFG_MODE (i : Nat) : Fld := ⟨(MADI_TX_CFG i), 1, 2⟩
def MADI_TX_CFG_RMODE (i : Nat) : Fld := ⟨(MADI_TX_CFG i), 3, 1⟩
def MADI_TX_CFG_CS_COMMON (i : Nat) : Fld := ⟨(MADI_TX_CFG i), 4, 1⟩
/-- R461. -/
def MADI_TX_MASK_LO (i : Nat) : Nat := 0x400F0124 + 0x80 * i
/-- R461. -/
def MADI_TX_MASK_HI (i : Nat) : Nat := 0x400F0128 + 0x80 * i
/-- R461. -/
def MADI_TX_BUF (i : Nat) : Nat := 0x400F012C + 0x80 * i
/-- R461. -/
def MADI_TX_STATUS (i : Nat) : Nat := 0x400F0130 + 0x80 * i
def MADI_TX_STATUS_FAULT (i : Nat) : Fld := ⟨(MADI_TX_STATUS i), 0, 1⟩
def MADI_TX_STATUS_SAT (i : Nat) : Fld := ⟨(MADI_TX_STATUS i), 1, 1⟩
/-- R495. -/
def NET_EVT_STATUS : Nat := 0x40100000
/-- R495. -/
def NET_CFG (i : Nat) : Nat := 0x40100100 + 0x100 * i
def NET_CFG_EN (i : Nat) : Fld := ⟨(NET_CFG i), 0, 1⟩
def NET_CFG_JUMBO (i : Nat) : Fld := ⟨(NET_CFG i), 1, 1⟩
/-- R495. -/
def NET_STATUS (i : Nat) : Nat := 0x40100104 + 0x100 * i
def NET_STATUS_LINK (i : Nat) : Fld := ⟨(NET_STATUS i), 0, 1⟩
def NET_STATUS_TXEN (i : Nat) : Fld := ⟨(NET_STATUS i), 1, 1⟩
/-- R495. -/
def NET_MAC_LO (i : Nat) : Nat := 0x40100108 + 0x100 * i
/-- R495. -/
def NET_MAC_HI (i : Nat) : Nat := 0x4010010C + 0x100 * i
def NET_MAC_HI_MAC (i : Nat) : Fld := ⟨(NET_MAC_HI i), 0, 16⟩
/-- R495. -/
def NET_IPV4 (i : Nat) : Nat := 0x40100110 + 0x100 * i
/-- R495. -/
def NET_CRX_BASE (i : Nat) : Nat := 0x40100120 + 0x100 * i
/-- R495. -/
def NET_CRX_LEN (i : Nat) : Nat := 0x40100124 + 0x100 * i
def NET_CRX_LEN_LOG2 (i : Nat) : Fld := ⟨(NET_CRX_LEN i), 0, 4⟩
/-- R495. -/
def NET_CRX_WR (i : Nat) : Nat := 0x40100128 + 0x100 * i
def NET_CRX_WR_IDX (i : Nat) : Fld := ⟨(NET_CRX_WR i), 0, 8⟩
/-- R495. -/
def NET_CRX_RD (i : Nat) : Nat := 0x4010012C + 0x100 * i
def NET_CRX_RD_IDX (i : Nat) : Fld := ⟨(NET_CRX_RD i), 0, 8⟩
/-- R495. -/
def NET_CTX_BASE (i : Nat) : Nat := 0x40100130 + 0x100 * i
/-- R495. -/
def NET_CTX_LEN (i : Nat) : Nat := 0x40100134 + 0x100 * i
def NET_CTX_LEN_LOG2 (i : Nat) : Fld := ⟨(NET_CTX_LEN i), 0, 4⟩
/-- R495. -/
def NET_CTX_WR (i : Nat) : Nat := 0x40100138 + 0x100 * i
def NET_CTX_WR_IDX (i : Nat) : Fld := ⟨(NET_CTX_WR i), 0, 8⟩
/-- R495. -/
def NET_CTX_RD (i : Nat) : Nat := 0x4010013C + 0x100 * i
def NET_CTX_RD_IDX (i : Nat) : Fld := ⟨(NET_CTX_RD i), 0, 8⟩
/-- R495. -/
def NET_RATE (i j : Nat) : Nat := 0x40100140 + 0x100 * i + 0x4 * j
def NET_RATE_RATE (i j : Nat) : Fld := ⟨(NET_RATE i j), 0, 16⟩
def NET_RATE_BURST (i j : Nat) : Fld := ⟨(NET_RATE i j), 16, 16⟩
/-- R495. -/
def NET_RX_OK (i : Nat) : Nat := 0x40100150 + 0x100 * i
def NET_RX_OK_COUNT (i : Nat) : Fld := ⟨(NET_RX_OK i), 0, 32⟩
/-- R495. -/
def NET_RX_FILTER (i : Nat) : Nat := 0x40100154 + 0x100 * i
def NET_RX_FILTER_COUNT (i : Nat) : Fld := ⟨(NET_RX_FILTER i), 0, 32⟩
/-- R495. -/
def NET_RX_ERR (i : Nat) : Nat := 0x40100158 + 0x100 * i
def NET_RX_ERR_COUNT (i : Nat) : Fld := ⟨(NET_RX_ERR i), 0, 32⟩
/-- R495. -/
def NET_RX_RATE (i : Nat) : Nat := 0x4010015C + 0x100 * i
def NET_RX_RATE_COUNT (i : Nat) : Fld := ⟨(NET_RX_RATE i), 0, 32⟩
/-- R495. -/
def NET_RX_RING (i : Nat) : Nat := 0x40100160 + 0x100 * i
def NET_RX_RING_COUNT (i : Nat) : Fld := ⟨(NET_RX_RING i), 0, 32⟩
/-- R495. -/
def NET_TX_OK (i : Nat) : Nat := 0x40100164 + 0x100 * i
def NET_TX_OK_COUNT (i : Nat) : Fld := ⟨(NET_TX_OK i), 0, 32⟩
/-- R495. -/
def NET_MCAST_LO (i j : Nat) : Nat := 0x40100180 + 0x100 * i + 0x8 * j
/-- R495. -/
def NET_MCAST_HI (i j : Nat) : Nat := 0x40100184 + 0x100 * i + 0x8 * j
def NET_MCAST_HI_MAC (i j : Nat) : Fld := ⟨(NET_MCAST_HI i j), 0, 16⟩
def NET_MCAST_HI_V (i j : Nat) : Fld := ⟨(NET_MCAST_HI i j), 31, 1⟩
/-- R496. -/
def FLOW_EVT_STATUS : Nat := 0x40110000
/-- R496. -/
def FLOW_LOAD (i : Nat) : Nat := 0x40110010 + 0x4 * i
def FLOW_LOAD_MBPS (i : Nat) : Fld := ⟨(FLOW_LOAD i), 0, 14⟩
/-- R496. -/
def FLOW_RX_RANGE (i : Nat) : Nat := 0x40110100 + 0x10 * i
/-- R496. -/
def FLOW_TX_RANGE (i : Nat) : Nat := 0x40110108 + 0x10 * i
/-- R539. -/
def SVL_CTRL : Nat := 0x40120000
def SVL_CTRL_EN : Fld := ⟨SVL_CTRL, 0, 1⟩
def SVL_CTRL_LANE_EN : Fld := ⟨SVL_CTRL, 1, 2⟩
/-- R539. -/
def SVL_STATUS : Nat := 0x40120004
def SVL_STATUS_LANE_UP : Fld := ⟨SVL_STATUS, 0, 2⟩
def SVL_STATUS_TRAINED : Fld := ⟨SVL_STATUS, 2, 1⟩
/-- R539. -/
def SVL_RETX : Nat := 0x40120008
def SVL_RETX_COUNT : Fld := ⟨SVL_RETX, 0, 32⟩
/-- R539. -/
def SVL_NAK : Nat := 0x4012000C
def SVL_NAK_COUNT : Fld := ⟨SVL_NAK, 0, 32⟩
/-- R539. -/
def SVL_FAILS : Nat := 0x40120010
def SVL_FAILS_COUNT : Fld := ⟨SVL_FAILS, 0, 16⟩
/-- R539. -/
def SVL_EVT_STATUS : Nat := 0x40120014
/-- R540. -/
def DUO_CTRL : Nat := 0x40130000
def DUO_CTRL_EN : Fld := ⟨DUO_CTRL, 0, 1⟩
def DUO_CTRL_LOCKSTEP : Fld := ⟨DUO_CTRL, 8, 1⟩
def DUO_CTRL_ROLE : Fld := ⟨DUO_CTRL, 9, 1⟩
def DUO_CTRL_STATE : Fld := ⟨DUO_CTRL, 12, 3⟩
/-- R540. -/
def DUO_CFG : Nat := 0x40130008
def DUO_CFG_PAIR_ID : Fld := ⟨DUO_CFG, 0, 16⟩
def DUO_CFG_HOME : Fld := ⟨DUO_CFG, 16, 1⟩
def DUO_CFG_REVERT : Fld := ⟨DUO_CFG, 17, 1⟩
def DUO_CFG_DEBUG_LEAVE : Fld := ⟨DUO_CFG, 18, 1⟩
def DUO_CFG_TAKE_UNSYNCED : Fld := ⟨DUO_CFG, 19, 1⟩
def DUO_CFG_PEER_GPIO : Fld := ⟨DUO_CFG, 20, 3⟩
def DUO_CFG_PEER_EN : Fld := ⟨DUO_CFG, 23, 1⟩
/-- R540. -/
def DUO_TIMEOUT : Nat := 0x40130010
def DUO_TIMEOUT_TICKS : Fld := ⟨DUO_TIMEOUT, 0, 8⟩
/-- R540. -/
def DUO_REVERT_HOLD : Nat := 0x40130014
def DUO_REVERT_HOLD_TICKS : Fld := ⟨DUO_REVERT_HOLD, 0, 24⟩
/-- R540. -/
def DUO_JOIN : Nat := 0x40130018
def DUO_JOIN_AGREE : Fld := ⟨DUO_JOIN, 0, 16⟩
def DUO_JOIN_LIMIT : Fld := ⟨DUO_JOIN, 16, 16⟩
/-- R540. -/
def DUO_DYN : Nat := 0x4013001C
def DUO_DYN_INGOT : Fld := ⟨DUO_DYN, 0, 16⟩
def DUO_DYN_BASE : Fld := ⟨DUO_DYN, 16, 16⟩
/-- R540. -/
def DUO_STATUS : Nat := 0x40130020
def DUO_STATUS_LINK_HB : Fld := ⟨DUO_STATUS, 0, 1⟩
def DUO_STATUS_NET0_HB : Fld := ⟨DUO_STATUS, 1, 1⟩
def DUO_STATUS_NET1_HB : Fld := ⟨DUO_STATUS, 2, 1⟩
def DUO_STATUS_INSYNC : Fld := ⟨DUO_STATUS, 3, 1⟩
def DUO_STATUS_AGREE : Fld := ⟨DUO_STATUS, 8, 24⟩
/-- R540. -/
def DUO_ESC_OFS_LO : Nat := 0x40130024
def DUO_ESC_OFS_LO_OFS : Fld := ⟨DUO_ESC_OFS_LO, 0, 32⟩
/-- R540. -/
def DUO_ESC_OFS_HI : Nat := 0x40130028
def DUO_ESC_OFS_HI_OFS : Fld := ⟨DUO_ESC_OFS_HI, 0, 32⟩
/-- R540. -/
def DUO_DIVERGE : Nat := 0x4013002C
def DUO_DIVERGE_GROUPS : Fld := ⟨DUO_DIVERGE, 0, 16⟩
/-- R540. -/
def DUO_MIRROR : Nat := 0x40130030
def DUO_MIRROR_SAP_MIR : Fld := ⟨DUO_MIRROR, 0, 8⟩
def DUO_MIRROR_SAP_SRC : Fld := ⟨DUO_MIRROR, 8, 8⟩
def DUO_MIRROR_MADI_SRC : Fld := ⟨DUO_MIRROR, 16, 2⟩
/-- R540. -/
def DUO_NHB_ADDR : Nat := 0x40130038
/-- R540. -/
def DUO_NHB_PORT : Nat := 0x4013003C
def DUO_NHB_PORT_PORT : Fld := ⟨DUO_NHB_PORT, 0, 16⟩
/-- R540. -/
def DUO_SYNC : Nat := 0x40130040
def DUO_SYNC_ROUND : Fld := ⟨DUO_SYNC, 0, 8⟩
def DUO_SYNC_KIB_LEFT : Fld := ⟨DUO_SYNC, 8, 24⟩
/-- R540. -/
def DUO_COUNT : Nat := 0x40130044
def DUO_COUNT_FAILOVERS : Fld := ⟨DUO_COUNT, 0, 16⟩
def DUO_COUNT_DIVERGENCES : Fld := ⟨DUO_COUNT, 16, 16⟩
/-- R540. -/
def DUO_EVT_STATUS : Nat := 0x40130048
/-- R569. -/
def CUE_CTRL : Nat := 0x40140000
def CUE_CTRL_EN : Fld := ⟨CUE_CTRL, 0, 1⟩
/-- R569. -/
def CUE_EVT_STATUS : Nat := 0x40140004
/-- R569. -/
def CUE_JACK_CFG : Nat := 0x40140010
def CUE_JACK_CFG_POL : Fld := ⟨CUE_JACK_CFG, 0, 1⟩
/-- R569. -/
def CUE_JACK_STATUS : Nat := 0x40140014
def CUE_JACK_STATUS_CLASS : Fld := ⟨CUE_JACK_STATUS, 0, 3⟩
def CUE_JACK_STATUS_INSERTED : Fld := ⟨CUE_JACK_STATUS, 3, 1⟩
def CUE_JACK_STATUS_CODE_A : Fld := ⟨CUE_JACK_STATUS, 8, 8⟩
def CUE_JACK_STATUS_CODE_B : Fld := ⟨CUE_JACK_STATUS, 16, 8⟩
/-- R569. -/
def CUE_MIC_CFG : Nat := 0x40140020
def CUE_MIC_CFG_EN : Fld := ⟨CUE_MIC_CFG, 0, 1⟩
def CUE_MIC_CFG_PAIR_SRC : Fld := ⟨CUE_MIC_CFG, 8, 1⟩
/-- R569. -/
def CUE_BTN_CFG : Nat := 0x40140024
def CUE_BTN_CFG_DEBOUNCE : Fld := ⟨CUE_BTN_CFG, 0, 7⟩
def CUE_BTN_CFG_LONG : Fld := ⟨CUE_BTN_CFG, 8, 6⟩
def CUE_BTN_CFG_MUTE : Fld := ⟨CUE_BTN_CFG, 16, 1⟩
/-- R569. -/
def CUE_BTN_STATUS : Nat := 0x40140028
def CUE_BTN_STATUS_BTN : Fld := ⟨CUE_BTN_STATUS, 0, 4⟩
def CUE_BTN_STATUS_CODE : Fld := ⟨CUE_BTN_STATUS, 8, 8⟩
/-- R569. -/
def CUE_BTN_TH (i : Nat) : Nat := 0x40140030 + 0x4 * i
def CUE_BTN_TH_LO (i : Nat) : Fld := ⟨(CUE_BTN_TH i), 0, 8⟩
def CUE_BTN_TH_HI (i : Nat) : Fld := ⟨(CUE_BTN_TH i), 8, 8⟩
def CUE_BTN_TH_EN (i : Nat) : Fld := ⟨(CUE_BTN_TH i), 16, 1⟩
/-- R569. -/
def CUE_HP_CFG : Nat := 0x40140040
def CUE_HP_CFG_EN : Fld := ⟨CUE_HP_CFG, 0, 1⟩
/-- R569. -/
def CUE_SPK_CFG : Nat := 0x40140044
def CUE_SPK_CFG_EN : Fld := ⟨CUE_SPK_CFG, 0, 1⟩
/-- R569. -/
def CUE_SPK_STATUS : Nat := 0x40140048
def CUE_SPK_STATUS_STATE : Fld := ⟨CUE_SPK_STATUS, 0, 3⟩
def CUE_SPK_STATUS_ATTEMPTS : Fld := ⟨CUE_SPK_STATUS, 4, 3⟩
def CUE_SPK_STATUS_FINAL : Fld := ⟨CUE_SPK_STATUS, 8, 1⟩
def CUE_SPK_STATUS_TEMP : Fld := ⟨CUE_SPK_STATUS, 16, 8⟩
/-- R569. -/
def CUE_OUT_STATUS : Nat := 0x4014004C
def CUE_OUT_STATUS_HP_LIMIT : Fld := ⟨CUE_OUT_STATUS, 4, 1⟩
/-- R569. -/
def CUE_SIL_CFG (i : Nat) : Nat := 0x40140050 + 0x4 * i
def CUE_SIL_CFG_EN (i : Nat) : Fld := ⟨(CUE_SIL_CFG i), 0, 1⟩
def CUE_SIL_CFG_THRESH (i : Nat) : Fld := ⟨(CUE_SIL_CFG i), 1, 7⟩
def CUE_SIL_CFG_HYST (i : Nat) : Fld := ⟨(CUE_SIL_CFG i), 8, 4⟩
def CUE_SIL_CFG_TIME (i : Nat) : Fld := ⟨(CUE_SIL_CFG i), 12, 12⟩
/-- R569. -/
def CUE_SIL_CTRL : Nat := 0x40140058
def CUE_SIL_CTRL_IDLE_REQ : Fld := ⟨CUE_SIL_CTRL, 0, 1⟩
/-- R569. -/
def CUE_SIL_STATUS : Nat := 0x4014005C
/-- R569. -/
def CUE_LISTEN : Nat := 0x40140060
def CUE_LISTEN_RING_EN : Fld := ⟨CUE_LISTEN, 0, 1⟩
def CUE_LISTEN_TENANT : Fld := ⟨CUE_LISTEN, 4, 4⟩
def CUE_LISTEN_WAKE_BTN : Fld := ⟨CUE_LISTEN, 8, 4⟩
/-- R569. -/
def CUE_LISTEN_STATUS : Nat := 0x40140064
def CUE_LISTEN_STATUS_FAULT : Fld := ⟨CUE_LISTEN_STATUS, 0, 1⟩
/-- R569. -/
def CUE_RING_BASE : Nat := 0x40140068
/-- R569. -/
def CUE_RING_CNT_LO : Nat := 0x4014006C
/-- R569. -/
def CUE_RING_CNT_HI : Nat := 0x40140070
/-- R569. -/
def CUE_RING_TICK : Nat := 0x40140074
/-- R569. -/
def CUE_FETCH_FROM_LO : Nat := 0x40140080
/-- R569. -/
def CUE_FETCH_FROM_HI : Nat := 0x40140084
/-- R569. -/
def CUE_FETCH_CFG : Nat := 0x40140088
def CUE_FETCH_CFG_LEN : Fld := ⟨CUE_FETCH_CFG, 0, 13⟩
def CUE_FETCH_CFG_REL : Fld := ⟨CUE_FETCH_CFG, 15, 1⟩
def CUE_FETCH_CFG_DEST : Fld := ⟨CUE_FETCH_CFG, 16, 16⟩
/-- R569. -/
def CUE_FETCH_CTRL : Nat := 0x4014008C
/-- R569. -/
def CUE_FETCH_STATUS : Nat := 0x40140090
def CUE_FETCH_STATUS_BUSY : Fld := ⟨CUE_FETCH_STATUS, 0, 1⟩
def CUE_FETCH_STATUS_DONE : Fld := ⟨CUE_FETCH_STATUS, 1, 1⟩
def CUE_FETCH_STATUS_OVERRUN : Fld := ⟨CUE_FETCH_STATUS, 2, 1⟩
/-- R603. -/
def PCIE_STATUS : Nat := 0x40170000
def PCIE_STATUS_LINK_UP : Fld := ⟨PCIE_STATUS, 0, 1⟩
def PCIE_STATUS_SPEED : Fld := ⟨PCIE_STATUS, 1, 2⟩
def PCIE_STATUS_L1 : Fld := ⟨PCIE_STATUS, 3, 1⟩
def PCIE_STATUS_ARI : Fld := ⟨PCIE_STATUS, 4, 1⟩
def PCIE_STATUS_VF_EN : Fld := ⟨PCIE_STATUS, 16, 16⟩
/-- R603. -/
def PCIE_EVT_STATUS : Nat := 0x40170004
/-- R603. -/
def PCIE_VENDOR : Nat := 0x4017000C
def PCIE_VENDOR_VID : Fld := ⟨PCIE_VENDOR, 0, 16⟩
/-- R603. -/
def PCIE_PF_MSI_TRIG : Nat := 0x40170010
/-- R603. -/
def PCIE_FLR_PEND : Nat := 0x40170014
def PCIE_FLR_PEND_VF : Fld := ⟨PCIE_FLR_PEND, 0, 16⟩
def PCIE_FLR_PEND_PF : Fld := ⟨PCIE_FLR_PEND, 16, 1⟩
/-- R603. -/
def PCIE_VF_TRIG (i : Nat) : Nat := 0x40170040 + 0x4 * i
/-- R603. -/
def PCIE_VF_APERTURE (i : Nat) : Nat := 0x40170080 + 0x4 * i
def PCIE_VF_APERTURE_VA (i : Nat) : Fld := ⟨(PCIE_VF_APERTURE i), 14, 18⟩
/-- R603. -/
def PCIE_BOOT_STATUS : Nat := 0x4017010C
def PCIE_BOOT_STATUS_STATE : Fld := ⟨PCIE_BOOT_STATUS, 0, 3⟩
def PCIE_BOOT_STATUS_SRC : Fld := ⟨PCIE_BOOT_STATUS, 4, 2⟩
def PCIE_BOOT_STATUS_ERR : Fld := ⟨PCIE_BOOT_STATUS, 8, 4⟩
/-- R604. -/
def QSPI_CTRL : Nat := 0x40190000
def QSPI_CTRL_EN : Fld := ⟨QSPI_CTRL, 0, 1⟩
/-- R604. -/
def QSPI_CMD : Nat := 0x40190008
def QSPI_CMD_OPCODE : Fld := ⟨QSPI_CMD, 0, 8⟩
def QSPI_CMD_LEN : Fld := ⟨QSPI_CMD, 16, 9⟩
def QSPI_CMD_WRITE : Fld := ⟨QSPI_CMD, 28, 1⟩
/-- R604. -/
def QSPI_STATUS : Nat := 0x40190010
def QSPI_STATUS_BUSY : Fld := ⟨QSPI_STATUS, 0, 1⟩
def QSPI_STATUS_DONE : Fld := ⟨QSPI_STATUS, 1, 1⟩
/-- R604. -/
def QSPI_EVT_STATUS : Nat := 0x40190014
/-- R604. -/
def QSPI_DATA (i : Nat) : Nat := 0x40190100 + 0x4 * i
/-- R605. -/
def TWB_CTRL : Nat := 0x40180000
def TWB_CTRL_EN : Fld := ⟨TWB_CTRL, 0, 1⟩
def TWB_CTRL_ACCEPT : Fld := ⟨TWB_CTRL, 1, 1⟩
/-- R605. -/
def TWB_CFG : Nat := 0x40180004
def TWB_CFG_MASKED : Fld := ⟨TWB_CFG, 2, 1⟩
/-- R605. -/
def TWB_ADDR (i : Nat) : Nat := 0x40180010 + 0x4 * i
/-- R605. -/
def TWB_STATUS : Nat := 0x40180020
def TWB_STATUS_BUSY : Fld := ⟨TWB_STATUS, 0, 1⟩
def TWB_STATUS_LAST : Fld := ⟨TWB_STATUS, 8, 7⟩
/-- R605. -/
def TWB_COUNT : Nat := 0x40180024
def TWB_COUNT_NACKS : Fld := ⟨TWB_COUNT, 0, 16⟩
def TWB_COUNT_STRETCHES : Fld := ⟨TWB_COUNT, 16, 16⟩
/-- R605. -/
def TWB_EVT_STATUS : Nat := 0x40180028
/-- R631. -/
def PWR_STATUS : Nat := 0x401E0000
def PWR_STATUS_MODE : Fld := ⟨PWR_STATUS, 0, 2⟩
def PWR_STATUS_WAKE_PIN : Fld := ⟨PWR_STATUS, 6, 1⟩
/-- R631. -/
def PWR_CMD : Nat := 0x401E0004
/-- R631. -/
def PWR_CFG : Nat := 0x401E0008
def PWR_CFG_IDLE_AUTO : Fld := ⟨PWR_CFG, 0, 1⟩
def PWR_CFG_WAKE_EN : Fld := ⟨PWR_CFG, 1, 1⟩
def PWR_CFG_WAKE_POL : Fld := ⟨PWR_CFG, 2, 1⟩
def PWR_CFG_TWB_WAKE : Fld := ⟨PWR_CFG, 3, 1⟩
/-- R631. -/
def PWR_IDLE_CORES : Nat := 0x401E0010
def PWR_IDLE_CORES_AC : Fld := ⟨PWR_IDLE_CORES, 0, 16⟩
/-- R631. -/
def PWR_LISTEN_KEEP : Nat := 0x401E0014
/-- R631. -/
def PWR_REQ : Nat := 0x401E0018
def PWR_REQ_RUN : Fld := ⟨PWR_REQ, 0, 1⟩
/-- R631. -/
def PWR_RESET_CAUSE : Nat := 0x401E0020
def PWR_RESET_CAUSE_LAST : Fld := ⟨PWR_RESET_CAUSE, 0, 4⟩
def PWR_RESET_CAUSE_SEEN : Fld := ⟨PWR_RESET_CAUSE, 8, 8⟩
def PWR_RESET_CAUSE_WDT_REASON : Fld := ⟨PWR_RESET_CAUSE, 16, 2⟩
/-- R631. -/
def PWR_WAKE_CAUSE : Nat := 0x401E0024
def PWR_WAKE_CAUSE_SRC : Fld := ⟨PWR_WAKE_CAUSE, 0, 3⟩
/-- R631. -/
def PWR_EVT_STATUS : Nat := 0x401E0028
/-- R631. -/
def PWR_KEEP_CFG : Nat := 0x401E0030
def PWR_KEEP_CFG_BANDREC : Fld := ⟨PWR_KEEP_CFG, 0, 1⟩
/-- R631. -/
def PWR_GPIO_CFG (i : Nat) : Nat := 0x401E0040 + 0x4 * i
def PWR_GPIO_CFG_DIR (i : Nat) : Fld := ⟨(PWR_GPIO_CFG i), 0, 1⟩
def PWR_GPIO_CFG_EDGE (i : Nat) : Fld := ⟨(PWR_GPIO_CFG i), 2, 2⟩
def PWR_GPIO_CFG_TENANT (i : Nat) : Fld := ⟨(PWR_GPIO_CFG i), 4, 4⟩
def PWR_GPIO_CFG_V (i : Nat) : Fld := ⟨(PWR_GPIO_CFG i), 8, 1⟩
/-- R631. -/
def PWR_GPIO_OUT : Nat := 0x401E0060
/-- R631. -/
def PWR_GPIO_IN : Nat := 0x401E0064
/-- R631. -/
def PWR_KEEP (i : Nat) : Nat := 0x401E0100 + 0x4 * i
/-- R633. -/
def WDT_CTRL : Nat := 0x401A0000
def WDT_CTRL_RUNNING : Fld := ⟨WDT_CTRL, 1, 1⟩
def WDT_CTRL_LOCKED : Fld := ⟨WDT_CTRL, 2, 1⟩
/-- R633. -/
def WDT_PERIOD : Nat := 0x401A0004
def WDT_PERIOD_TICKS : Fld := ⟨WDT_PERIOD, 0, 22⟩
/-- R633. -/
def WDT_SERVICE : Nat := 0x401A0008
/-- R633. -/
def WDT_COUNT : Nat := 0x401A000C
def WDT_COUNT_COUNT : Fld := ⟨WDT_COUNT, 0, 22⟩
/-- R633. -/
def WDT_FUSES : Nat := 0x401A0010
def WDT_FUSES_WIN : Fld := ⟨WDT_FUSES, 0, 2⟩
def WDT_FUSES_HWSTART : Fld := ⟨WDT_FUSES, 2, 1⟩
/-- R633. -/
def WDT_STATUS : Nat := 0x401A0014
def WDT_STATUS_OPEN : Fld := ⟨WDT_STATUS, 0, 1⟩
def WDT_STATUS_KEY_PEND : Fld := ⟨WDT_STATUS, 1, 1⟩
def WDT_STATUS_EARLY : Fld := ⟨WDT_STATUS, 2, 1⟩
/-- R633. -/
def WDT_EVT_STATUS : Nat := 0x401A0018
/-- R664. -/
def SEC_STATUS : Nat := 0x401B0000
def SEC_STATUS_LC : Fld := ⟨SEC_STATUS, 0, 3⟩
def SEC_STATUS_KEY_OK : Fld := ⟨SEC_STATUS, 4, 1⟩
def SEC_STATUS_REVOKED : Fld := ⟨SEC_STATUS, 8, 4⟩
def SEC_STATUS_SVN_MIN : Fld := ⟨SEC_STATUS, 16, 6⟩
/-- R664. -/
def SEC_CONSENT : Nat := 0x401B0004
def SEC_CONSENT_T : Fld := ⟨SEC_CONSENT, 0, 16⟩
/-- R664. -/
def SEC_LC_CMD : Nat := 0x401B000C
/-- R664. -/
def SEC_EVT_STATUS : Nat := 0x401B0010
/-- R664. -/
def DBG_STATUS : Nat := 0x401C0000
def DBG_STATUS_LEVEL : Fld := ⟨DBG_STATUS, 0, 2⟩
def DBG_STATUS_AUTH_PEND : Fld := ⟨DBG_STATUS, 2, 1⟩
def DBG_STATUS_WAIT : Fld := ⟨DBG_STATUS, 3, 1⟩
/-- R664. -/
def DBG_REQ : Nat := 0x401C0004
/-- R664. -/
def DBG_SCOPE : Nat := 0x401C0008
/-- R664. -/
def DBG_CTRL : Nat := 0x401C000C
def DBG_CTRL_SIDEFX : Fld := ⟨DBG_CTRL, 0, 1⟩
def DBG_CTRL_FORCE : Fld := ⟨DBG_CTRL, 1, 1⟩
def DBG_CTRL_WDT_HOLD : Fld := ⟨DBG_CTRL, 2, 1⟩
def DBG_CTRL_PWR_HOLD : Fld := ⟨DBG_CTRL, 3, 1⟩
/-- R664. -/
def DBG_AUTH : Nat := 0x401C0010
def DBG_AUTH_SUBMIT : Fld := ⟨DBG_AUTH, 0, 1⟩
/-- R664. -/
def DBG_CHAL (i : Nat) : Nat := 0x401C0020 + 0x4 * i
/-- R664. -/
def DBG_RESP (i : Nat) : Nat := 0x401C0040 + 0x4 * i
/-- R664. -/
def DBG_HALT : Nat := 0x401C0060
/-- R664. -/
def DBG_RESUME : Nat := 0x401C0064
/-- R664. -/
def DBG_STEP : Nat := 0x401C0068
/-- R664. -/
def DBG_HALTED : Nat := 0x401C006C
/-- R664. -/
def DBG_CMD : Nat := 0x401C0070
/-- R664. -/
def DBG_WP_ADDR (i : Nat) : Nat := 0x401C0080 + 0x8 * i
/-- R664. -/
def DBG_WP_CFG (i : Nat) : Nat := 0x401C0084 + 0x8 * i
def DBG_WP_CFG_R (i : Nat) : Fld := ⟨(DBG_WP_CFG i), 17, 1⟩
def DBG_WP_CFG_W (i : Nat) : Fld := ⟨(DBG_WP_CFG i), 18, 1⟩
def DBG_WP_CFG_EN (i : Nat) : Fld := ⟨(DBG_WP_CFG i), 19, 1⟩
def DBG_WP_CFG_IGN (i : Nat) : Fld := ⟨(DBG_WP_CFG i), 24, 5⟩
/-- R664. -/
def DBG_EVT_STATUS : Nat := 0x401C00A0
/-- R664. -/
def FUSE_STATUS : Nat := 0x401D0000
def FUSE_STATUS_LOADED : Fld := ⟨FUSE_STATUS, 0, 1⟩
def FUSE_STATUS_MISMATCH : Fld := ⟨FUSE_STATUS, 1, 6⟩
/-- R664. -/
def FUSE_PROG_BIT : Nat := 0x401D0008
def FUSE_PROG_BIT_IDX : Fld := ⟨FUSE_PROG_BIT, 0, 11⟩
/-- R664. -/
def FUSE_PROG_CTRL : Nat := 0x401D000C
/-- R664. -/
def FUSE_PROG_STATUS : Nat := 0x401D0010
def FUSE_PROG_STATUS_BUSY : Fld := ⟨FUSE_PROG_STATUS, 0, 1⟩
def FUSE_PROG_STATUS_DONE : Fld := ⟨FUSE_PROG_STATUS, 1, 1⟩
/-- R664. -/
def FUSE_EVT_STATUS : Nat := 0x401D0014
/-- R664. -/
def FUSE_SHADOW (i : Nat) : Nat := 0x401D0100 + 0x4 * i
/-- R686. -/
def ASSAY_CTRL : Nat := 0x40150000
def ASSAY_CTRL_SCRUB_EN : Fld := ⟨ASSAY_CTRL, 0, 1⟩
/-- R686. -/
def ASSAY_EVT_STATUS : Nat := 0x40150004
/-- R686. -/
def ASSAY_STATUS : Nat := 0x40150008
def ASSAY_STATUS_TRACKED : Fld := ⟨ASSAY_STATUS, 0, 9⟩
def ASSAY_STATUS_QUAR : Fld := ⟨ASSAY_STATUS, 16, 9⟩
def ASSAY_STATUS_QLIST_OVF : Fld := ⟨ASSAY_STATUS, 31, 1⟩
/-- R686. -/
def ASSAY_SWEEPS : Nat := 0x4015000C
def ASSAY_SWEEPS_COUNT : Fld := ⟨ASSAY_SWEEPS, 0, 32⟩
/-- R686. -/
def ASSAY_WRITE_CNT : Nat := 0x40150010
def ASSAY_WRITE_CNT_COUNT : Fld := ⟨ASSAY_WRITE_CNT, 0, 32⟩
/-- R686. -/
def ASSAY_HELD_CNT : Nat := 0x40150014
def ASSAY_HELD_CNT_COUNT : Fld := ⟨ASSAY_HELD_CNT, 0, 32⟩
/-- R686. -/
def ASSAY_MOTION_DMA : Nat := 0x40150018
/-- R686. -/
def ASSAY_QCLR : Nat := 0x40150030
/-- R686. -/
def ASSAY_QLIST (i : Nat) : Nat := 0x40150400 + 0x4 * i
/-- R687. -/
def ADAPT_STATUS : Nat := 0x40160000
def ADAPT_STATUS_LEVEL : Fld := ⟨ADAPT_STATUS, 0, 2⟩
def ADAPT_STATUS_TARGET : Fld := ⟨ADAPT_STATUS, 4, 2⟩
def ADAPT_STATUS_SAFE_THERM : Fld := ⟨ADAPT_STATUS, 8, 1⟩
def ADAPT_STATUS_SAFE_UV : Fld := ⟨ADAPT_STATUS, 9, 1⟩
def ADAPT_STATUS_AT_CEIL : Fld := ⟨ADAPT_STATUS, 10, 1⟩
def ADAPT_STATUS_STOPPED : Fld := ⟨ADAPT_STATUS, 11, 1⟩
def ADAPT_STATUS_CAUSE : Fld := ⟨ADAPT_STATUS, 16, 4⟩
/-- R687. -/
def ADAPT_EVT_STATUS : Nat := 0x40160004
/-- R687. -/
def ADAPT_POLICY : Nat := 0x40160010
def ADAPT_POLICY_AVS_EN : Fld := ⟨ADAPT_POLICY, 0, 1⟩
def ADAPT_POLICY_THERM_EN : Fld := ⟨ADAPT_POLICY, 1, 1⟩
def ADAPT_POLICY_LOAD_EN : Fld := ⟨ADAPT_POLICY, 2, 1⟩
def ADAPT_POLICY_FORCE : Fld := ⟨ADAPT_POLICY, 8, 2⟩
def ADAPT_POLICY_SHED_PRIO : Fld := ⟨ADAPT_POLICY, 16, 5⟩
/-- R687. -/
def ADAPT_AVS_CFG : Nat := 0x40160018
def ADAPT_AVS_CFG_FLOOR : Fld := ⟨ADAPT_AVS_CFG, 0, 10⟩
def ADAPT_AVS_CFG_CEIL : Fld := ⟨ADAPT_AVS_CFG, 16, 10⟩
/-- R687. -/
def ADAPT_THERM_CFG : Nat := 0x40160020
def ADAPT_THERM_CFG_LIMIT : Fld := ⟨ADAPT_THERM_CFG, 0, 7⟩
/-- R687. -/
def ADAPT_AVS_MARGIN : Nat := 0x40160028
def ADAPT_AVS_MARGIN_LO : Fld := ⟨ADAPT_AVS_MARGIN, 0, 8⟩
def ADAPT_AVS_MARGIN_HI : Fld := ⟨ADAPT_AVS_MARGIN, 8, 8⟩
/-- R687. -/
def ADAPT_AVS_REQ : Nat := 0x4016002C
def ADAPT_AVS_REQ_MV : Fld := ⟨ADAPT_AVS_REQ, 0, 10⟩
/-- R687. -/
def ADAPT_AVS_MEAS : Nat := 0x40160030
def ADAPT_AVS_MEAS_MV : Fld := ⟨ADAPT_AVS_MEAS, 0, 10⟩
/-- R687. -/
def ADAPT_RO : Nat := 0x40160034
def ADAPT_RO_COUNT : Fld := ⟨ADAPT_RO, 0, 12⟩
/-- R687. -/
def ADAPT_TEMP (i : Nat) : Nat := 0x40160040 + 0x4 * i
def ADAPT_TEMP_TEMP (i : Nat) : Fld := ⟨(ADAPT_TEMP i), 0, 11⟩
/-- R687. -/
def ADAPT_LOAD_CFG : Nat := 0x40160050
def ADAPT_LOAD_CFG_HI : Fld := ⟨ADAPT_LOAD_CFG, 0, 7⟩
def ADAPT_LOAD_CFG_LO : Fld := ⟨ADAPT_LOAD_CFG, 8, 7⟩
/-- R687. -/
def ADAPT_LOAD : Nat := 0x40160054
def ADAPT_LOAD_F : Fld := ⟨ADAPT_LOAD, 0, 7⟩
/-- R687. -/
def ADAPT_DWELL : Nat := 0x40160058
def ADAPT_DWELL_TICKS : Fld := ⟨ADAPT_DWELL, 0, 24⟩

end Sys2Proof.Machine
end

