-- ==== Sys2Proof/Machine/Table.lean ====
section
/-!
DEFINITION. Sparse tables in one canonical form: a list of (index, value) pairs
with rising indices and no entry equal to what an unlisted index reads as.
Registers, memory and every indexed piece of the engine's state are such tables,
so that equal contents are equal data.
-/
namespace Sys2Proof.Machine

/-- A sparse table: unlisted indices read as a default named where it is read. -/
abbrev Tbl (α : Type) := List (Nat × α)

variable {α : Type}

/-- The value at index `i`; `d` says what unlisted indices read as. -/
def Tbl.getF (d : Nat → α) : Tbl α → Nat → α
  | [], i => d i
  | (k, v) :: t, i => if i = k then v else Tbl.getF d t i

/-- An entry put where its index stands in rising order. -/
def Tbl.insert (i : Nat) (v : α) : Tbl α → Tbl α
  | [] => [(i, v)]
  | (k, w) :: t => if i < k then (i, v) :: (k, w) :: t else (k, w) :: Tbl.insert i v t

/-- The table without index `i`. -/
def Tbl.drop (i : Nat) : Tbl α → Tbl α
  | [] => []
  | (k, w) :: t => if i = k then Tbl.drop i t else (k, w) :: Tbl.drop i t

/-- The table with the value at `i` made `v`, keeping the canonical form: writing
what an unlisted index reads as removes the entry. -/
def Tbl.setF [DecidableEq α] (d : Nat → α) (t : Tbl α) (i : Nat) (v : α) : Tbl α :=
  if v = d i then Tbl.drop i t else Tbl.insert i v (Tbl.drop i t)

/-- Every index of the table is at least `lo`, the indices rise strictly, and no
entry equals what an unlisted index reads as. -/
def Tbl.wfFrom [DecidableEq α] (d : Nat → α) : Nat → Tbl α → Bool
  | _, [] => true
  | lo, (k, v) :: t => decide (lo ≤ k) && decide (v ≠ d k) && Tbl.wfFrom d (k + 1) t

/-- The canonical form. -/
def Tbl.wf [DecidableEq α] (d : Nat → α) (t : Tbl α) : Bool := Tbl.wfFrom d 0 t

/-- Reading with one default for every index. -/
def Tbl.get (d : α) (t : Tbl α) (i : Nat) : α := Tbl.getF (fun _ => d) t i

/-- Writing with one default for every index. -/
def Tbl.set [DecidableEq α] (d : α) (t : Tbl α) (i : Nat) (v : α) : Tbl α :=
  Tbl.setF (fun _ => d) t i v

end Sys2Proof.Machine
end

