-- ==== Sys2Proof/Machine/State.lean ====
section
/-!
DEFINITION. The state of the block as plain data. Everything software or the
outside can read at an address lives in one register table (`Engine.regs`) or in
one memory (`Engine.mem`); what the manual gives the machine beyond that lives
in one structure per block. `State` adds the queue of waiting commands and the
one-time-programmable fuse array, which no register write but a fuse blow reaches.
-/
namespace Sys2Proof.Machine

/-- The severities of R36. -/
inductive Sev where
  | note | warn | fault | fatal
  deriving DecidableEq, Repr

/-- An event record (R36) before it is written anywhere: `queue` names the tenant
event queue it also goes to, when its chapter assigns it to one, and `also` any further ones. -/
structure Evt where
  block  : Nat
  code   : Nat
  sev    : Sev
  tenant : Nat := 0
  hm     : Nat := 0xFF
  w2     : Nat := 0
  w3     : Nat := 0
  esc    : Nat := 0
  queue  : Option Nat := none
  also   : List Nat := []
  deriving DecidableEq, Repr

/-- A pending even value of a complement-paired register (R10): the value, the
hallmark that wrote it and the FABRIC cycle E in which it arrived. -/
structure CpPend where
  val : Word
  hm  : Nat
  cyc : Nat
  deriving DecidableEq, Repr

/-- A completed pair whose value takes effect in the next FABRIC cycle (R11). -/
structure CpDue where
  addr : Nat
  val  : Word
  by_  : Sender
  deriving DecidableEq, Repr

/-- A two-write key sequence in progress (R44, R632, R638, R639): the hallmark,
how many key words it has written, and the cycle of the last. -/
structure KeySt where
  hm   : Nat := 0
  step : Nat := 0
  cyc  : Nat := 0
  deriving DecidableEq, Repr

/-- The tick (R19 to R30), the firmware event ring's loss count (R40) and the SYS
key sequence (R44). -/
structure TickSt where
  /-- The ESC of the sample period in progress; the held value while stopped (R24). -/
  esc      : Nat := 0
  /-- RUN was set: GATHER starts at the next sample period (R27). -/
  startReq : Bool := false
  /-- A run request held because the PLL is not LOCKED (R74). -/
  heldRun  : Bool := false
  /-- The boundary G at which GATHER stops, while a stop is in progress (R28). -/
  stopG    : Option Nat := none
  /-- A safe stop is in progress: the ESC holds at the next multiple of 32 (R72). -/
  safeStop : Bool := false
  /-- The next multiple of 32 when the safe stop began, where the ESC holds (R72). -/
  safeHold : Nat := 0
  /-- The block after the last one whose TAQ cut-off has passed (b* of R138). -/
  cutNext  : Nat := 0
  /-- The FABRIC cycle in which the current tick began. -/
  startCyc : Nat := 0
  /-- The tick whose start has been taken. -/
  started  : Option Nat := none
  /-- The first block gathered since the tick last started. -/
  firstBlk : Nat := 0
  /-- The block whose outputs SCATTER has taken last (R22). -/
  guardBlk : Option Nat := none
  /-- Blocks a relock discards (R60). -/
  discard  : List Nat := []
  /-- Every output is hard-muted by a safe stop (R72). -/
  muted    : Bool := false
  /-- Records discarded since the last record written (R40). -/
  evrLost  : Nat := 0
  key      : KeySt := {}
  deriving DecidableEq, Repr

/-- A relock in progress (R60): the word and the band it goes to, the word and
band in use before it, the band codes tried (R76), the step of R60 last taken,
and whether it runs with the tick stopped. -/
structure Relock where
  word    : Nat
  entry   : Nat
  oldBand : Nat
  tried   : List Nat
  step    : Nat
  stopped : Bool
  deriving DecidableEq, Repr

/-- The root clock beyond its registers (R49 to R76). -/
structure ClkSt where
  /-- The range of the band in use, in band units, as recorded when it was chosen (R77). -/
  bandLo    : Nat := 0
  bandHi    : Nat := 0
  /-- The newest commit held by R58 or R75. -/
  held      : Option Nat := none
  /-- The hallmark that made the held commit; 0xFF for REF. -/
  heldHm    : Nat := 0xFF
  /-- The FABRIC cycle of the last small step applied (R58). -/
  lastApply : Option Nat := none
  relock    : Option Relock := none
  /-- A relock waits for the engine to leave its pair at block F (R71). -/
  departing : Bool := false
  deriving DecidableEq, Repr

/-- The measurement state of one reference source (R82 to R85). -/
structure RefSrc where
  /-- 0.1 s units of consecutive good gates since t_q (QUALIFYING). -/
  good    : Nat := 0
  /-- 0.1 s units of consecutive good gates since disqualification (hold-off). -/
  holdoff : Nat := 0
  /-- OK was not 1 throughout the current gate of source 0 (R85). -/
  okFell  : Bool := false
  /-- A loss of signal fell in the current gate (R82). -/
  losGate : Bool := false
  deriving DecidableEq, Repr

/-- Reference selection beyond its registers (R80 to R109). Phases are in fine
units: 10^-12 of a phase unit of 2^-8 root period. -/
structure RefSt where
  src       : Tbl RefSrc := []
  /-- Source frequency of the tracking loop in ppt (R92). -/
  loopPpt   : Int := 0
  /-- Pending phase set by switches and by written steps (R96, R97). -/
  pendSw    : Int := 0
  pendStep  : Int := 0
  /-- The phase the pull moves in the current update interval (R98). -/
  moving    : Int := 0
  /-- The generator's phase minus the engine's sample phase (R107). -/
  outOfs    : Int := 0
  /-- The pull-free word, and its sum and count within the current second. -/
  freeWord  : Nat := 100 * 2 ^ 40
  secSum    : Nat := 0
  secCnt    : Nat := 0
  /-- (sum, count) of the pull-free word of each second, newest first, at most
  1,024 (R100). -/
  history   : List (Nat × Nat) := []
  /-- The newest entry ended less than a second ago. -/
  histNew   : Bool := false
  /-- REF did not track throughout the current second. -/
  secPart   : Bool := true
  /-- Forced holdover has ended and the next update selects (R102). -/
  resel     : Bool := false
  /-- The holdover word (R100). -/
  holdWord  : Nat := 100 * 2 ^ 40
  /-- Samples to the next PPS_OUT and FRAME_OUT pulse starts (R106, R108). -/
  ppsCnt    : Nat := 0
  frameCnt  : Nat := 0
  /-- A REALIGN is requested for the next block's first sample (R108). -/
  realign   : Bool := false
  /-- The ESC of the last REALIGN, which a second one at that sample joins (R109). -/
  realigned : Option Nat := none
  /-- The ESCs of fired REALIGN actions (R136). -/
  realignDue : List Nat := []
  /-- REF_VSEQ.PHASE was written; the next frame start takes it (R104). -/
  vseqWrite : Option Nat := none
  /-- The signals the output timing generator drives: WCLK_OUT, PPS_OUT, FRAME_OUT
  follow REF_OUT_CFG; the counter of generator samples they come from. -/
  genCnt    : Nat := 0
  deriving DecidableEq, Repr

/-- An egress time-stamp (R128): port, messageType, sequenceId and the corrected
time in units of 2^-32 ns. -/
structure Txts where
  port  : Nat
  mtype : Nat
  seq   : Nat
  time  : Int
  deriving DecidableEq, Repr

/-- A commanded step of network time (R118): SET or ADD, its amount in units of 2^-32 ns, and
the hallmark it came from. -/
structure AdjStep where
  set : Bool
  amt : Int
  hm  : Nat
  deriving DecidableEq, Repr

/-- Network time beyond its registers (R113 to R133). -/
structure TimeSt where
  /-- Network time in units of 2^-32 ns (48-bit seconds, ns and fraction, R113). -/
  t        : Int := 0
  /-- Half a unit more (12.5 times an odd increment, R61). -/
  half     : Bool := false
  /-- The latch L_b in units of 2^-32 ns, and the block it belongs to (R130). -/
  latch    : Int := 0
  latchBlk : Option Nat := none
  latchEsc : Nat := 0
  mcc      : Int := 0
  /-- The next latch derives the MCC afresh (R132). -/
  rederive : Bool := true
  /-- Steps commanded in this FABRIC cycle, which take effect in the next one (R118). -/
  steps    : List AdjStep := []
  /-- Network time, and whether the MCC is to be derived afresh, from before a step of this
  FABRIC cycle: a latch of the cycle takes them. -/
  prior    : Option (Int × Bool) := none
  txts     : List Txts := []
  deriving DecidableEq, Repr

/-- The states of a TAQ entry (R138). -/
inductive TaqState where
  | free | pending | resolved | done | cancelled
  deriving DecidableEq, Repr

/-- A TAQ entry beyond its words and status (R134 to R141). -/
structure TaqEntry where
  state : TaqState := .free
  late  : Bool := false
  hm    : Nat := 0
  dma   : Bool := false
  esc   : Nat := 0
  /-- The CTRL, PARAM and target words as they stood when the entry was armed. -/
  ctrl  : Word := 0#32
  param : Word := 0#32
  tgtLo : Word := 0#32
  tgtHi : Word := 0#32
  /-- The hallmarks that last completed TGT_LO, TGT_HI and PARAM (R137). -/
  hmLo  : Option Nat := none
  hmHi  : Option Nat := none
  hmPar : Option Nat := none
  deriving DecidableEq, Repr

/-- What a fired entry does (R136): a SWAP of its group, a PATCH or MUTE of a destination,
or another action, which its own block holds until it is due. -/
inductive FiredAct where
  | swap (g : Nat)
  | patch (d : Nat) (v : Word)
  | mute (d : Nat) (m : Bool) (len : Nat)
  | other
  | task (d : Nat)
  deriving DecidableEq, Repr

/-- A fired entry with its resolved ESC. -/
structure Fired where
  entry : Nat
  esc   : Nat
  act   : FiredAct
  deriving DecidableEq, Repr

/-- The timed action queue (R134 to R147): its entries, the fired actions that wait for their
sample in the order of R143, and the fired entries of recent blocks (R142). -/
structure TaqSt where
  ent   : Tbl TaqEntry := []
  due   : List Fired := []
  fired : List Fired := []
  deriving DecidableEq, Repr

/-- One register bank's task context (R152, R153): general registers, accumulators
(the signed value of the 72 bits), pointers, bases, lengths, steps, predicates
Q1 to Q3, and the special registers. -/
structure CoreCtx where
  g     : Tbl Word := []
  acc   : Tbl Int := []
  p     : Tbl Word := []
  b     : Tbl Word := []
  l     : Tbl Nat := []
  m     : Tbl Word := []
  q     : Tbl Bool := []
  pc    : Nat := 0
  z     : Bool := false
  n     : Bool := false
  c     : Bool := false
  v     : Bool := false
  sat   : Bool := false
  rmode : Bool := false
  saten : Bool := false
  /-- PSW.MODE: 0 PATH, 1 SUPER, 2 MONITOR. -/
  mode  : Nat := 0
  te    : Bool := false
  ie    : Bool := false
  lk    : Bool := false
  depth : Nat := 0
  lcnt  : Tbl Word := []
  lbeg  : Tbl Word := []
  lend  : Tbl Word := []
  trapPc    : Word := 0#32
  trapCause : Word := 0#32
  trapAddr  : Word := 0#32
  trapPsw   : Word := 0#32
  /-- Descriptor index of the task. -/
  task  : Nat := 0
  /-- An EXT prefix waiting for its successor: X and the address of the EXT (R222). -/
  ext   : Option (Nat × Nat) := none
  /-- Instructions since the LOCK (R185). -/
  lockN : Nat := 0
  /-- The tick a WFT awaits (R251). -/
  awaited : Option Nat := none
  deriving DecidableEq, Repr

/-- A load that has left a core and waits for its data (R170, R190): the
destination register, whether it is a 64-bit access, the virtual and the physical
or host address, whether it goes to the host, whether it places a reservation
(R187), whether its ingot had accepted it, and data that has already arrived. -/
structure LoadItem where
  dst    : Nat
  wide   : Bool
  va     : Nat
  pa     : Nat
  host   : Bool := false
  ldl    : Bool := false
  acc    : Bool := true
  slot   : Nat := 0
  data   : Option (List Word) := none
  deriving DecidableEq, Repr

/-- Why a core does not issue. -/
inductive CoreWait where
  /-- It issues. -/
  | run
  /-- WFT, WAITI and FENCE (R251, R260, R237). -/
  | wft | waiti | fence
  /-- ISYNC waits for earlier stores (R261). -/
  | isync
  /-- TREADY and TDONE wait for earlier stores (R236). -/
  | tready (idx : Nat)
  | tdone (status : Nat)
  /-- STC waits for its ingot's acknowledgement (R232). -/
  | stc (gd : Nat)
  /-- A load waits for ingot or host data; the pointer values that follow (R228). -/
  | load (items : List LoadItem) (ptrs : List (Nat × Word))
  deriving DecidableEq, Repr

/-- A posted store its target has not accepted yet (R170, R236): physical or host
address, words, whether it goes to the host, whether its ingot has taken it in,
whether it is the conditional store of an STC, and its virtual address and hallmark. -/
structure Posted where
  pa   : Nat
  ws   : List Word
  host : Bool := false
  nosnoop : Bool := false
  acc  : Bool := true
  stc  : Bool := false
  va   : Nat := 0
  hm   : Nat := 0
  deriving DecidableEq, Repr

/-- What a locked sequence defers (R185): a pre-emption by a descriptor, an IRQ or
a debug halt, and the FABRIC cycle in which it arrived. -/
inductive Deferred where
  | preempt (desc : Nat) | cancel | irq | halt
  deriving DecidableEq, Repr

/-- A core beyond its control registers (R152 to R190). Core 16 is the control core. -/
structure CoreSt where
  ctx     : Tbl CoreCtx := []
  /-- The active bank. -/
  bank    : Nat := 0
  /-- The task running in the active bank. -/
  task    : Option Nat := none
  /-- PREEMPTED contexts: bank and task (R189). -/
  pre     : List (Nat × Nat) := []
  wait    : CoreWait := .run
  posted  : List Posted := []
  /-- Ingots with responses to discarded loads still to arrive (R190). -/
  dropped : List Nat := []
  /-- The reserved 8-byte granule (R187). -/
  resv    : Option Nat := none
  deferred : Option (Deferred × Nat) := none
  halted  : Bool := false
  /-- One instruction is to be executed before halting again (R656). -/
  step    : Bool := false
  /-- A CORE_TENANT scrub ends in this FABRIC cycle (R165). -/
  scrub   : Option Nat := none
  deriving DecidableEq, Repr

/-- Ingots beyond their registers (R301 to R316): the FABRIC cycle in which each
handover began, whether a same-owner scrub runs, whether the wake of a group was
started by an access, and the memory of handovers' next owner. -/
structure IngotSt where
  drainAt : Tbl Nat := []
  wokenByAccess : Tbl Bool := []
  drainCycles : Tbl Nat := []
  deriving DecidableEq, Repr

/-- The active image of a translation window (R319): enabled, rights, host or
engine target, No Snoop, first and last virtual page, and target page. -/
structure WinImg where
  en      : Bool := false
  r       : Bool := false
  w       : Bool := false
  x       : Bool := false
  host    : Bool := false
  nosnoop : Bool := false
  base    : Nat := 0
  limit   : Nat := 0
  off     : Nat := 0
  deriving DecidableEq, Repr

/-- A host write that the PCIE block has accepted and not transmitted (R324): the
tenant, the virtual and the host address, the words and the agent; for a DMA burst of its
channel's current descriptor, the source address and the bytes and rows left from it on. -/
structure HostWr where
  tenant : Nat
  va     : Nat
  addr   : Nat
  ws     : List Word
  nosnoop : Bool
  agent  : Nat
  hm     : Nat
  src    : Nat := 0
  bytes  : Nat := 0
  rows   : Nat := 0
  deriving DecidableEq, Repr

/-- Translation beyond its registers (R317 to R325): the active images by
32 × tenant + window, accepted host writes, and the writes discarded per tenant
in the current link-down episode. -/
structure XlatSt where
  act     : Tbl WinImg := []
  posted  : List HostWr := []
  dropped : Tbl Nat := []
  deriving DecidableEq, Repr

/-- A DMA burst issued and not yet written (R328): its two virtual addresses, its physical
or host addresses with whether each end is the host, the bytes and rows left from it on, its
length in words, its number, and its data once read; or the fault that halts the channel when
its turn comes (R335). -/
structure DmaRd where
  src   : Nat
  dst   : Nat
  spa   : Nat
  dpa   : Nat
  shost : Bool
  dhost : Bool
  nosnoop : Bool := false
  bytes : Nat
  rows  : Nat
  words : Nat
  idx   : Nat
  data  : Option (List Word) := none
  /-- Kind, virtual address, physical address, write. -/
  fault : Option (Nat × Nat × Nat × Bool) := none
  deriving DecidableEq, Repr

/-- A DMA channel beyond its registers (R332 to R336). -/
structure DmaCh where
  /-- Origin and privilege of the last START or RESUME, with the channel's tenant (R333). -/
  hm    : Nat := 0
  /-- The current descriptor's eight words. -/
  desc  : List Word := []
  /-- A descriptor fetch is outstanding at the host. -/
  fetch : Bool := false
  /-- Row and byte within the row of the next burst to issue. -/
  row   : Nat := 0
  off   : Nat := 0
  queue : List DmaRd := []
  /-- Host reads issued so far, which number the bursts of HOSTDATA (R521). -/
  nb    : Nat := 0
  /-- An ABORT waits for bursts already issued (R334). -/
  abort : Bool := false
  /-- Safe-load banks written by the current descriptor (R338). -/
  banks : List Nat := []
  /-- Banks left incomplete by this channel's halted descriptor (R339). -/
  left  : List Nat := []
  /-- The wait since which a starvation has been reported (R168, R312). -/
  starved : Bool := false
  deriving DecidableEq, Repr

/-- One mailbox direction (R354 to R368): the pending header of R357, the header
pair accepted since the last GO, the FIFO words of complete messages with the
number of messages they make, and the open message with the words it still needs. -/
structure MbxDir where
  pend     : Option CpPend := none
  accepted : Option Word := none
  fifo     : List Word := []
  /-- Lengths in words of the complete messages held, oldest first. -/
  msgs     : List Nat := []
  open_    : List Word := []
  left     : Nat := 0
  isOpen   : Bool := false
  full     : Bool := false
  /-- `*_FULL` falls in the next FABRIC cycle, or rises (R361, R363, R364). -/
  fullNext : Option Bool := none
  /-- Words of H2E messages that the primary has accepted and forwarded and that are not
  visible yet (R375). -/
  fwd      : Nat := 0
  deriving DecidableEq, Repr

/-- Mailboxes and tenant event queues (R354 to R370). -/
structure MbxSt where
  dirs    : Tbl MbxDir := []
  evq     : Tbl (List Evt) := []
  evqLost : Tbl Nat := []
  deriving DecidableEq, Repr

/-- A completion record (R281). -/
structure CqRec where
  idx    : Nat
  reason : Nat
  late   : Bool
  status : Nat
  bound  : Nat
  deriving DecidableEq, Repr

/-- A descriptor beyond its words in the pool (R266, R270 to R275): the image taken at
submission, a standing task's next image, the full ESC of its bound block, the core
it is placed on, the resolved ESC of the TASK entry that opened its gate, and an end
that waits for the next pre-emption point or job boundary (2 ABORTED, 4 MISSED). -/
structure DescSt where
  img    : List Word := []
  next   : Option (List Word) := none
  bound  : Nat := 0
  placed : Option Nat := none
  gate   : Option Nat := none
  ending : Option Nat := none
  deriving DecidableEq, Repr

/-- SCHED beyond its registers and the pool (R264 to R300). -/
structure SchedSt where
  desc  : Tbl DescSt := []
  cq    : Tbl (List CqRec) := []
  /-- Block + 1 for which an output (1,024 × kind + index) is valid (R287). -/
  valid : Tbl Nat := []
  /-- The task an accelerator runs: 1 EQA, 2 SUMX (R296). -/
  accel : Tbl (Option Nat) := []
  /-- The jobs the accelerator's task has done. -/
  step  : Tbl Nat := []
  /-- Tasks shed at the last tick start (R285). -/
  shed  : List Nat := []
  /-- Words 0x30 to 0x3F of slots in FREE that serve as list blocks (R265, R266), by
  4 × descriptor + word. -/
  tail  : Tbl Word := []
  deriving DecidableEq, Repr

/-- A linear ramp of a gain in s3.20 (R389, R392): from one factor to another over
`len` samples from ESC `at_`; `len` 0 is a step. -/
structure Ramp where
  from_ : Int := 1048576
  to_   : Int := 1048576
  at_   : Nat := 0
  len   : Nat := 0
  deriving DecidableEq, Repr

/-- What ROUTE applies to a destination (R388 to R391, R672): a patch entry's low 16
bits, a Planish mute or unmute, and the fade of a quarantined entry, each with its
ramp length. -/
inductive DestChg where
  | entry (v : Nat) (len : Nat)
  | pmute (mute : Bool) (len : Nat)
  | quar (len : Nat)
  deriving DecidableEq, Repr

/-- What a destination carries: its selection, the selection a crossfade leaves, and
the gains of the entry's MUTE and of the Planish mute (R390, R391). -/
structure DestSt where
  src    : Nat := 0x1FFF
  inv    : Bool := false
  oldSrc : Nat := 0x1FFF
  oldInv : Bool := false
  xAt    : Nat := 0
  xLen   : Nat := 0
  mute   : Ramp := {}
  pm     : Ramp := {}
  deriving DecidableEq, Repr

/-- A destination through the blocks in flight: a base and the changes after it with
the ESC at which each applies (R29), in order. -/
structure DestHist where
  base : DestSt := {}
  chg  : List (Nat × DestChg) := []
  deriving DecidableEq, Repr

/-- ROUTE beyond its registers and banks (R379 to R392): destinations, the last sample
taken of each path and bus output and its block + 1 (R23), paths in a PATH_MISMAP
episode (R384), and path inputs written for a block (path → block + 1). -/
structure RouteSt where
  dest   : Tbl DestHist := []
  last   : Tbl (Nat × Word) := []
  mismap : List Nat := []
  mapped : Tbl Nat := []
  deriving DecidableEq, Repr

/-- Samples in the engine: what has been gathered or taken from each source, and what
SCATTER hands to each destination, by ((block mod 4) × 8,192 + index) × 32 + j. -/
structure AudioSt where
  smp : Tbl Word := []
  out : Tbl Word := []
  /-- The block + 1 that SCATTER last took into each quarter of `out`. -/
  outBlk : Tbl Nat := []
  deriving DecidableEq, Repr

/-- A contribution as SUMX sums it (R393, R394, R672). -/
structure ConSt where
  src    : Nat := 0x1FFF
  en     : Bool := false
  oldSrc : Nat := 0x1FFF
  xAt    : Nat := 0
  xLen   : Nat := 0
  gain   : Ramp := { from_ := 0, to_ := 0 }
  quar   : Ramp := {}
  deriving DecidableEq, Repr

/-- A change of a contribution: its words with the ramp length, or its quarantine. -/
inductive ConChg where
  | entry (w0 w1 : Nat) (len : Nat)
  | quar (len : Nat)
  deriving DecidableEq, Repr

/-- A contribution through the blocks in flight. -/
structure ConHist where
  base : ConSt := {}
  chg  : List (Nat × ConChg) := []
  deriving DecidableEq, Repr

/-- A bus's limiter (R399): the delayed samples, newest last, and the last gain in 2^-30. -/
structure LimSt where
  x : List Int := []
  g : Int := 1073741824
  deriving DecidableEq, Repr

/-- A loudness meter (R401): the sum of weighted squares of the interval for each
channel, the samples in it, and each channel's filter state. -/
structure LoudSt where
  sum  : Tbl Nat := []
  cnt  : Nat := 0
  from_ : Nat := 0
  filt : Tbl (List Int) := []
  deriving DecidableEq, Repr

/-- SUMX beyond its registers and banks (R393 to R401). -/
structure SumxSt where
  con    : Tbl ConHist := []
  /-- The active bank from each ESC on. -/
  bank   : List (Nat × Nat) := []
  /-- The list word of bank × 256 + bus from each ESC on (R395). -/
  list   : Tbl (List (Nat × Word)) := []
  /-- Gain ramps of a bus by the ESC each starts at, and the fades of its list pair and
  of its gain in quarantine. -/
  gain   : Tbl (List (Nat × Ramp)) := []
  listQ  : Tbl (List (Nat × Ramp)) := []
  gainQ  : Tbl (List (Nat × Ramp)) := []
  /-- Bus buffers in s8.31, by bus × 32 + j, and the block + 1 each holds. -/
  buf    : Tbl Int := []
  bufBlk : Tbl Nat := []
  lim    : Tbl LimSt := []
  /-- Buses in an ACC_SAT or BUS_SAT episode. -/
  accEp  : List Nat := []
  busEp  : List Nat := []
  loud   : Tbl LoudSt := []
  deriving DecidableEq, Repr

/-- The states of one section (R409): x1, x2, y1, y2 in s8.31. -/
structure SecSt where
  x1 : Int := 0
  x2 : Int := 0
  y1 : Int := 0
  y2 : Int := 0
  deriving DecidableEq, Repr

/-- A change of a chain that a block in flight sees (R414 to R416): its CFG, IO and BUF
words, a clear of its states, or a swap of its bank. -/
inductive ChainChg where
  | entry (cfg io buf : Word)
  | clear
  | swap
  deriving DecidableEq, Repr

/-- An EQ chain: the entry in force for its processing, its bank, its sections' states,
a running crossfade (start ESC, length, the copy of the states and the coefficients it
leaves), a quarantine fade, and the changes still to come with their ESC. -/
structure ChainSt where
  cfg  : Word := 0#32
  io   : Word := 0#32
  buf  : Word := 0#32
  bank : Nat := 0
  st   : Tbl SecSt := []
  xf   : Option (Nat × Nat) := none
  old  : Tbl SecSt := []
  oldC : List Int := []
  fade : Ramp := {}
  chg  : List (Nat × ChainChg) := []
  deriving DecidableEq, Repr

/-- EQA beyond its registers and tables (R405 to R416): chains, and chains in a CHAIN_SAT episode. -/
structure EqaSt where
  chain : Tbl ChainSt := []
  satEp : List Nat := []
  deriving DecidableEq, Repr

/-- A swap group beyond its registers (R417 to R424): the chains in scope, the arming
hallmark, the TAQ entry of a timed arm, the swap's ESC once fixed, whether its cut-off
has passed, and the block at whose guard start SYNCING begins. -/
structure SafeGrp where
  chains : List Nat := []
  hm     : Nat := 0
  entry  : Option Nat := none
  at_    : Option Nat := none
  fired  : Bool := false
  sync   : Option Nat := none
  deriving DecidableEq, Repr

/-- A swap to be reported: its group, ESC, arming hallmark and owner (R422). -/
structure SwapNote where
  group : Nat
  esc   : Nat
  hm    : Nat
  owner : Option Nat
  deriving DecidableEq, Repr

/-- SAFE beyond its registers: groups, each tenant's selector from each ESC on (R425),
swaps whose SWAPPED waits for its guard start (group, ESC, hallmark, owner; R424), and
incomplete banks (R338): 0 and 1 ROUTE, 2 and 3 SUMX, 4 and 5 EQA, 16 + 2t + b the
PARAM regions. -/
structure SafeSt where
  grp : Tbl SafeGrp := []
  sel : Tbl (List (Nat × Nat)) := []
  told : List SwapNote := []
  inc : List Nat := []
  deriving DecidableEq, Repr

/-- A serial audio input line (R440, R447, R448): the last good sample of each slot, and the
ESC from which its samples are lost, and the one from which they are good again. -/
structure SapLine where
  last : Tbl Int := []
  lost : Option Nat := none
  back : Option Nat := none
  deriving DecidableEq, Repr

/-- An input frame begun: its clock group, the ESC it delivers, and the bits received in
each slot of each line (R441). -/
structure SapFrame where
  grp   : Nat
  esc   : Nat
  lines : List (List Nat)
  deriving DecidableEq, Repr

/-- Serial audio beyond its registers (R430 to R449). -/
structure SapSt where
  frames : List SapFrame := []
  line   : Tbl SapLine := []
  /-- By group: the ESC of the newest frame, the ESC of the frame that may end RESYNC, and
  output samples still to be faded in. -/
  lastTo : Tbl (Option Nat) := []
  cand   : Tbl (Option Nat) := []
  outIn  : Tbl Nat := []
  /-- Lines in a SAMPLE_MARGIN, SLOT_CLASH or output buffer fault episode. -/
  marginEp : List Nat := []
  clashEp  : List Nat := []
  /-- What the last frame of each output line drove, slot by slot; none where the line was
  high-impedance (R443). -/
  wire   : Tbl (List (Option Nat)) := []
  deriving DecidableEq, Repr

/-- A channel's C and U bits since its block start (R457). -/
structure MadiCs where
  run : Bool := false
  n   : Nat := 0
  c   : Nat := 0
  u   : Nat := 0
  deriving DecidableEq, Repr

/-- A MADI receiver (R454 to R457): consecutive good frames in ACQUIRE, whether a RX_LOST for
MODE was raised, the frames held, whether delivery has begun, the last sample received and
delivered of each channel, its fades, a PARITY episode, and its C and U blocks with the frames
until CS_CHANGED may be raised again. -/
structure MadiRx where
  good   : Nat := 0
  modeEp : Bool := false
  held   : List (List Word) := []
  flow   : Bool := false
  prev   : List Word := []
  last   : List Word := []
  lost   : Option Nat := some 0
  back   : Option Nat := none
  parEp  : Bool := false
  fault  : Bool := false
  cs     : Tbl MadiCs := []
  csWait : Nat := 0
  deriving DecidableEq, Repr

/-- MADI beyond its registers (R450 to R459): receivers, and the subframes each transmitter
sent last. -/
structure MadiSt where
  rx : Tbl MadiRx := []
  tx : Tbl (List Word) := []
  deriving DecidableEq, Repr

/-- An accepted media packet (R482): extended sequence number, media clock, and the legs
accepted. -/
structure RxPkt where
  seq  : Int
  m    : Int
  leg0 : Bool
  leg1 : Bool
  deriving DecidableEq, Repr

/-- A receive flow beyond its status words (R477 to R486): the slots' tags, accepted packets
still in use, each leg's last accepted number, the next number awaiting its verdict,
consecutive refused packets, play-out samples not valid and not covered by each leg, legs
declared down, the port fade's count of positions and of valid samples, the last valid
sample of each channel, and the cycle of the last conflict. -/
structure RxFlow where
  tag    : Tbl (Option Int) := []
  pkts   : List RxPkt := []
  last0  : Option Int := none
  last1  : Option Int := none
  verd   : Option Int := none
  refused : Nat := 0
  inval  : Nat := 0
  un0    : Nat := 0
  un1    : Nat := 0
  down0  : Bool := false
  down1  : Bool := false
  bad    : Nat := 16
  good   : Nat := 0
  last   : List Int := []
  conflict : Option Nat := none
  deriving DecidableEq, Repr

/-- A media packet as it leaves a port (R472, R488): the fields of its headers and its
payload samples. -/
structure MediaPkt where
  port  : Nat
  flow  : Nat
  dmac  : Nat
  smac  : Nat
  vlan  : Option (Nat × Nat)
  src   : Nat
  dst   : Nat
  sport : Nat
  dport : Nat
  dscp  : Nat
  ttl   : Nat
  pt    : Nat
  ssrc  : Nat
  seq   : Nat
  ts    : Nat
  data  : List Nat
  deriving DecidableEq, Repr

/-- The network ports and the flows beyond their registers and tables (R463 to R494): the
receive flows, the media clock of the first sample of each transmit flow's next packet, the
MCC of recent blocks, token buckets by 4 × port + class with the cycle they were filled to,
episodes, and what each port sent last. -/
structure NetSt where
  rx     : Tbl RxFlow := []
  txNext : Tbl (Option Int) := []
  mccs   : List (Nat × Int) := []
  bucket : Tbl (Option (Nat × Nat)) := []
  /-- RATE_DROP by 4 × port + class, CRX_FULL and TX_DROP by port. -/
  rateEp : List Nat := []
  fullEp : List Nat := []
  dropEp : List Nat := []
  media  : Tbl (Option MediaPkt) := []
  ctl    : Tbl (List Byte) := []
  deriving DecidableEq, Repr

/-- What a forwarded item does (R518): a write of a word or of a completed pair, or an H2E
message. -/
inductive FwdAct where
  | write (addr : Nat) (val : Word)
  | msg (tenant : Nat) (ws : List Word)
  deriving DecidableEq, Repr

/-- A forwarded item, with the block it applies at, as this engine numbers blocks (R518). -/
structure FwdItem where
  blk : Nat
  by_ : Sender
  act : FwdAct
  deriving DecidableEq, Repr

/-- What a HEARTBEAT frame or a network heartbeat says of its sender (R504, R510). ESCs are
pair ESCs; the tick phase is in units of 2^-16 ns. -/
structure Heartbeat where
  esc   : Nat
  state : Nat
  role  : Nat
  prop  : Nat
  count : Nat
  phase : Int
  mcc   : Int
  deriving DecidableEq, Repr

/-- The commands of CONTROL frames (R504). -/
inductive CtlKind where
  | join | enter | reclaim | switch | relinquish | leave
  deriving DecidableEq, Repr

/-- The frames of R504; `empty` only acknowledges. -/
inductive Frame where
  | heartbeat (h : Heartbeat)
  | digest (esc part : Nat) (d : List Nat)
  | fwdWrite (addr : Nat) (val : Word) (pair : Bool) (esc : Nat)
  | fwdTaq (entry esc j : Nat)
  | fwdMsg (tenant : Nat) (ws : List Word) (esc : Nat)
  | mirror (port first : Nat) (esc : Nat) (samples : List Word)
  | hostdata (ch burst : Nat) (ws : List Word)
  | copy (page round : Nat) (ws : List Word)
  | control (k : CtlKind) (blk : Nat)
  | empty
  deriving DecidableEq, Repr

/-- A frame sent and not acknowledged (R505): SEQ, hallmark, the FABRIC cycle of its last
send and the retransmissions made. -/
structure TxFrame where
  seq   : Nat
  hm    : Nat
  frame : Frame
  cyc   : Nat
  tries : Nat
  deriving DecidableEq, Repr

/-- A named block at which something of the pair changes (R514 to R537): the lockstep entry
J, PAIRED at H, a role swap at S (by SWITCH or not), this engine's departure at F, the peer's
departure at F. -/
structure DuoPlan where
  join   : Option Nat := none
  paired : Option Nat := none
  swap   : Option (Nat × Bool) := none
  leave  : Option (Nat × Nat) := none
  peerGo : Option Nat := none
  /-- The last block scattered when the engine announced its departure: the local outputs
  repeat its last sample until block F (R531). -/
  hold   : Option Nat := none
  deriving DecidableEq, Repr

/-- The Svalento link and the pair beyond their registers (R498 to R537). -/
structure DuoSt where
  /-- Frames not acknowledged, the next SEQ to send and to receive, and a NAK owed. -/
  tx     : List TxFrame := []
  txSeq  : Nat := 0
  rxSeq  : Nat := 0
  nak    : Bool := false
  /-- Forwarded items waiting for their block, and how many were sent and received. -/
  items  : List FwdItem := []
  sent   : Nat := 0
  recvd  : Nat := 0
  /-- The peer's last heartbeat, and full ticks since the last one by each path (R511). -/
  peer   : Option Heartbeat := none
  hbAge  : Nat := 255
  nhbAge : Nat := 255
  hbSeen : Bool := false
  nhbSeen : Bool := false
  /-- What the link last told of a peer that may be joined (R513), and the held ESC of a
  joining standby (R515). -/
  seen   : JoinPeer := {}
  peerEs : Nat := 0
  /-- PEER_LOST was raised in this episode (R532). -/
  lostEp : Bool := false
  /-- Degrade proposals by block + 1 of the tick, own and the peer's (R524). -/
  props  : List (Nat × Nat) := []
  peerProps : List (Nat × Nat) := []
  /-- Digests of recent blocks by pair ESC, own and the peer's (R527). -/
  digs   : List (Nat × List Nat) := []
  peerDigs : List (Nat × List Nat) := []
  /-- The pair ESC after the last block compared (R527). -/
  cmp      : Nat := 0
  /-- Registers, tables and memory as they stood when the copy round began (R514). -/
  snapRegs : Tbl Word := []
  snapMem  : Tbl Byte := []
  plan   : DuoPlan := {}
  /-- Ticks since lockstep entry (R516), consecutive ticks of edge skew (R508), and the
  FABRIC cycle a RECLAIM was sent (R535). -/
  convTicks : Nat := 0
  skewTicks : Nat := 0
  reclaimAt : Option Nat := none
  /-- The forwarded-item count at which the standby went out of sync. -/
  missed : Nat := 0
  /-- A divergent standby joins again once it has stopped (R527). -/
  rejoin : Bool := false
  /-- TXEN of both ports from each block on (R501). -/
  txen   : List (Nat × Nat × Nat) := []
  /-- Mirrored inputs by port, for the block (its number + 1) they serve (R523). -/
  mirror : Tbl (Nat × List Word) := []
  /-- Host bytes of the primary's DMA bursts, by channel, oldest first (R521). -/
  host   : Tbl (List (Nat × List Word)) := []
  /-- The network heartbeat sent last (R510). -/
  nhbOut : Option NetHb := none
  /-- The engine has left its pair and its local outputs stay disabled (R537). -/
  outOff : Bool := false
  deriving DecidableEq, Repr

/-- The silence detector of one output (R559, R560): samples since the last one at or above
L_T, the fade in progress, the ESC of the first sample at or above L_W since it began, and a
wake: the sample that leaves at full gain and the factor the fade-in starts from. -/
structure SilSt where
  quiet : Nat := 0
  fade  : Option Nat := none
  loud  : Option Nat := none
  wake  : Option (Nat × Int) := none
  deriving DecidableEq, Repr

/-- A ring fetch in progress (R564): its first sample, length, word address in AC15, samples
copied so far, and the descriptor it releases with the hallmark it names. -/
structure FetchSt where
  from_ : Nat
  len   : Nat
  dest  : Nat
  got   : Nat := 0
  rel   : Option Nat := none
  deriving DecidableEq, Repr

/-- CUE beyond its registers (R543 to R568). -/
structure CueSt where
  /-- The level of JACK_DET, the interval in progress (toward inserted or removed), whether
  classification runs, and the mute of R544. -/
  det   : Bool := true
  deb   : Option Bool := none
  class_ : Bool := false
  muted : Bool := false
  /-- Both cue supplies are present (R691). -/
  power : Bool := true
  /-- Milliseconds each button has been seen, none has been, and the press has been held
  (R548), and whether BTN_LONG was raised for it. -/
  seen  : Tbl Nat := []
  clear : Nat := 0
  held  : Nat := 0
  long  : Bool := false
  /-- Steps of the 16-sample fades of source 0x0980 and of the headphones (R546, R550). -/
  micStep : Nat := 0
  hpStep  : Nat := 0
  /-- Quench and the samples since its release (R554). -/
  quench  : Bool := true
  spkStep : Nat := 0
  /-- The driver is at or above 150 °C and has not fallen below 130 °C (R555). -/
  hot     : Bool := false
  /-- Samples left of the HP_LIMIT episode (R553). -/
  hpLim   : Nat := 0
  sil     : Tbl SilSt := []
  /-- The delay of each port (0 the microphone, 1 to 3 the outputs), newest first (R552), and
  the sample each output plays. -/
  line    : Tbl (List Int) := []
  play    : Tbl Int := []
  /-- The ring count, the RING_FAULT episode and the fetch (R562 to R565). -/
  ringCnt : Nat := 0
  ringEp  : Bool := false
  fetch   : Option FetchSt := none
  deriving DecidableEq, Repr

/-- The boot ROM (R583 to R591): whether it runs, the level of GPIO0 sampled at the rising
edge of RESET_N, the sources still to try, whether FAILED serves PCIe push (R588), whether
an image has been handed control since the last reset (R644), and whether the link was lost
during a push. -/
structure BootSt where
  rom    : Bool := false
  gpio0  : Bool := false
  srcs   : List Nat := []
  serve  : Bool := false
  handed : Bool := false
  lost   : Bool := false
  deriving DecidableEq, Repr

/-- An access to the table aperture that waits (R577): tenant, page offset, VA, the word of a
write, and whether it is a two-wire access. -/
structure ApWait where
  tenant : Nat
  off    : Nat
  va     : Nat
  write  : Option Word := none
  twb    : Bool := false
  deriving DecidableEq, Repr

/-- The PCIe endpoint beyond its registers (R572 to R582). Function 16 is the PF. -/
structure PcieSt where
  boot   : BootSt := {}
  /-- The PF may access memory and master the bus (R591). -/
  pfMem  : Bool := false
  /-- Functions whose MSI-X is enabled; the MSI-X tables by function × 128 + 4 × vector +
  word; pending bits by function (R578). -/
  msixEn : List Nat := []
  msix   : Tbl Word := []
  pba    : Tbl Nat := []
  /-- Aperture accesses that wait, oldest first (R577). -/
  ap     : List ApWait := []
  /-- The last page read completed with Completer Abort (R577). -/
  abort  : Bool := false
  deriving DecidableEq, Repr

/-- A two-wire transaction (R595, R596): its address, tenant and TARGET, whether it reads, the
offset of its next word, a held word with its offset, and whether its last read word waits
(R598). -/
structure TwbTxn where
  addr   : Nat
  tenant : Nat
  win    : Bool
  read   : Bool
  off    : Option Nat
  held   : Option (Nat × Word) := none
  waits  : Bool := false
  deriving DecidableEq, Repr

/-- TWB beyond its registers (R592 to R602): the transaction, whether the register path is
awake in LISTEN or waking with an address, whether a transaction holds it awake until its
STOP (R602), and the address that matched in DORMANT. -/
structure TwbSt where
  txn   : Option TwbTxn := none
  awake : Bool := false
  wake  : Option Nat := none
  hold  : Bool := false
  dorm  : Option Nat := none
  deriving DecidableEq, Repr

/-- A change of a GPIO output that waits for its sample (R136, R625): the ESC, the pin, the
level or 2 for a toggle, and whether a TAQ action caused it. -/
structure GpioChg where
  esc : Nat
  pin : Nat
  op  : Nat
  taq : Bool
  deriving DecidableEq, Repr

/-- The watchdog beyond its registers (R627 to R629): the period in force, and the WDT_REASON
of the WDT_OUT_N pulse in progress. -/
structure WdtSt where
  period : Nat := 65536
  pulse  : Option Nat := none
  deriving DecidableEq, Repr

/-- PWR (R607 to R634). -/
structure PwrSt where
  /-- DORMANT: everything outside the always-on domain is unpowered (R608). -/
  dormant : Bool := false
  /-- OFF: VAO is absent (R608). -/
  off     : Bool := false
  /-- The level of RESET_N holds the engine in reset (R618). -/
  rstLow  : Bool := false
  /-- VDD_IO, VDD_CORE and VDDA_PLL are within range (R612, R617). -/
  supply  : Bool := true
  /-- The mode request that waits (R609, R611): 1 IDLE, 2 LISTEN, 3 DORMANT. -/
  want    : Option Nat := none
  /-- A request for RUN with its PWR_WAKE_CAUSE source, 0 for PWR_CMD. -/
  runReq  : Option Nat := none
  /-- A wake that is pending in DORMANT (R612, R613). -/
  wake    : Option Nat := none
  /-- IDLE was entered for CUE's request (R609). -/
  auto    : Bool := false
  /-- Cores powered up again, which are eligible from the next tick start (R610). -/
  rise    : Nat := 0
  /-- PWR_WAKE_CAUSE has been read since the wake-boot (R634, Notes). -/
  told    : Bool := true
  /-- Retention groups PWR retained on entering LISTEN (R611). -/
  kept    : List Nat := []
  key     : KeySt := {}
  gpio    : List GpioChg := []
  /-- The levels the GPIO outputs drive (R624, R625). -/
  pins    : Nat := 0
  wdt     : WdtSt := {}
  deriving DecidableEq, Repr

/-- A debug action that waits for the engine to have left its pair (R663). -/
inductive DbgAct where
  | halt (mask : Nat)
  | step (mask : Nat)
  | write (a : Nat) (v : Word)
  | read (a : Nat)
  deriving DecidableEq, Repr

/-- SEC and FUSE beyond their registers (R636 to R645): the key sequences, the loaded device
key and KEY_LOCK, a blow in progress with the lifecycle it advances to, and the erasure of
retirement; whether FUSE_MISMATCH is still to be raised (R637). -/
structure SecuritySt where
  key     : KeySt := {}
  fkey    : KeySt := {}
  dk      : Option (List Word) := none
  keyLock : Bool := false
  blow    : List Nat := []
  target  : Option Nat := none
  erase   : Bool := false
  tell    : Bool := false
  deriving DecidableEq, Repr

/-- DBG beyond its registers (R646 to R663): the TAP instruction (2 IDCODE after reset), the
boundary-scan register and the values preloaded into it, the result a Capture-DR of DPACC
loads, the request that waits for authentication, actions that wait for block F, the level to
restore after LISTEN, and an expiry held by WDT_HOLD. -/
structure DbgSt where
  ir    : Nat := 2
  scan  : List Bool := []
  latch : List Bool := []
  stat  : Nat := 0
  addr  : Nat := 0
  data  : Word := 0#32
  req   : Word := 0#32
  wait  : List DbgAct := []
  level : Option Nat := none
  wdtHit : Bool := false
  deriving DecidableEq, Repr

/-- An item Assay tracks (R671): its address and the FABRIC cycles of its newest
storage mismatches, newest first, at most three. -/
structure Tracked where
  addr : Nat
  hits : List Nat
  deriving DecidableEq, Repr

/-- Assay beyond its registers (R667 to R673). -/
structure AssaySt where
  /-- Hold copies of the complement-paired registers and working copies of the
  protected tables, by address (R668). -/
  hold    : Tbl Word := []
  /-- Holds whose parity fails (R669). -/
  badHold : List Nat := []
  tracked : List Tracked := []
  quar    : List Nat := []
  /-- Quarantined items whose fade has begun (R672). -/
  faded   : List Nat := []
  /-- The address the scrubber checks next (R670). -/
  scrubAt : Nat := 0
  /-- Motion counts since the last MOTION record of DMA, MBX and SVL, and the
  cycle of that record. -/
  motion  : Tbl Nat := []
  motionAt : Tbl Nat := []
  deriving DecidableEq, Repr

/-- ADAPT beyond its registers (R676 to R684): consecutive measurements with the request at
CEIL and since SAFE_UV could clear, readings below 110 °C and at or above 115 °C, thresholds
of R680 in force (L, L + 4, L + 8), the three targets, the runs of blocks of R682, the finish
fraction of the block computed, and ticks the computed level has stayed below the applied. -/
structure AdaptSt where
  ceilN  : Nat := 0
  uvN    : Nat := 0
  coolN  : Nat := 0
  hotN   : Nat := 0
  thr    : List Bool := [false, false, false]
  volt   : Nat := 0
  therm  : Nat := 0
  load   : Nat := 0
  hiN    : Nat := 0
  missN  : Nat := 0
  loN    : Nat := 0
  fin    : Nat := 0
  below  : Nat := 0
  deriving DecidableEq, Repr

/-- The engine: its registers, its memories and the state of each block. -/
structure Engine where
  /-- The words of every register and table aperture, by address (R32); unlisted ones read `resetWord`. -/
  regs : Tbl Word := []
  /-- Every byte of ingot and core local memory, by physical address (R32); unlisted ones read 0. -/
  mem : Tbl Byte := []
  /-- FABRIC cycles since reset (the model's time base). -/
  now : Nat := 0
  /-- How many open values have been taken (the model's own field). -/
  free : Nat := 0
  /-- The word the last read command answered (the model's own field: the reader's side of a read). -/
  rdata : Word := 0#32
  /-- Pending even values of complement-paired registers, by address (R10). -/
  cpPend : Tbl (Option CpPend) := []
  /-- Completed pairs that take effect in the next FABRIC cycle (R11). -/
  cpDue : List CpDue := []
  /-- Records detected in this FABRIC cycle, not yet delivered (R38). -/
  evBuf : List Evt := []
  /-- Captures of multi-word reads, by register address × 256 + hallmark (R26, R117, R130, R282, R370, R562). -/
  caps : Tbl (List Nat) := []
  /-- The tick. -/
  tick : TickSt := {}
  /-- The root clock. -/
  clk : ClkSt := {}
  /-- Reference selection. -/
  ref : RefSt := {}
  /-- Network time. -/
  time : TimeSt := {}
  /-- The timed action queue. -/
  taq : TaqSt := {}
  /-- Mailboxes and tenant event queues. -/
  mbx : MbxSt := {}
  /-- Assay. -/
  assay : AssaySt := {}
  /-- The cores; index 16 is the control core. -/
  core : Tbl CoreSt := [(16, { ctx := [(0, { mode := 2 })] })]
  /-- Ingots. -/
  ingot : IngotSt := {}
  /-- Translation. -/
  xlat : XlatSt := {}
  /-- The DMA channels. -/
  dma : Tbl DmaCh := []
  /-- The task scheduler. -/
  sched : SchedSt := {}
  /-- The cause of a software or Assay reset that waits to take effect (R619). -/
  resetReq : Option Nat := none
  /-- Samples in flight. -/
  audio : AudioSt := {}
  /-- The router. -/
  route : RouteSt := {}
  /-- The summing matrix. -/
  sumx : SumxSt := {}
  /-- The EQ accelerator. -/
  eqa : EqaSt := {}
  /-- Safe-load. -/
  safe : SafeSt := {}
  /-- Engine pairing. -/
  duo : DuoSt := {}
  /-- Power modes, reset and wake. -/
  pwr : PwrSt := {}
  /-- Serial audio ports. -/
  sap : SapSt := {}
  /-- MADI. -/
  madi : MadiSt := {}
  /-- The network ports and the flows. -/
  net : NetSt := {}
  /-- The cue section. -/
  cue : CueSt := {}
  /-- The PCIe endpoint and the boot ROM. -/
  pcie : PcieSt := {}
  /-- The two-wire target. -/
  twb : TwbSt := {}
  /-- Fuses, lifecycle and keys. -/
  sec : SecuritySt := {}
  /-- The debug port. -/
  dbg : DbgSt := {}
  /-- The adaptive loops. -/
  adapt : AdaptSt := {}
  deriving DecidableEq, Repr

/-- The engine with `f` applied to its field `tick`. -/
def Engine.updTick (e : Engine) (f : TickSt → TickSt) : Engine := { e with tick := f e.tick }

/-- The engine with `f` applied to its field `clk`. -/
def Engine.updClk (e : Engine) (f : ClkSt → ClkSt) : Engine := { e with clk := f e.clk }

/-- The engine with `f` applied to its field `ref`. -/
def Engine.updRef (e : Engine) (f : RefSt → RefSt) : Engine := { e with ref := f e.ref }

/-- The engine with `f` applied to its field `time`. -/
def Engine.updTime (e : Engine) (f : TimeSt → TimeSt) : Engine := { e with time := f e.time }

/-- The engine with `f` applied to its field `taq`. -/
def Engine.updTaq (e : Engine) (f : TaqSt → TaqSt) : Engine := { e with taq := f e.taq }

/-- The engine with `f` applied to its field `mbx`. -/
def Engine.updMbx (e : Engine) (f : MbxSt → MbxSt) : Engine := { e with mbx := f e.mbx }

/-- The engine with `f` applied to its field `assay`. -/
def Engine.updAssay (e : Engine) (f : AssaySt → AssaySt) : Engine := { e with assay := f e.assay }

/-- The engine with `f` applied to its field `ingot`. -/
def Engine.updIngot (e : Engine) (f : IngotSt → IngotSt) : Engine := { e with ingot := f e.ingot }

/-- The engine with `f` applied to its field `xlat`. -/
def Engine.updXlat (e : Engine) (f : XlatSt → XlatSt) : Engine := { e with xlat := f e.xlat }

/-- The engine with `f` applied to its field `sched`. -/
def Engine.updSched (e : Engine) (f : SchedSt → SchedSt) : Engine := { e with sched := f e.sched }

/-- The engine with `f` applied to its field `audio`. -/
def Engine.updAudio (e : Engine) (f : AudioSt → AudioSt) : Engine := { e with audio := f e.audio }

/-- The engine with `f` applied to its field `route`. -/
def Engine.updRoute (e : Engine) (f : RouteSt → RouteSt) : Engine := { e with route := f e.route }

/-- The engine with `f` applied to its field `sumx`. -/
def Engine.updSumx (e : Engine) (f : SumxSt → SumxSt) : Engine := { e with sumx := f e.sumx }

/-- The engine with `f` applied to its field `eqa`. -/
def Engine.updEqa (e : Engine) (f : EqaSt → EqaSt) : Engine := { e with eqa := f e.eqa }

/-- The engine with `f` applied to its field `safe`. -/
def Engine.updSafe (e : Engine) (f : SafeSt → SafeSt) : Engine := { e with safe := f e.safe }

/-- The engine with `f` applied to its field `duo`. -/
def Engine.updDuo (e : Engine) (f : DuoSt → DuoSt) : Engine := { e with duo := f e.duo }

/-- The engine with `f` applied to its field `pwr`. -/
def Engine.updPwr (e : Engine) (f : PwrSt → PwrSt) : Engine := { e with pwr := f e.pwr }

/-- The engine with `f` applied to its field `sap`. -/
def Engine.updSap (e : Engine) (f : SapSt → SapSt) : Engine := { e with sap := f e.sap }

/-- The engine with `f` applied to its field `madi`. -/
def Engine.updMadi (e : Engine) (f : MadiSt → MadiSt) : Engine := { e with madi := f e.madi }

/-- The engine with `f` applied to its field `net`. -/
def Engine.updNet (e : Engine) (f : NetSt → NetSt) : Engine := { e with net := f e.net }

/-- The engine with `f` applied to its field `cue`. -/
def Engine.updCue (e : Engine) (f : CueSt → CueSt) : Engine := { e with cue := f e.cue }

/-- The engine with `f` applied to its field `pcie`. -/
def Engine.updPcie (e : Engine) (f : PcieSt → PcieSt) : Engine := { e with pcie := f e.pcie }

/-- The engine with `f` applied to its field `twb`. -/
def Engine.updTwb (e : Engine) (f : TwbSt → TwbSt) : Engine := { e with twb := f e.twb }

/-- The engine with `f` applied to its field `sec`. -/
def Engine.updSec (e : Engine) (f : SecuritySt → SecuritySt) : Engine := { e with sec := f e.sec }

/-- The engine with `f` applied to its field `dbg`. -/
def Engine.updDbg (e : Engine) (f : DbgSt → DbgSt) : Engine := { e with dbg := f e.dbg }

/-- The engine with `f` applied to its field `adapt`. -/
def Engine.updAdapt (e : Engine) (f : AdaptSt → AdaptSt) : Engine := { e with adapt := f e.adapt }

/-- The whole machine: the commands waiting, first in first out; the fuse array's
64 words as blown (R636); and the engine. -/
structure State where
  pending : List Instr := []
  fuse    : Tbl Word := []
  eng     : Engine := {}
  deriving DecidableEq, Repr

/-- The reasons a run can stop with a fault: none. The manual reports what goes wrong by
refusals, events, traps and fault records of the engine's own, after which the engine goes on. -/
inductive Fault where
  deriving DecidableEq, Repr

/-- The reasons a command is refused. -/
inductive Refusal where
  /-- No command has this outcome: every arm of `exec` has its meaning (safe). -/
  | notModelled (mnemonic : String)
  deriving DecidableEq, Repr

/-- The outcome of a command. -/
abbrev Out := Host.Outcome State Fault Refusal

/-- The machine right after reset: nothing waits, no fuse is blown, every register
holds its reset value (`resetWord`) and memory lists nothing. -/
def State.reset : State := {}

end Sys2Proof.Machine
end

