-- ==== Sys2Proof/Machine/Ops.lean ====
section
/-!
DEFINITION. The named operations every meaning is written with: reading and
writing registers, fields and memory, the hallmark (R346 to R350), the event
record and its two destinations (R36 to R40, R369, R370), captures, key
sequences (R44), saturating counters and the tick's arithmetic (R19, R25).
A block has no exception entry: raising an event or an interrupt line is the
effect of a command on the state, and `Engine.raise` is where it is said.
-/
namespace Sys2Proof.Machine

/-! ### Registers and fields -/

/-- The word at register or table address `a`. -/
def Engine.rd (e : Engine) (a : Nat) : Word := Tbl.getF resetWord e.regs a

/-- The engine with the word at register or table address `a` made `v`. -/
def Engine.wr (e : Engine) (a : Nat) (v : Word) : Engine :=
  { e with regs := Tbl.setF resetWord e.regs a v }

/-- Bits `[lo + width - 1 : lo]` of a word as a number. -/
def bitsOf (w : Word) (lo width : Nat) : Nat := w.toNat / 2 ^ lo % 2 ^ width

/-- Bit `i` of a word. -/
def bitOf (w : Word) (i : Nat) : Bool := w.getLsbD i

/-- The word with bits `[lo + width - 1 : lo]` made `v` (modulo `2 ^ width`). -/
def setBits (w : Word) (lo width v : Nat) : Word :=
  BitVec.ofNat 32
    (w.toNat - bitsOf w lo width * 2 ^ lo + v % 2 ^ width * 2 ^ lo)

/-- The value of a field. -/
def Engine.get (e : Engine) (f : Fld) : Nat := bitsOf (e.rd f.addr) f.lo f.width

/-- Whether a field is not zero. -/
def Engine.on (e : Engine) (f : Fld) : Bool := decide (e.get f ≠ 0)

/-- The engine with a field made `v`. -/
def Engine.put (e : Engine) (f : Fld) (v : Nat) : Engine :=
  e.wr f.addr (setBits (e.rd f.addr) f.lo f.width v)

/-- A one-bit field set or cleared. -/
def Engine.putB (e : Engine) (f : Fld) (b : Bool) : Engine := e.put f (if b then 1 else 0)

/-- A counter field one higher, held at its largest value ("counters saturate"). -/
def Engine.count (e : Engine) (f : Fld) (n : Nat := 1) : Engine :=
  e.put f (min (e.get f + n) (2 ^ f.width - 1))

/-- A counter field one higher, wrapping. -/
def Engine.wrap (e : Engine) (f : Fld) : Engine := e.put f (e.get f + 1)

/-- The complement-paired register at even address `a` made `v`: both words of
the stored pair and the hold copy that a taken pair writes (R11, R12, R668). -/
def Engine.wrCp (e : Engine) (a : Nat) (v : Word) : Engine :=
  let e := (e.wr a v).wr (a + 4) (~~~ v)
  { e with assay := { e.assay with hold := Tbl.setF resetWord e.assay.hold a v } }

/-- The value the engine uses of the complement-paired register at `a`: the
stored value when the pair matches, else the hold (R668). -/
def Engine.cpVal (e : Engine) (a : Nat) : Word :=
  if e.rd (a + 4) = ~~~ (e.rd a) then e.rd a else Tbl.getF resetWord e.assay.hold a

/-- A field of a complement-paired register as the engine uses it. -/
def Engine.cp (e : Engine) (f : Fld) : Nat := bitsOf (e.cpVal f.addr) f.lo f.width

/-- A one-bit field of a complement-paired register as the engine uses it. -/
def Engine.cpOn (e : Engine) (f : Fld) : Bool := decide (e.cp f ≠ 0)

/-! ### Memory -/

/-- Every byte of memory that nothing has written reads as zero. -/
def memDefault (_ : Nat) : Byte := 0#8

/-- Memory in its canonical form. -/
def memWf (m : Tbl Byte) : Bool := Tbl.wf memDefault m

/-- The byte at physical address `a` (R32). -/
def Engine.ldB (e : Engine) (a : Nat) : Byte := Tbl.getF memDefault e.mem a

/-- The byte at physical address `a` made `v`. -/
def Engine.stB (e : Engine) (a : Nat) (v : Byte) : Engine :=
  { e with mem := Tbl.setF memDefault e.mem a v }

/-- The little-endian 32-bit word at `a`. -/
def Engine.ldW (e : Engine) (a : Nat) : Word :=
  e.ldB (a + 3) ++ e.ldB (a + 2) ++ e.ldB (a + 1) ++ e.ldB a

/-- The little-endian 32-bit word at `a` made `v`. -/
def Engine.stW (e : Engine) (a : Nat) (v : Word) : Engine :=
  (((e.stB a (v.extractLsb' 0 8)).stB (a + 1) (v.extractLsb' 8 8)).stB (a + 2)
    (v.extractLsb' 16 8)).stB (a + 3) (v.extractLsb' 24 8)

/-- Words stored one after another from `a`. -/
def Engine.stWs (e : Engine) (a : Nat) : List Word → Engine
  | [] => e
  | v :: vs => (e.stW a v).stWs (a + 4) vs

/-- `n` words read one after another from `a`. -/
def Engine.ldWs (e : Engine) (a : Nat) : Nat → List Word
  | 0 => []
  | n + 1 => e.ldW a :: e.ldWs (a + 4) n

/-- The ingot that holds physical address `a` (R32). -/
def ingotOf (a : Nat) : Option Nat :=
  if 0x80000000 ≤ a ∧ a < 0x82800000 then some ((a - 0x80000000) / 0x80000) else none

/-- The engine with `n` bytes from `a` made zero. -/
def Engine.clearBytes (e : Engine) (a n : Nat) : Engine :=
  { e with mem := e.mem.filter (fun c => c.1 < a || a + n ≤ c.1) }

/-! ### Hallmarks -/

/-- Bits [3:0] of a hallmark (R346). -/
def hmTenant (hm : Nat) : Nat := hm % 16
/-- Bits [5:4] of a hallmark (R346). -/
def hmOrigin (hm : Nat) : Nat := hm / 16 % 4
/-- Bits [7:6] of a hallmark (R346). -/
def hmPriv (hm : Nat) : Nat := hm / 64 % 4

end Sys2Proof.Machine

namespace Sys2Proof
open Sys2Proof.Machine

/-- The control core itself: ORIGIN 2 and PRIV 1 or 2, not a DMA channel's
request; a forwarded control core request (ORIGIN 3) counts as the peer admitted
it, and a debug request (PRIV 3) is admitted by its session's scope, which the debug port
checks before it sends it (R350, R647, R648). -/
def Sender.isCC (s : Sender) : Bool :=
  !s.dma && (((hmOrigin s.hm == 2 || hmOrigin s.hm == 3) && (hmPriv s.hm == 1 || hmPriv s.hm == 2))
    || hmPriv s.hm == 3)

/-- The control core in MONITOR. -/
def Sender.isMon (s : Sender) : Bool := s.isCC && hmPriv s.hm == 2

/-- Tenant `t`: its tenant hallmarks, and its DMA channels' requests (R350). -/
def Sender.isTenant (s : Sender) (t : Nat) : Bool :=
  hmTenant s.hm == t && (hmPriv s.hm == 0 || s.dma)

/-- A debug hallmark (PRIV 3). -/
def Sender.isDebug (s : Sender) : Bool := hmPriv s.hm == 3

/-- The PCIe physical function (R348). -/
def Sender.isPF (s : Sender) : Bool := !s.dma && s.hm == 0x40

/-- A request of a tenant hallmark or of a DMA channel. -/
def Sender.isTenantReq (s : Sender) : Bool := s.dma || hmPriv s.hm == 0

/-- A request of a host or of the control core, which a pair forwards; path code's, DMA's,
debug's and the peer's are not (R518). -/
def Sender.forwards (s : Sender) : Bool :=
  !s.dma && !s.isDebug && (hmOrigin s.hm == 0 || hmOrigin s.hm == 1 || (hmOrigin s.hm == 2 && s.isCC))

end Sys2Proof

namespace Sys2Proof.Machine

/-! ### Events -/

/-- The address of the EVT_STATUS register of a block, by block ID (R31). -/
def evtStatusAddr (blk : Nat) : Nat :=
  match blk with
  | 0x00 => SYS_EVT_STATUS | 0x01 => CLK_EVT_STATUS | 0x02 => REF_EVT_STATUS
  | 0x03 => TIME_EVT_STATUS | 0x04 => TAQ_EVT_STATUS | 0x05 => SCHED_EVT_STATUS
  | 0x06 => INGOT_EVT_STATUS | 0x07 => XLAT_EVT_STATUS | 0x08 => DMA_EVT_STATUS
  | 0x09 => MBX_EVT_STATUS | 0x0A => ROUTE_EVT_STATUS | 0x0B => SUMX_EVT_STATUS
  | 0x0C => EQA_EVT_STATUS | 0x0D => SAFE_EVT_STATUS | 0x0E => SAP_EVT_STATUS
  | 0x0F => MADI_EVT_STATUS | 0x10 => NET_EVT_STATUS | 0x11 => FLOW_EVT_STATUS
  | 0x12 => SVL_EVT_STATUS | 0x13 => DUO_EVT_STATUS | 0x14 => CUE_EVT_STATUS
  | 0x15 => ASSAY_EVT_STATUS | 0x16 => ADAPT_EVT_STATUS | 0x17 => PCIE_EVT_STATUS
  | 0x18 => TWB_EVT_STATUS | 0x19 => QSPI_EVT_STATUS | 0x1A => WDT_EVT_STATUS
  | 0x1B => SEC_EVT_STATUS | 0x1C => DBG_EVT_STATUS | 0x1D => FUSE_EVT_STATUS
  | 0x1E => PWR_EVT_STATUS
  | k => CORE_EVT_STATUS (k - 0x20)

/-- An event is detected (R36): bit `code - 1` of the block's EVT_STATUS is set
and the record, stamped with the ESC, waits for the end of the FABRIC cycle. -/
def Engine.raise (e : Engine) (v : Evt) : Engine :=
  let a := evtStatusAddr v.block
  let e := e.wr a (e.rd a ||| BitVec.ofNat 32 (2 ^ (v.code - 1)))
  { e with evBuf := e.evBuf ++ [{ v with esc := e.tick.esc % 2 ^ 32 }] }

/-- An event concerning tenant `t`, which also goes to that tenant's queue. -/
def Engine.raiseT (e : Engine) (t : Nat) (v : Evt) : Engine :=
  e.raise { v with tenant := t, queue := some t }

/-- The code of a severity in bits [11:10] of word 0 (R36). -/
def Sev.code : Sev → Nat
  | .note => 0 | .warn => 1 | .fault => 2 | .fatal => 3

/-- The four words of an event record (R36). -/
def Evt.words (v : Evt) : List Word :=
  [ BitVec.ofNat 32 (v.block * 2 ^ 24 + v.code % 256 * 2 ^ 16 + v.tenant % 16 * 2 ^ 12
      + v.sev.code * 2 ^ 10 + v.hm % 256),
    BitVec.ofNat 32 v.esc, BitVec.ofNat 32 v.w2, BitVec.ofNat 32 v.w3 ]

/-- The order in which records of one FABRIC cycle enter the ring (R38). -/
def Evt.before (a b : Evt) : Bool :=
  a.block < b.block || (a.block == b.block && a.code ≤ b.code)

/-- One record inserted into a sorted list, after those it does not precede. -/
def Evt.insert (v : Evt) : List Evt → List Evt
  | [] => [v]
  | w :: ws => if w.before v then w :: Evt.insert v ws else v :: w :: ws

/-- The records of one cycle in the order of R38, keeping the order of equals. -/
def sortEvts (l : List Evt) : List Evt := l.foldl (fun acc v => v.insert acc) []

/-- The size of the firmware event ring in records; 0 while it is disabled (R39). -/
def Engine.ringSize (e : Engine) : Nat :=
  if e.get SYS_EVR_LEN_LOG2 = 0 then 0 else 2 ^ e.get SYS_EVR_LEN_LOG2

/-- The ring is full (R39). -/
def Engine.ringFull (e : Engine) : Bool :=
  (e.get SYS_EVR_WR_IDX + 1) % e.ringSize == e.get SYS_EVR_RD_IDX % e.ringSize

/-- The owner byte of ingot `n`, as INGOT_OWN holds it (R302). -/
def Engine.ingotOwner (e : Engine) (n : Nat) : Nat := e.cp (INGOT_OWN_OWNER n)

/-- The ring lies within one ingot owned by CC (R39). -/
def Engine.ringOwned (e : Engine) : Bool :=
  match ingotOf (e.rd SYS_EVR_BASE).toNat with
  | some n => e.ingotOwner n == 0x20
  | none => false

/-- One record written at the ring's write index. -/
def Engine.ringPut (e : Engine) (v : Evt) : Engine :=
  let e := e.stWs ((e.rd SYS_EVR_BASE).toNat + 16 * e.get SYS_EVR_WR_IDX) v.words
  e.put SYS_EVR_WR_IDX ((e.get SYS_EVR_WR_IDX + 1) % e.ringSize)

/-- One record discarded by the ring (R40). -/
def Engine.ringDrop (e : Engine) : Engine :=
  let e := (e.count SYS_EVR_DROP_COUNT).putB SYS_EVT_STATUS_EVR_OVF true
  { e with tick := { e.tick with evrLost := e.tick.evrLost + 1 } }

/-- The EVR_OVERFLOW record (R40, R45). -/
def Engine.overflowRec (e : Engine) : Evt :=
  { block := 0x00, code := 0x03, sev := .warn, w2 := e.tick.evrLost,
    esc := e.tick.esc % 2 ^ 32 }

/-- The overflow record written first once space is free (R40). -/
def Engine.ringOverflow (e : Engine) : Engine :=
  if e.ringSize ≠ 0 ∧ e.tick.evrLost ≠ 0 ∧ e.ringFull = false ∧ e.ringOwned = true then
    let e := e.ringPut e.overflowRec
    { e with tick := { e.tick with evrLost := 0 } }
  else e

/-- One record offered to the firmware event ring (R39, R40). -/
def Engine.ringWrite (e : Engine) (v : Evt) : Engine :=
  let e := e.ringOverflow
  if e.ringSize = 0 then e
  else if e.ringFull || !e.ringOwned then e.ringDrop
  else e.ringPut v

/-- The EVQ_OVERFLOW record of tenant `t` (R370, R378). -/
def Engine.evqOverflowRec (e : Engine) (t : Nat) : Evt :=
  { block := 0x09, code := 0x07, sev := .warn, tenant := t, w2 := Tbl.get 0 e.mbx.evqLost t,
    esc := e.tick.esc % 2 ^ 32, queue := some t }

/-- The queue of tenant `t` with its overflow record written, once there is space. -/
def Engine.evqOverflow (e : Engine) (t : Nat) : Engine :=
  let q := Tbl.get [] e.mbx.evq t
  if Tbl.get 0 e.mbx.evqLost t ≠ 0 ∧ q.length < 64 then
    { e with mbx := { e.mbx with evq := Tbl.set [] e.mbx.evq t (q ++ [e.evqOverflowRec t]),
                                 evqLost := Tbl.set 0 e.mbx.evqLost t 0 } }
  else e

/-- A host write accepted for transmission (R236, R322, R578). -/
def Engine.hostQueue (e : Engine) (w : HostWr) : Engine := e.updXlat fun x => { x with posted := x.posted ++ [w] }

/-- Word `k` of vector `v` of function `f` in its MSI-X table; the mask bit is set at reset,
as PCI Express has it (R578, R603). -/
def Engine.msixWord (e : Engine) (f v k : Nat) : Word :=
  Tbl.getF (fun a => if a % 4 = 3 then 1#32 else 0#32) e.pcie.msix (128 * f + 4 * v + k)

/-- Vector `v` of function `f` is raised: sent as its memory write, or left pending while it
is masked or the function has MSI-X disabled (R578). -/
def Engine.msix (e : Engine) (f v : Nat) : Engine :=
  if e.pcie.msixEn.contains f && !bitOf (e.msixWord f v 3) 0 && e.on PCIE_STATUS_LINK_UP then
    let a := (e.msixWord f v 0).toNat + (e.msixWord f v 1).toNat * 2 ^ 32
    e.hostQueue { tenant := f, va := a, addr := a, ws := [e.msixWord f v 2], nosnoop := false, agent := 0x42, hm := 0xFF }
  else
    e.updPcie fun p => { p with pba := Tbl.set 0 p.pba f (Tbl.get 0 p.pba f ||| 2 ^ v) }

/-- A vector of VF `t`, once that VF is enabled (R578). -/
def Engine.vfVector (e : Engine) (t v : Nat) : Engine :=
  if (e.get PCIE_STATUS_VF_EN).testBit t then e.msix t v else e

/-- One record offered to the event queue of tenant `t` (R369, R370); with
MBX_CFG.EN = 0 it is discarded without count (R376). -/
def Engine.evqPush (e : Engine) (t : Nat) (v : Evt) : Engine :=
  if e.on (MBX_CFG_EN t) = false then e
  else
    let e := e.evqOverflow t
    let q := Tbl.get [] e.mbx.evq t
    if q.length < 64 then
      let e := { e with mbx := { e.mbx with evq := Tbl.set [] e.mbx.evq t (q ++ [v]) } }
      if q.isEmpty then e.vfVector t 0 else e
    else
      let e := e.count (MBX_EVQ_DROP_COUNT t)
      { e with mbx := { e.mbx with evqLost := Tbl.set 0 e.mbx.evqLost t
                                     (Tbl.get 0 e.mbx.evqLost t + 1) } }

/-- One record offered to the places it goes to. -/
def Engine.deliver (e : Engine) (v : Evt) : Engine :=
  let e := e.ringWrite v
  let e := match v.queue with
    | some t => e.evqPush t v
    | none => e
  v.also.foldl (fun e t => e.evqPush t v) e

/-- The end of a FABRIC cycle: the records detected in it are delivered in the
order of R38. -/
def Engine.flushEvents (e : Engine) : Engine :=
  (sortEvts e.evBuf).foldl Engine.deliver { e with evBuf := [] }

/-- A read answered: the word is what the reader is given. -/
def Engine.answer (r : Word × Engine) : Engine := { r.2 with rdata := r.1 }

/-! ### Captures, key sequences and the tick -/

/-- What a read of the capturing register `a` by hallmark `hm` captures. -/
def Engine.capture (e : Engine) (a hm : Nat) (ws : List Nat) : Engine :=
  { e with caps := Tbl.set [] e.caps (a * 256 + hm % 256) ws }

/-- The capture of register `a` that hallmark `hm` holds, `[]` without one. -/
def Engine.captured (e : Engine) (a hm : Nat) : List Nat :=
  Tbl.get [] e.caps (a * 256 + hm % 256)

/-- The first item a capture of register `a` by `hm` holds; zero without one. -/
def Engine.capturedOr (e : Engine) (a hm : Nat) : Word :=
  match e.captured a hm with
  | c :: _ => BitVec.ofNat 32 c
  | [] => 0#32

/-- A key register write: `k1` then `k2` by one hallmark makes the sequence ready;
anything else starts over (R44). -/
def KeySt.write (k : KeySt) (k1 k2 : Nat) (hm now : Nat) (v : Word) : KeySt :=
  if v.toNat = k1 then { hm := hm, step := 1, cyc := now }
  else if v.toNat = k2 ∧ k.step = 1 ∧ k.hm = hm then { hm := hm, step := 2, cyc := now }
  else {}

/-- The keyed write is accepted: same hallmark, within [K, K + 64) (R44). -/
def KeySt.ok (k : KeySt) (hm now : Nat) : Bool :=
  k.step == 2 && k.hm == hm && decide (k.cyc ≤ now) && decide (now < k.cyc + 64)

/-- N, the samples of a block (R19). -/
def Engine.nSamp (e : Engine) : Nat := 2 ^ e.get TICK_CFG_LEN

/-- The sample rate in Hz (R19). -/
def Engine.fs (e : Engine) : Nat := if e.on TICK_CFG_RATE then 96000 else 48000

/-- The tick is stopped (R27, R28). -/
def Engine.stopped (e : Engine) : Bool := e.on TICK_CFG_STOPPED

/-- The block of the current ESC. -/
def Engine.block (e : Engine) : Nat := e.tick.esc / e.nSamp

/-- FABRIC cycles per sample period while locked (R22: half the CORE cycles). -/
def Engine.cycPerSample (e : Engine) : Nat := if e.on TICK_CFG_RATE then 6400 else 12800

/-- LOCKSTEP is in force (R512). -/
def Engine.lockstep (e : Engine) : Bool := e.on DUO_CTRL_LOCKSTEP

/-- The forwarding lead D_F: max(2, ⌈32 µs × fs / N⌉) ticks (R518). -/
def Engine.dF (e : Engine) : Nat :=
  max 2 ((32 * e.fs + 1000000 * e.nSamp - 1) / (1000000 * e.nSamp))

/-- The earliest block whose TAQ cut-off has not passed, b* (R138); in lockstep
cut-offs lie `D_F` blocks ahead (R145). While the tick is stopped it is the block
at which the ESC holds. -/
def Engine.bStar (e : Engine) : Nat :=
  if e.stopped then e.block
  else max (e.block + if e.lockstep then e.dF else 0) e.tick.cutNext

/-- DUO_ESC_OFS (R507). -/
def Engine.escOfs (e : Engine) : Nat :=
  e.get DUO_ESC_OFS_LO_OFS + e.get DUO_ESC_OFS_HI_OFS * 2 ^ 32

/-- The pair ESC of an ESC of this engine (R507). -/
def Engine.pairEsc (e : Engine) (s : Nat) : Nat := s + e.escOfs

/-- The ESC of sample 0 of b*, at which writes to live tables take effect. -/
def Engine.bStarEsc (e : Engine) : Nat := e.bStar * e.nSamp

/-- A request for RUN from source `src` of PWR_WAKE_CAUSE (R609, R614); the first stays. -/
def Engine.requestRun (e : Engine) (src : Nat) : Engine :=
  if e.pwr.runReq.isSome then e else e.updPwr fun p => { p with runReq := some src }

/-- The engine outside the always-on domain is powered and out of reset (R608, R612, R617,
R618). -/
def Engine.live (e : Engine) : Bool := !e.pwr.dormant && !e.pwr.off && !e.pwr.rstLow && e.pwr.supply

/-- A command whose effect is on the engine alone. Outside the always-on domain nothing acts
while the engine is unpowered or held in reset: such a command changes nothing. -/
def State.eff (s : State) (f : Engine → Engine) : Out :=
  .next (if s.eng.live then { s with eng := f s.eng } else s)

/-- A command of the always-on domain (R612). -/
def State.ao (s : State) (f : Engine → Engine) : Out := .next { s with eng := f s.eng }

/-- A value for something the manual leaves open: the model's counter moves on,
and nothing says what the value is. -/
def Engine.fresh (e : Engine) : Word × Engine :=
  (Config.freeWord e.free, { e with free := e.free + 1 })

end Sys2Proof.Machine
end

