-- ==== Sys2Proof/Machine/AssayBase.lean ====
section
/-!
DEFINITION. ASSAY as every block uses it: motion counts, storage mismatches with hold,
repair and quarantine, and the write outcomes of complement-paired registers (chapter
"Assay, Adaptive Loops and Degraded Operation", R667 to R671). The scrubber and the
lifting of a quarantine are in Machine/Assay.lean.
-/
namespace Sys2Proof.Machine

/-- An ASSAY event. -/
def assayEvt (code : Nat) (sev : Sev) (hm w2 w3 : Nat) : Evt :=
  { block := 0x15, code := code, sev := sev, hm := hm, w2 := w2, w3 := w3 }

/-- One second and one millisecond in FABRIC cycles (R671 and the table of events). -/
def oneSecCyc : Nat := 614400000
def oneMsCyc : Nat := 614400

/-- WRITE_MISMATCH: a refused CP write (R667), concerning the tenant the pair belongs to (0
without one, R36); reason 0 odd without even, 1 wrong, 2 late or missing, 3 other sender. -/
def Engine.writeMismatch (e : Engine) (owner : Option Nat) (hm a reason : Nat) : Engine :=
  (e.count ASSAY_WRITE_CNT_COUNT).raise { assayEvt 0x01 .warn hm a reason with tenant := owner.getD 0 }

/-- `m` motion mismatches of kind 1 DMA, 2 MBX or 3 SVL are counted; MOTION at most once in
1 ms carries the count since the last. -/
def Engine.motion (e : Engine) (kind : Nat) (m : Nat := 1) : Engine :=
  let e := e.count ⟨ASSAY_MOTION_DMA + 4 * (kind - 1), 0, 32⟩ m
  let n := Tbl.get 0 e.assay.motion kind + m
  let last := Tbl.get 0 e.assay.motionAt kind
  if last = 0 ∨ last + oneMsCyc ≤ e.now + 1 then
    let e := e.updAssay fun x => { x with
      motion := Tbl.set 0 x.motion kind 0, motionAt := Tbl.set 0 x.motionAt kind (e.now + 1) }
    e.raise (assayEvt 0x08 .note 0xFF kind n)
  else e.updAssay fun x => { x with motion := Tbl.set 0 x.motion kind n }

/-- The item at `a` is quarantined. -/
def Engine.isQuar (e : Engine) (a : Nat) : Bool := e.assay.quar.contains a

/-- ASSAY_STATUS and ASSAY_QLIST follow the tables. -/
def Engine.assayShow (e : Engine) : Engine :=
  let e := e.put ASSAY_STATUS_TRACKED e.assay.tracked.length
  let e := e.put ASSAY_STATUS_QUAR (min 256 e.assay.quar.length)
  (List.range 256).foldl (fun e i =>
    e.wr (ASSAY_QLIST i) (match e.assay.quar[i]? with
      | some a => BitVec.ofNat 32 (a / 4 * 4 + 1)
      | none => 0#32)) e

/-- The item at `a` is quarantined (R671); `owner` is the tenant it belongs to, if any,
and `full` says it was by a full tracking table. -/
def Engine.quarantine (e : Engine) (a : Nat) (owner : Option Nat) (full : Bool) : Engine :=
  let e := e.updAssay fun x => { x with
    tracked := x.tracked.filter (fun t => t.addr != a),
    quar := if x.quar.contains a then x.quar else x.quar ++ [a] }
  let e := if 256 < e.assay.quar.length then e.put ASSAY_STATUS_QLIST_OVF 1 else e
  let v := { assayEvt 0x03 .fault 0xFF a full.toNat with queue := owner, tenant := owner.getD 0 }
  e.assayShow.raise v

/-- A storage mismatch of item `a`, stored value `v`: HELD, and the count toward
quarantine (R668, R671). -/
def Engine.held (e : Engine) (a : Nat) (v : Word) (owner : Option Nat) : Engine :=
  let e := (e.count ASSAY_HELD_CNT_COUNT).raise
    { assayEvt 0x02 .warn 0xFF a v.toNat with queue := owner, tenant := owner.getD 0 }
  if e.isQuar a then e
  else
    let e := e.updAssay fun x => { x with
      tracked := x.tracked.filter fun t => t.addr == a || decide (e.now < t.hits.headD 0 + oneSecCyc) }
    match e.assay.tracked.find? fun t => t.addr == a with
    | some t =>
      let hits := (e.now :: t.hits).take 3
      if hits.length = 3 ∧ e.now < hits.getD 2 0 + oneSecCyc then e.quarantine a owner false
      else
        (e.updAssay fun x => { x with
          tracked := x.tracked.map fun u => if u.addr == a then { u with hits := hits } else u }).assayShow
    | none =>
      if 256 ≤ e.assay.tracked.length then
        (e.raise { assayEvt 0x06 .warn 0xFF a 0 with queue := owner, tenant := owner.getD 0 }).quarantine a owner true
      else
        (e.updAssay fun x => { x with tracked := x.tracked ++ [{ addr := a, hits := [e.now] }] }).assayShow

/-- The hold of item `a` fails its parity: HOLD_LOST, and a reset with cause ASSAY (5)
is requested (R669). -/
def Engine.holdLost (e : Engine) (a : Nat) : Engine :=
  let e := e.raise (assayEvt 0x07 .fatal 0xFF a 0)
  { e with resetReq := some 5 }

/-- A check of the complement-paired register at `a`: a mismatch is repaired from the
hold, which the check uses (R668, R669). -/
def Engine.cpCheck (e : Engine) (a : Nat) (owner : Option Nat) : Engine :=
  let v := e.rd a
  if e.rd (a + 4) = ~~~ v then e
  else if e.assay.badHold.contains a then e.holdLost a
  else
    let h := Tbl.getF resetWord e.assay.hold a
    ((e.wr a h).wr (a + 4) (~~~ h)).held a v owner

/-- An item's quarantine and its count are lifted (R673). -/
def Engine.quarLift (e : Engine) (a hm : Nat) (owner : Option Nat) : Engine :=
  if e.isQuar a then
    let e := e.updAssay fun x => { x with
      quar := x.quar.filter (· != a), faded := x.faded.filter (· != a), tracked := x.tracked.filter fun t => t.addr != a }
    e.assayShow.raise { assayEvt 0x04 .note hm a 0 with queue := owner, tenant := owner.getD 0 }
  else e

end Sys2Proof.Machine
end

