-- ==== Sys2Proof/Machine/Link.lean ====
section
/-!
DEFINITION. The Svalento link as every block uses it: sending a frame and forwarding a
write to paired state (chapter "Engine Pairing, Fail-Over and Return", R505, R518). What
the link and the pair do with frames is in Machine/Svl.lean and Machine/Duo.lean.
-/
namespace Sys2Proof.Machine

/-- A frame handed to the link under hallmark `hm`: numbered, and kept until it is
acknowledged (R505); nothing is sent while the link is not trained. -/
def Engine.svlSend (e : Engine) (hm : Nat) (f : Frame) : Engine :=
  if e.on SVL_STATUS_TRAINED then
    e.updDuo fun d => { d with
      tx := d.tx ++ [{ seq := d.txSeq, hm := hm, frame := f, cyc := e.now, tries := 0 }],
      txSeq := (d.txSeq + 1) % 4096 }
  else e

/-- DUO_CTRL.STATE (R540). -/
def duoSolo : Nat := 0
def duoCopy : Nat := 1
def duoEnter : Nat := 2
def duoConverge : Nat := 3
def duoPaired : Nat := 4
def duoLinkDown : Nat := 5
def duoDiverged : Nat := 6

def Engine.duoState (e : Engine) : Nat := e.get DUO_CTRL_STATE

/-- The engine is the primary of a pair in lockstep, or its standby (R499, R512). -/
def Engine.isPrimary (e : Engine) : Bool := e.lockstep && !e.on DUO_CTRL_ROLE
def Engine.isStandby (e : Engine) : Bool := e.lockstep && e.on DUO_CTRL_ROLE

/-- `a` is the even word of a complement-paired word: a register's (R10), a word of a TAQ
entry's (R134), or a flow entry's CTRL pair (R471). -/
def isPairEven (a : Nat) : Bool :=
  isCpEven a || (decide (0x50400000 ≤ a ∧ a < 0x50408000) && a % 8 == 0)
    || (decide (0x50300000 ≤ a ∧ a < 0x50320000) && a % 64 == 0x38)

/-- `a` is the odd word of a pair. -/
def isPairOdd (a : Nat) : Bool := decide (4 ≤ a) && isPairEven (a - 4)

/-- `a` is a word of a pair. -/
def isPairAddr (a : Nat) : Bool := isPairEven a || isPairOdd a

/-- The link frame of an item for the block whose pair ESC is `esc` (R504). -/
def FwdAct.frame (esc : Nat) : FwdAct → Frame
  | .write a v => .fwdWrite a v (isPairAddr a) esc
  | .msg t ws => .fwdMsg t ws esc

/-- The primary accepts an item: its target is T = b* + D_F, it is sent to the standby and
waits (R518, R519). No request with privilege 3 is sent (R349). -/
def Engine.forward (e : Engine) (by_ : Sender) (act : FwdAct) : Engine :=
  let t := e.bStar + e.dF
  let e := e.updDuo fun d => { d with
    items := d.items ++ [{ blk := t, by_ := by_, act := act }], sent := d.sent + 1 }
  e.svlSend by_.hm (act.frame (e.pairEsc (t * e.nSamp)))

/-! ### Writes to paired state (R517 to R520) -/

/-- A DUO event (R541). -/
def duoEvt (code : Nat) (sev : Sev) (hm w2 w3 : Nat) : Evt :=
  { block := 0x13, code := code, sev := sev, hm := hm, w2 := w2, w3 := w3 % 2 ^ 32 }

/-- Blocks whose registers are paired state (R517), and GPIO output configuration. -/
def pairedReg (a : Nat) : Bool :=
  let b := (a - 0x40000000) / 0x10000
  (0x50000000 ≤ a && a < 0x58000000)
    || (0x40000000 ≤ a && a < 0x40300000 && ([4, 5, 6, 7, 8, 9, 0xA, 0xB, 0xC, 0xD, 0xE, 0xF, 0x11, 0x16].contains b
        || (0x20 ≤ b && b < 0x30)))
    || (TICK_CFG ≤ a && a < TICK_CFG + 4) || (PWR_GPIO_CFG 0 ≤ a && a < PWR_GPIO_CFG 6) || a == PWR_GPIO_OUT

/-- The primary forwards: in lockstep, and from ENTER on (R515, R518). -/
def Engine.forwarding (e : Engine) : Bool := e.isPrimary || (e.duoState == duoEnter && !e.on DUO_CTRL_ROLE)

/-- A quarantined complement-paired register that keeps its hold until it is released: all but
windows, SAFE_GRP_CFG, SUMX gains and lists, and TAQ words (R672). -/
def Engine.frozen (e : Engine) (a : Nat) : Bool :=
  e.isQuar a && a < 0x50000000
    && !(decide (XLAT_WIN_BASE 0 0 ≤ a ∧ a < XLAT_WIN_BASE 16 0)
      || decide (SAFE_GRP_CFG 0 ≤ a ∧ a < SAFE_GRP_CFG 16)
      || decide (SUMX_BUS_GAIN 0 ≤ a ∧ a < SUMX_BUS_GAIN 256)
      || decide (SUMX_LIST_A 0 ≤ a ∧ a < SUMX_LIST_B 256))

/-- QUAR_REFUSED: a write of a quarantined register (R672). -/
def Engine.quarRefused (e : Engine) (by_ : Sender) (a : Nat) : Engine :=
  e.raise (assayEvt 0x05 .warn by_.hm a by_.hm)

/-- A write by `by_` at `a` has its effect here at once: it is of no quarantined pair, and no
host's or control core's write of a pair's paired state. -/
def Engine.direct (e : Engine) (by_ : Sender) (a : Nat) : Bool :=
  !e.frozen a && !(by_.forwards && pairedReg a && (e.isStandby || e.forwarding))

/-- A write of `ws` (addresses and values) that a block takes with effect `f`, from its own
row: the standby of a pair ignores a host's write of paired state, a quarantined pair refuses
it, and the primary forwards it (R518, R520, R672). -/
def Engine.rowWrite (e : Engine) (by_ : Sender) (ws : List (Nat × Word)) (f : Engine → Engine) : Engine :=
  let a := (ws.headD (0, 0#32)).1
  if e.direct by_ a then f e
  else if by_.forwards && pairedReg a && e.isStandby then e.raise (duoEvt 0x0A .warn by_.hm a by_.hm)
  else if e.frozen a then e.quarRefused by_ a
  else ws.foldl (fun e w => e.forward by_ (.write w.1 w.2)) e

/-- Only the primary drives local outputs (R500, R537). -/
def Engine.outEnabled (e : Engine) : Bool := !e.on DUO_CTRL_ROLE && !e.duo.outOff

/-- The ROLE ball (R499). -/
def Engine.roleBall (e : Engine) : Bool := !e.on DUO_CTRL_ROLE && !e.stopped

/-- The input line or port of source `i`: SAP lines 0 to 7, MADI ports 8 and 9 (R438, R450),
and 10 for the headset microphone (R567). -/
def Engine.inputPort (e : Engine) (i : Nat) : Nat :=
  let w := if e.on TICK_CFG_RATE then 16 else 32
  if 0x980 ≤ i then 10
  else if i < 0x900 then (i - 0x800) / w else 8 + (i - 0x900) / (2 * w)

/-- In lockstep the input of port `p` is mirrored, and whether this engine gathers it (R523). -/
def Engine.mirrored (e : Engine) (p : Nat) : Bool :=
  e.lockstep && (decide (8 ≤ p) || (e.get DUO_MIRROR_SAP_MIR).testBit p)
def Engine.mirrorHere (e : Engine) (p : Nat) : Bool :=
  if p = 10 then e.on CUE_MIC_CFG_PAIR_SRC
  else !(if 8 ≤ p then e.get DUO_MIRROR_MADI_SRC else e.get DUO_MIRROR_SAP_SRC).testBit (if 8 ≤ p then p - 8 else p)

end Sys2Proof.Machine
end

