-- ==== Sys2Proof/Machine/CoreBase.lean ====
section
/-!
DEFINITION. A core's context: its registers with their hard-wired members (R152),
its special registers as words (R153), its hallmark and tenant (R164), the context
a dispatch makes (R155), and its events (R193). Core 16 is the control core.
-/
namespace Sys2Proof.Machine

/-- The state of core `c` beyond its control registers. -/
def Engine.coreOf (e : Engine) (c : Nat) : CoreSt := Tbl.get {} e.core c

/-- The state of core `c` made `k`. -/
def Engine.setCore (e : Engine) (c : Nat) (k : CoreSt) : Engine :=
  { e with core := Tbl.set {} e.core c k }

/-- `f` applied to the state of core `c`. -/
def Engine.updCore (e : Engine) (c : Nat) (f : CoreSt → CoreSt) : Engine :=
  e.setCore c (f (e.coreOf c))

/-- The context in bank `b` of core `c`. -/
def Engine.ctxAt (e : Engine) (c b : Nat) : CoreCtx := Tbl.get {} (e.coreOf c).ctx b

/-- The running context of core `c`. -/
def Engine.ctxOf (e : Engine) (c : Nat) : CoreCtx := e.ctxAt c (e.coreOf c).bank

/-- The context in bank `b` of core `c` made `x`. -/
def Engine.setCtxAt (e : Engine) (c b : Nat) (x : CoreCtx) : Engine :=
  e.updCore c fun k => { k with ctx := Tbl.set {} k.ctx b x }

/-- The running context of core `c` made `x`. -/
def Engine.setCtx (e : Engine) (c : Nat) (x : CoreCtx) : Engine :=
  e.setCtxAt c (e.coreOf c).bank x

/-- `f` applied to the running context of core `c`. -/
def Engine.updCtx (e : Engine) (c : Nat) (f : CoreCtx → CoreCtx) : Engine :=
  e.setCtx c (f (e.ctxOf c))

/-- G0 reads 0 (R152). -/
def CoreCtx.rdG (x : CoreCtx) (i : Nat) : Word := if i = 0 then 0#32 else Tbl.get 0#32 x.g i

/-- Writes to G0 are discarded (R152). -/
def CoreCtx.wrG (x : CoreCtx) (i : Nat) (v : Word) : CoreCtx :=
  if i = 0 then x else { x with g := Tbl.set 0#32 x.g i v }

/-- Q0 reads 1 (R152). -/
def CoreCtx.rdQ (x : CoreCtx) (i : Nat) : Bool := if i = 0 then true else Tbl.get false x.q i

/-- Writes to Q0 are discarded (R152). -/
def CoreCtx.wrQ (x : CoreCtx) (i : Nat) (v : Bool) : CoreCtx :=
  if i = 0 then x else { x with q := Tbl.set false x.q i v }

/-- An accumulator as a signed value (R152). -/
def CoreCtx.rdA (x : CoreCtx) (i : Nat) : Int := Tbl.get 0 x.acc i

def CoreCtx.wrA (x : CoreCtx) (i : Nat) (v : Int) : CoreCtx := { x with acc := Tbl.set 0 x.acc i v }

/-- Pointers, bases, lengths and steps (R152). -/
def CoreCtx.rdP (x : CoreCtx) (i : Nat) : Word := Tbl.get 0#32 x.p i
def CoreCtx.wrP (x : CoreCtx) (i : Nat) (v : Word) : CoreCtx := { x with p := Tbl.set 0#32 x.p i v }
def CoreCtx.rdB (x : CoreCtx) (i : Nat) : Word := Tbl.get 0#32 x.b i
def CoreCtx.rdL (x : CoreCtx) (i : Nat) : Nat := Tbl.get 0 x.l i
def CoreCtx.rdM (x : CoreCtx) (i : Nat) : Word := Tbl.get 0#32 x.m i

/-- FLAGS as a word (R153). -/
def CoreCtx.flagsWord (x : CoreCtx) : Word :=
  BitVec.ofNat 32 (x.z.toNat + 2 * x.n.toNat + 4 * x.c.toNat + 8 * x.v.toNat + 16 * x.sat.toNat)

/-- FLAGS written from a word (R153, R154). -/
def CoreCtx.setFlags (x : CoreCtx) (w : Word) : CoreCtx :=
  { x with z := bitOf w 0, n := bitOf w 1, c := bitOf w 2, v := bitOf w 3, sat := bitOf w 4 }

/-- PSW as a word (R153). -/
def CoreCtx.pswWord (x : CoreCtx) : Word :=
  BitVec.ofNat 32 (x.mode % 4 + 4 * x.te.toNat + 8 * x.ie.toNat + 16 * x.lk.toNat
    + 32 * (x.depth % 4))

/-- CORE_MODE as a word (R153). -/
def CoreCtx.modeWord (x : CoreCtx) : Word := BitVec.ofNat 32 (x.rmode.toNat + 2 * x.saten.toNat)

/-- The tenant of core `c`; the control core's is 0 (R164, note to CORE_TENANT). -/
def Engine.coreTenant (e : Engine) (c : Nat) : Nat :=
  if c = 16 then 0 else e.cp (CORE_TENANT_TENANT c)

/-- The hallmark of the requests of core `c` (R164, R348). -/
def Engine.coreHm (e : Engine) (c : Nat) : Nat :=
  if c = 16 then 32 + 64 * (if (e.ctxOf 16).mode = 2 then 2 else 1) else 32 + e.coreTenant c

/-- The sender a core's request carries. -/
def Engine.coreSender (e : Engine) (c : Nat) : Sender := { hm := e.coreHm c, agent := c }

/-- A per-core control block's event (R193). -/
def Engine.coreEvt (e : Engine) (c code : Nat) (sev : Sev) (w2 w3 : Nat) (hm : Nat := 0xFF) :
    Engine :=
  let v : Evt := { block := 0x20 + c, code := code, sev := sev, hm := hm, w2 := w2, w3 := w3 }
  if c = 16 then e.raise v else e.raiseT (e.coreTenant c) v

/-- The context a dispatch makes: every register zero, then PC, CORE_MODE, PSW.MODE
PATH, G1 and G2 (R155, R292). -/
def Engine.dispatchCtx (e : Engine) (c task entry arg bound : Nat) : CoreCtx :=
  let x : CoreCtx := {}
  let x := { x with pc := entry % 2 ^ 32, task := task, rmode := e.on (CORE_MODE_INIT_RMODE c),
                    saten := e.on (CORE_MODE_INIT_SATEN c) }
  (x.wrG 1 (BitVec.ofNat 32 arg)).wrG 2 (BitVec.ofNat 32 bound)

/-- Banks of core `c` in use: the running context's and the PREEMPTED ones (R189). -/
def CoreSt.banksUsed (k : CoreSt) : List Nat :=
  (if k.task.isSome then [k.bank] else []) ++ k.pre.map Prod.fst

/-- A bank free for another context (R189). -/
def CoreSt.freeBank (k : CoreSt) : Option Nat :=
  (List.range 3).find? fun b => !k.banksUsed.contains b

/-- An instruction boundary: an EXT whose successor has not executed re-executes with
it (R190, R224). -/
def CoreCtx.boundary (x : CoreCtx) : CoreCtx :=
  match x.ext with
  | some (_, p) => { x with ext := none, pc := p }
  | none => x

/-- The address of byte `a` of the data memory of core `c` in the view of R32. -/
def localAddr (c a : Nat) : Nat := 0x60000000 + c * 0x100000 + a

/-- Responses to loads that a pre-emption or an end discards still arrive (R190). -/
def CoreSt.discardLoads (k : CoreSt) : CoreSt :=
  match k.wait with
  | .load items _ =>
    let ings := (items.filter fun i => !i.host && i.acc).filterMap fun i => ingotOf i.pa
    { k with wait := .run, dropped := k.dropped ++ ings }
  | _ => k

/-- The running context of core `c` frozen in its bank; the reservation is cleared (R188, R190). -/
def Engine.freezeCtx (e : Engine) (c task : Nat) : Engine :=
  let e := e.updCtx c CoreCtx.boundary
  e.updCore c fun k =>
    let k := k.discardLoads
    { k with pre := k.pre ++ [(k.bank, task)], task := none, wait := .run, resv := none,
             deferred := none }

/-- A fresh context for task `task` dispatched in a free bank of core `c` (R155). -/
def Engine.startCtx (e : Engine) (c task entry arg bound : Nat) : Engine :=
  match (e.coreOf c).freeBank with
  | none => e
  | some b =>
    let x := e.dispatchCtx c task entry arg bound
    e.updCore c fun k =>
      { k with ctx := Tbl.set {} k.ctx b x, bank := b, task := some task, wait := .run,
               resv := none, deferred := none }

/-- The PREEMPTED context of task `task` runs again (R294). A WFT discarded by the
pre-emption re-executes (R251). -/
def Engine.resumeCtx (e : Engine) (c task : Nat) : Engine :=
  match (e.coreOf c).pre.find? fun p => p.2 == task with
  | none => e
  | some (b, _) =>
    e.updCore c fun k =>
      { k with pre := k.pre.filter (fun p => p.2 != task), bank := b, task := some task,
               wait := .run }

/-- The running task of core `c` ends: its bank is free and its reservation cleared
(R178, R256). -/
def Engine.endCtx (e : Engine) (c : Nat) : Engine :=
  e.updCore c fun k =>
    { k.discardLoads with task := none, wait := .run, resv := none, deferred := none }

/-- A PREEMPTED task's bank freed (R277, R286). -/
def Engine.dropCtx (e : Engine) (c task : Nat) : Engine :=
  e.updCore c fun k => { k with pre := k.pre.filter fun p => p.2 != task }

/-- Core `c` is powered in the current mode (R608, R610). -/
def Engine.corePowered (e : Engine) (c : Nat) : Bool :=
  match e.get PWR_STATUS_MODE with
  | 1 => c == 16 || !bitOf (e.rd PWR_IDLE_CORES) c
  | 2 => c == 16 || c == 15
  | _ => true

/-- The core executes instructions: it holds a running task (the control core
always), is not halted and waits for nothing. -/
def Engine.issuing (e : Engine) (c : Nat) : Bool :=
  let k := e.coreOf c
  (c == 16 || k.task.isSome) && (!k.halted || k.step) && k.wait == .run && k.scrub == none && e.corePowered c

/-- Reservations of other cores on the 8-byte granules that a write of `len` bytes
at `a` touches are cleared; `who` is the writing core's, which its own ordinary
store keeps (R188). -/
def Engine.clearResv (e : Engine) (who : Option Nat) (a len : Nat) : Engine :=
  (List.range 17).foldl (fun e c =>
    match (e.coreOf c).resv with
    | some g =>
      if who ≠ some c ∧ a / 8 ≤ g / 8 ∧ g / 8 ≤ (a + len - 1) / 8 then
        e.updCore c fun k => { k with resv := none }
      else e
    | none => e) e

/-- Words written to ingots or local memory by a core, or by DMA, the host, debug
or a block (R188). -/
def Engine.memWrite (e : Engine) (who : Option Nat) (a : Nat) (ws : List Word) : Engine :=
  (e.clearResv who a (4 * ws.length)).stWs a ws

end Sys2Proof.Machine
end

