-- ==== Sys2Proof/Machine/Xlat.lean ====
section
/-!
DEFINITION. XLAT: translation windows and their active images, ownership and
retention checks at the requester's port, and the fault records (chapter "Ingots,
Translation and DMA", R301 to R325).
-/
namespace Sys2Proof.Machine

/-- The kinds of R325. -/
def kNowin : Nat := 1
def kRights : Nat := 2
def kOwn : Nat := 3
def kRetain : Nat := 4
def kHosterr : Nat := 5
def kHosttmo : Nat := 6
def kLinkdown : Nat := 7
def kArmed : Nat := 8
def kDesc : Nat := 9

/-- Who makes an access: an Anvil core, the control core, a DMA channel, a VF's page
or a two-wire address. -/
inductive Req where
  | core (c : Nat) | cc | dma (k : Nat) | vf (t : Nat) | twb (t : Nat)
  deriving DecidableEq, Repr

/-- The AGENT code of R325. -/
def Req.agent : Req → Nat
  | .core c => c | .cc => 0x10 | .dma k => 0x20 + k | .vf _ => 0x42 | .twb _ => 0x43

/-- The tenant an access is made for; the control core's faults are recorded under
tenant 0 (R325, R332). -/
def Engine.reqTenant (e : Engine) : Req → Nat
  | .core c => e.coreTenant c | .cc => 0 | .dma k => k / 2 | .vf t => t | .twb t => t

/-- An access fault: the tenant's record is filled, or MORE counts, and ACCESS_FAULT
goes to the tenant and to the ring (R325). The address is recorded as zero for NOWIN
and RIGHTS. -/
def Engine.accessFault (e : Engine) (t va pa kind : Nat) (write : Bool) (agent hm : Nat) :
    Engine :=
  let pa := if kind = kNowin ∨ kind = kRights then 0 else pa
  let wr := if write then 1 else 0
  let e :=
    if e.on (XLAT_FAULT_INFO_VALID t) then e.count (XLAT_FAULT_INFO_MORE t)
    else
      let e := e.wr (XLAT_FAULT_VA t) (BitVec.ofNat 32 va)
      let e := e.wr (XLAT_FAULT_PA_LO t) (BitVec.ofNat 32 pa)
      let e := e.wr (XLAT_FAULT_PA_HI t) (BitVec.ofNat 32 (pa / 2 ^ 32))
      let e := e.wr (XLAT_FAULT_INFO t)
        (BitVec.ofNat 32 (kind + 16 * wr + 2 ^ 8 * agent + 2 ^ 16 * hm + 2 ^ 31))
      let e := e.wr (XLAT_FAULT_ESC_LO t) (BitVec.ofNat 32 e.tick.esc)
      e.wr (XLAT_FAULT_ESC_HI t) (BitVec.ofNat 32 (e.tick.esc / 2 ^ 32))
  e.raiseT t { block := 0x07, code := 0x01, sev := .fault, hm := hm, w2 := va,
               w3 := kind + 16 * wr + 2 ^ 8 * agent }

/-- FAULT_RECORD_CLEAR: writing 1 to VALID clears the record and MORE (R325). -/
def Engine.faultClear (e : Engine) (t : Nat) : Engine :=
  [XLAT_FAULT_VA t, XLAT_FAULT_PA_LO t, XLAT_FAULT_PA_HI t, XLAT_FAULT_INFO t,
   XLAT_FAULT_ESC_LO t, XLAT_FAULT_ESC_HI t].foldl (fun e a => e.wr a 0#32) e

/-- FAULT_RECORD_CLEAR. -/
def execFaultRecordClear (t : Nat) (v : Word) (s : State) : Out :=
  s.eff fun e => if bitOf v 31 then e.faultClear t else e

/-- A window of `t` is quarantined when one of its pairs is (R301, R673). -/
def Engine.winQuar (e : Engine) (t w : Nat) : Bool :=
  [XLAT_WIN_BASE t w, XLAT_WIN_LIMIT t w, XLAT_WIN_OFF_LO t w, XLAT_WIN_OFF_HI t w,
   XLAT_WIN_CTRL t w].any fun a => e.assay.quar.contains a

/-- The lowest-numbered enabled window of tenant `t` that contains `va` (R317, R318). -/
def Engine.window (e : Engine) (t va : Nat) : Option WinImg :=
  ((List.range 32).find? fun w =>
    let i := Tbl.get {} e.xlat.act (32 * t + w)
    i.en && !e.winQuar t w && decide (i.base * 4096 ≤ va ∧ va < (i.limit + 1) * 4096)).map
    fun w => Tbl.get {} e.xlat.act (32 * t + w)

/-- The physical or host address of `va` in window `i` (R317). -/
def WinImg.target (i : WinImg) (va : Nat) : Nat := i.off * 4096 + (va - i.base * 4096)

/-- The outcome of a translation. -/
inductive Xl where
  | ok (pa : Nat) (img : WinImg)
  | fault (kind : Nat)
  deriving DecidableEq, Repr

/-- A translation for a read or a write (R318). -/
def Engine.xlate (e : Engine) (t va : Nat) (write : Bool) : Xl :=
  match e.window t va with
  | none => .fault kNowin
  | some i => if (if write then i.w else i.r) then .ok (i.target va) i else .fault kRights

/-- The requesters the owner code admits (R302). A page access of the tenant is admitted as
its DMA channels are: the page reaches its ingots (R577). -/
def Engine.admits (e : Engine) (owner : Nat) (r : Req) : Bool :=
  if 0x10 ≤ owner ∧ owner < 0x20 then
    match r with
    | .core c => owner == 0x10 + c
    | .dma k => k / 2 == e.coreTenant (owner - 0x10)
    | .vf t | .twb t => t == e.coreTenant (owner - 0x10)
    | _ => false
  else if owner = 0x20 then r == .cc
  else if 0x30 ≤ owner ∧ owner < 0x40 then
    match r with
    | .core c => e.coreTenant c == owner - 0x30
    | .dma k => k / 2 == owner - 0x30
    | .vf t | .twb t => t == owner - 0x30
    | _ => false
  else false

/-- The owner codes of R302. -/
def ownerCode (o : Nat) : Bool :=
  o == 0 || (0x10 ≤ o && o ≤ 0x20) || (0x30 ≤ o && o < 0x40) || (0x40 ≤ o && o ≤ 0x46)

/-- The state of retention group `g` (R313): 0 ACTIVE, 1 ENTERING, 2 RETAINED, 3 WAKING. -/
def retState (g : Nat) : Fld := ⟨INGOT_RET_STATE, 2 * g, 2⟩

/-- What an ingot answers a request: granted, made to wait, or a fault. -/
inductive Grant where
  | go | wait | fault (kind : Nat)
  deriving DecidableEq, Repr

/-- The retention side of a request to a group: a STALL request cancels an entry, or
wakes a retained group and waits; a FAULT request faults RETAIN (R314, R315). -/
def Engine.retReq (e : Engine) (g : Nat) : Grant × Engine :=
  let st := e.get (retState g)
  if st = 0 then (.go, e)
  else if e.on (INGOT_RET_POLICY g) then (.fault kRetain, e)
  else if st = 1 then (.go, (e.put (retState g) 0).put (INGOT_RET_RETAIN g) 0)
  else if st = 2 then
    let e := (e.put (retState g) 3).put (INGOT_RET_RETAIN g) 0
    (.wait, e.updIngot fun i => { i with wokenByAccess := Tbl.set false i.wokenByAccess g true })
  else (.wait, e)

/-- A request to ingot `n` checked at the requester's port (R303, R308, R309, R314). -/
def Engine.ingotReq (e : Engine) (n : Nat) (r : Req) : Grant × Engine :=
  if e.admits (e.ingotOwner n) r then
    match e.retReq (n / 8) with
    | (.go, e) => if e.get (INGOT_STATE_STATE n) = 1 then (.go, e) else (.wait, e)
    | (g, e) => (g, e)
  else (.fault kOwn, e)

/-- A fixed-function block's access to the ingot that holds `a`, by its own owner
code: admitted, and not retained or being handed over (R302, R303). -/
def Engine.blockAccess (e : Engine) (code a : Nat) : Bool :=
  match ingotOf a with
  | some n => e.ingotOwner n == code && e.get (INGOT_STATE_STATE n) == 1 && e.get (retState (n / 8)) == 0
  | none => false

/-- An XLAT event (R343). -/
def xlatEvt (code : Nat) (hm w2 w3 : Nat) : Evt :=
  { block := 0x07, code := code, sev := .warn, hm := hm, w2 := w2, w3 := w3 }

/-- The range [lo, hi) of an ENGINE window lies in one region a window of tenant `t`
may target (R320). -/
def winTarget (t lo hi : Nat) : Bool :=
  let inside (a b : Nat) : Bool := decide (a ≤ lo ∧ hi ≤ b)
  inside 0x80000000 0x82800000
    || (List.range 16).any (fun c =>
        inside (0x60000000 + c * 0x100000) (0x60040000 + c * 0x100000)
          || inside (0x60040000 + c * 0x100000) (0x60050000 + c * 0x100000))
    || inside 0x50000000 0x50010000 || inside 0x50100000 0x50200000
    || inside 0x50200000 0x50300000 || inside 0x50300000 0x50400000
    || inside 0x50400000 0x50500000 || inside 0x50500000 0x50540000
    || inside (0x40080000 + t * 0x1000) (0x40081000 + t * 0x1000)

/-- Why a CTRL pair with EN = 1 is refused: 1 RANGE, 2 TARGET, 3 FIELD (R320, R343). -/
def Engine.winRefusal (e : Engine) (t w : Nat) (v : Word) : Option Nat :=
  let base := e.cp (XLAT_WIN_BASE_BASE t w)
  let limit := e.cp (XLAT_WIN_LIMIT_LIMIT t w)
  let off := e.cp (XLAT_WIN_OFF_LO_OFF t w)
  let ty := bitsOf v 4 2
  if limit < base then some 1
  else if 2 ≤ ty ∨ (ty = 0 ∧ e.cp (XLAT_WIN_OFF_HI_OFF t w) ≠ 0) then some 3
  else if ty = 0 ∧ winTarget t (off * 4096) ((off + (limit - base) + 1) * 4096) = false then some 2
  else none

/-- The XLAT_WIN_CTRL pair of window `w` takes effect: EN = 0 disables the window;
EN = 1 loads its active image from the staged pairs, or is refused (R319, R320). -/
def Engine.winCommit (e : Engine) (by_ : Sender) (t w : Nat) (v : Word) : Engine :=
  let v := v &&& 0x13F#32
  if bitOf v 0 = false then
    let e := e.wrCp (XLAT_WIN_CTRL t w) v
    e.updXlat fun x => { x with act := Tbl.set {} x.act (32 * t + w) {} }
  else match e.winRefusal t w v with
    | some r => e.raise (xlatEvt 0x02 by_.hm (w + 2 ^ 8 * t) r)
    | none =>
      let i : WinImg :=
        { en := true, r := bitOf v 1, w := bitOf v 2, x := bitOf v 3, host := bitOf v 4,
          nosnoop := bitOf v 8, base := e.cp (XLAT_WIN_BASE_BASE t w),
          limit := e.cp (XLAT_WIN_LIMIT_LIMIT t w),
          off := e.cp (XLAT_WIN_OFF_HI_OFF t w) * 2 ^ 20 + e.cp (XLAT_WIN_OFF_LO_OFF t w) }
      let e := e.wrCp (XLAT_WIN_CTRL t w) v
      e.updXlat fun x => { x with act := Tbl.set {} x.act (32 * t + w) i }

/-- A write of a window pair by anyone but the control core is ignored with reason
PRIV (R341). -/
def Engine.winPriv (e : Engine) (by_ : Sender) (t w : Nat) : Engine :=
  e.raise (xlatEvt 0x02 by_.hm (w + 2 ^ 8 * t) 4)

/-- WINDOW_COMMIT. -/
def execWindowCommit (by_ : Sender) (t w : Nat) (v : Word) (s : State) : Out :=
  s.eff fun e => e.rowWrite by_ [(XLAT_WIN_CTRL t w, v)] fun e =>
    if by_.isCC then e.winCommit by_ t w v else e.winPriv by_ t w

/-! ### Host writes -/

/-- Discarded host writes of tenant `t`: the first of an episode is recorded as a
LINKDOWN fault and raises HOST_DROP; the rest are counted (R324). -/
def Engine.hostDrop (e : Engine) (ws : List HostWr) (t : Nat) : Engine :=
  match ws.filter fun w => w.tenant == t with
  | [] => e
  | w :: rest =>
    let had := Tbl.get 0 e.xlat.dropped t
    let n := had + rest.length + 1
    let e := e.updXlat fun x => { x with dropped := Tbl.set 0 x.dropped t n }
    if had = 0 then
      (e.accessFault t w.va w.addr kLinkdown true w.agent w.hm).raiseT t (xlatEvt 0x03 w.hm t n)
    else e

/-- Tenant `t` reaches the host: the link is up and its VF is not in a function-level reset
(R324, R582). -/
def Engine.hostUp (e : Engine) (t : Nat) : Bool :=
  e.on PCIE_STATUS_LINK_UP && !(e.get PCIE_FLR_PEND_VF).testBit t

/-- Tenant `t` may read from the host: its VF is also enabled, and so may master the bus
(R323, R581). -/
def Engine.hostReads (e : Engine) (t : Nat) : Bool := e.hostUp t && (e.get PCIE_STATUS_VF_EN).testBit t

/-- A host write accepted by the PCIE block (R236, R322); while the link is down it is
discarded (R324). -/
def Engine.hostWrite (e : Engine) (w : HostWr) : Engine :=
  if e.hostUp w.tenant then e.hostQueue w else e.hostDrop [w] w.tenant

/-- The link is lost for tenant `t`: its host writes not yet transmitted are discarded (R324,
R582). -/
def Engine.hostLost (e : Engine) (t : Nat) : Engine :=
  let ws := e.xlat.posted
  (e.updXlat fun x => { x with posted := x.posted.filter fun w => w.tenant != t }).hostDrop ws t

/-- The PCIE block transmits the oldest host write while the link is up. -/
def Engine.hostTransmit (e : Engine) : Engine :=
  if e.on PCIE_STATUS_LINK_UP then e.updXlat fun x => { x with posted := x.posted.drop 1 } else e

end Sys2Proof.Machine
end

