-- ==== Sys2Proof/Machine/HostReg.lean ====
section
/-!
DEFINITION. PCIE, QSPI and TWB registers: MSI-X vectors, the push boot's registers, flash
commands and the two-wire address entries (chapter "Host Link, Boot and Two-Wire Target",
R578, R590, R591, R593, R603 to R605).
-/
namespace Sys2Proof.Machine

/-- A PCIE, QSPI or TWB event (R606). -/
def pcieEvt (code : Nat) (sev : Sev) (hm w2 w3 : Nat) : Evt :=
  { block := 0x17, code := code, sev := sev, hm := hm, w2 := w2, w3 := w3 }
def qspiEvt (code : Nat) (sev : Sev) (hm w2 : Nat) : Evt :=
  { block := 0x19, code := code, sev := sev, hm := hm, w2 := w2 }
def twbEvt (code : Nat) (sev : Sev) (hm w2 w3 : Nat) : Evt :=
  { block := 0x18, code := code, sev := sev, hm := hm, w2 := w2, w3 := w3 }

/-! ### MSI-X (R578) -/

/-- Function `f` answers configuration and memory requests: 16 is the PF (R574). -/
def Engine.funcUp (e : Engine) (f : Nat) : Bool :=
  e.on PCIE_STATUS_LINK_UP && (f == 16 || (f < 16 && (e.get PCIE_STATUS_VF_EN).testBit f))

/-- A pending vector is sent if it can be now. -/
def Engine.msixTry (e : Engine) (f v : Nat) : Engine :=
  let p := Tbl.get 0 e.pcie.pba f
  if p.testBit v then (e.updPcie fun x => { x with pba := Tbl.set 0 x.pba f (p - 2 ^ v) }).msix f v else e

/-- A write of word `k` of vector `v` in the table of function `f`: the mask bit is the only
bit of word 3, and unmasking sends a pending vector. -/
def Engine.msixWrite (e : Engine) (f v k : Nat) (w : Word) : Engine :=
  let w := if k = 3 then w &&& 1#32 else w
  let e := e.updPcie fun x => { x with
    msix := Tbl.setF (fun a => if a % 4 = 3 then 1#32 else 0#32) x.msix (128 * f + 4 * v + k) w }
  e.msixTry f v

/-- MSIX_UNMASK: the host unmasks vector `v` of function `f`, or enables its MSI-X. -/
def execMsixUnmask (f : Nat) (v : Option Nat) (s : State) : Out :=
  s.eff fun e =>
    if e.funcUp f = false then e
    else match v with
      | some v => e.msixWrite f (v % (if f = 16 then 32 else 8)) 3 0#32
      | none =>
        let e := e.updPcie fun x => { x with msixEn := if x.msixEn.contains f then x.msixEn else x.msixEn ++ [f] }
        (List.range 32).foldl (fun e v => e.msixTry f v) e

/-- A write of PCIE_PF_MSI_TRIG or of PCIE_VF_TRIG of VF `t`. -/
def Engine.pfTrigger (e : Engine) (v : Word) : Engine :=
  (List.range 32).foldl (fun e k => if bitOf v k then e.msix 16 k else e) e
def Engine.vfTrigger (e : Engine) (t : Nat) (v : Word) : Engine :=
  [4, 5, 6, 7].foldl (fun e k => if bitOf v k then e.vfVector t k else e) e

/-! ### PCIE registers -/

/-- CFG_REFUSED of PCIE. -/
def Engine.pcieRefuse (e : Engine) (by_ : Sender) (off : Nat) : Engine :=
  e.raise (pcieEvt 0x04 .warn by_.hm off 0)

/-- GO of a push boot: in WAIT, or in a FAILED that serves PCIe push (R588, R591). -/
def Engine.bootGo (e : Engine) : Engine :=
  let st := e.get PCIE_BOOT_STATUS_STATE
  if e.pcie.boot.rom && (st == 1 || (st == 4 && e.pcie.boot.serve)) then
    (e.put PCIE_BOOT_STATUS_STATE 2).put PCIE_BOOT_STATUS_SRC 2
  else e

/-- A write of a PCIE register (R603): the control core's, but for VF apertures, which are
their tenants' too, and the push boot's registers, which are the PF's while the boot ROM
runs; the PF's MSI-X table is written by the host. -/
def Engine.pcieRegWrite (e : Engine) (by_ : Sender) (off : Nat) (v : Word) : Engine :=
  let a := 0x40170000 + off
  if 0x080 ≤ off ∧ off < 0x0C0 then
    if by_.isCC || by_.isTenant ((off - 0x080) / 4) then e.wr a (v &&& 0xFFFFC000#32) else e.pcieRefuse by_ off
  else if 0x100 ≤ off ∧ off < 0x10C then
    if by_.isCC || (by_.isPF && e.pcie.boot.rom) then
      if off = 0x108 then (if bitOf v 0 then e.bootGo else e) else e.wr a v
    else e.pcieRefuse by_ off
  else if 0x8000 ≤ off ∧ off < 0x8200 then
    if by_.isCC || by_.isPF then e.msixWrite 16 ((off - 0x8000) / 16) ((off - 0x8000) / 4 % 4) v else e.pcieRefuse by_ off
  else if by_.isCC = false then e.pcieRefuse by_ off
  else if off = 0x004 then e.wr a (e.rd a &&& ~~~ v)
  else if off = 0x008 then e.wr a v
  else if off = 0x010 then e.pfTrigger v
  else if 0x040 ≤ off ∧ off < 0x080 then e.vfTrigger ((off - 0x040) / 4) v
  else e

/-- PF_MSI_TRIGGER and VF_MSI_TRIGGER. -/
def execPfMsiTrigger (by_ : Sender) (v : Word) (s : State) : Out := s.eff fun e => e.pcieRegWrite by_ 0x010 v
def execVfMsiTrigger (by_ : Sender) (t : Nat) (v : Word) (s : State) : Out :=
  s.eff fun e => e.pcieRegWrite by_ (0x040 + 4 * (t % 16)) v

/-- BOOT_PUSH_GO. -/
def execBootPushGo (by_ : Sender) (s : State) : Out := s.eff fun e => e.pcieRegWrite by_ 0x108 1#32

/-- What a read of the MSI-X table or pending bits of function `f` answers. -/
def Engine.msixRead (e : Engine) (f off : Nat) : Word := e.msixWord f (off / 16) (off / 4 % 4)
def Engine.pbaRead (e : Engine) (f : Nat) : Word := BitVec.ofNat 32 (Tbl.get 0 e.pcie.pba f)

/-! ### QSPI -/

/-- CFG_REFUSED of QSPI. -/
def Engine.qspiRefuse (e : Engine) (by_ : Sender) (off : Nat) : Engine :=
  e.raise (qspiEvt 0x02 .warn by_.hm off)

/-- A write of QSPI_CMD: GO starts a command while the interface is enabled; while one runs it
is refused (R590). -/
def Engine.qspiCmd (e : Engine) (by_ : Sender) (v : Word) : Engine :=
  let go := bitOf v 31
  if bitsOf v 8 2 = 3 ∨ bitsOf v 10 2 = 3 ∨ 256 < bitsOf v 16 9 ∨ (go ∧ e.on QSPI_STATUS_BUSY) then e.qspiRefuse by_ 0x008
  else
    let e := e.wr QSPI_CMD (v &&& 0x11FFFFFF#32)
    if go && e.on QSPI_CTRL_EN then e.put QSPI_STATUS_BUSY 1 else e

/-- A write of a QSPI register (R604). -/
def Engine.qspiRegWrite (e : Engine) (by_ : Sender) (off : Nat) (v : Word) : Engine :=
  let a := 0x40190000 + off
  if by_.isCC = false then e.qspiRefuse by_ off
  else if off = 0x000 then e.wr a (v &&& 1#32)
  else if off = 0x004 then
    if 25 ≤ bitsOf v 0 8 ∧ bitsOf v 0 8 ≤ 250 then e.wr a (v &&& 0xFF#32) else e.qspiRefuse by_ off
  else if off = 0x008 then e.qspiCmd by_ v
  else if off = 0x00C ∨ (0x100 ≤ off ∧ off < 0x200) then e.wr a v
  else if off = 0x010 then (if bitOf v 1 then e.put QSPI_STATUS_DONE 0 else e)
  else if off = 0x014 then e.wr a (e.rd a &&& ~~~ v)
  else e

/-- QSPI_COMMAND. -/
def execQspiCommand (by_ : Sender) (v : Word) (s : State) : Out :=
  s.eff fun e => e.qspiRegWrite by_ 0x008 (v ||| 0x80000000#32)

/-- The first `n` bytes read enter QSPI_DATA, byte 0 first; the others keep their values. -/
def Engine.qspiFill (e : Engine) (data : List Byte) (n : Nat) : Engine :=
  ((data.take n).zipIdx).foldl (fun e p => e.put ⟨QSPI_DATA (p.2 / 4), 8 * (p.2 % 4), 8⟩ p.1.toNat) e

/-- CMD_DONE: the command ends, with the bytes the flash sent (R590). -/
def execCmdDone (data : List Byte) (s : State) : Out :=
  s.eff fun e =>
    if e.on QSPI_STATUS_BUSY = false then e
    else
      let e := if e.on QSPI_CMD_WRITE then e else e.qspiFill data (e.get QSPI_CMD_LEN)
      ((e.put QSPI_STATUS_BUSY 0).put QSPI_STATUS_DONE 1).raise (qspiEvt 0x01 .note 0xFF (e.get QSPI_CMD_OPCODE))

/-! ### Two-wire addresses (R593) -/

/-- The bits of `x` at the places where `m` is 0, packed from the least significant upward. -/
def packIndex (x m : Nat) : Nat → Nat
  | 0 => 0
  | n + 1 => if m % 2 = 0 then x % 2 + 2 * packIndex (x / 2) (m / 2) n else packIndex (x / 2) (m / 2) n

/-- The tenant the 7-bit address `a` selects through entry word `w`, compared through `m`. -/
def twbTenant (w : Word) (m a : Nat) : Option Nat :=
  let t := bitsOf w 12 4 + packIndex a m 7
  if bitOf w 8 && (a ^^^ bitsOf w 0 7) &&& m == 0 && t < 16 then some t else none

/-- The entries in use: entry 0 alone with its mask when MASKED, else all four. -/
def twbEntries (masked : Bool) (ws : List Word) : List (Word × Nat) :=
  if masked then (ws.take 1).map fun w => (w, bitsOf w 24 7) else ws.map fun w => (w, 127)

/-- The entry word and tenant address `a` matches. -/
def twbFind (masked : Bool) (ws : List Word) (a : Nat) : Option (Word × Nat) :=
  (twbEntries masked ws).findSome? fun p => (twbTenant p.1 p.2 a).map fun t => (p.1, t)

/-- No entry matches a reserved address, and no two match one. -/
def twbLegal (masked : Bool) (ws : List Word) : Bool :=
  (List.range 128).all fun a =>
    let n := ((twbEntries masked ws).filter fun p => (twbTenant p.1 p.2 a).isSome).length
    n == 0 || (n == 1 && 8 ≤ a && a < 0x78)

def Engine.twbWords (e : Engine) : List Word := (List.range 4).map fun k => e.rd (TWB_ADDR k)

/-- CFG_REFUSED of TWB. -/
def Engine.twbRefuse (e : Engine) (by_ : Sender) (off : Nat) : Engine :=
  e.raise (twbEvt 0x05 .warn by_.hm off 0)

/-- A write of a TWB register (R593, R605). -/
def Engine.twbRegWrite (e : Engine) (by_ : Sender) (off : Nat) (v : Word) : Engine :=
  let a := 0x40180000 + off
  if by_.isCC = false then e.twbRefuse by_ off
  else if off = 0x000 then e.wr a (v &&& 3#32)
  else if off = 0x004 then
    let st := bitsOf v 8 8
    if bitsOf v 0 2 = 3 ∨ st < 10 ∨ 100 < st ∨ bitsOf v 16 8 = 0 ∨ twbLegal (bitOf v 2) e.twbWords = false then
      e.twbRefuse by_ off
    else e.wr a (v &&& 0xFFFF07#32)
  else if off = 0x008 then e.wr a (v &&& 0xFF3F3F#32)
  else if 0x010 ≤ off ∧ off < 0x020 then
    let k := (off - 0x010) / 4
    let w := v &&& (if k = 0 then 0x7F01F17F#32 else 0x0001F17F#32)
    let zeros := ((List.range 7).filter fun i => !bitOf w (24 + i)).length
    if (k = 0 ∧ 4 < zeros) ∨ twbLegal (e.on TWB_CFG_MASKED) (e.twbWords.set k w) = false then e.twbRefuse by_ off
    else e.wr a w
  else if off = 0x028 then e.wr a (e.rd a &&& ~~~ v)
  else e

end Sys2Proof.Machine
end

