-- ==== Sys2Proof/Machine/Ingot.lean ====
section
/-!
DEFINITION. INGOT: ownership handover, drain and scrub, and the retention groups
(chapter "Ingots, Translation and DMA", R302 to R316, R340).
-/
namespace Sys2Proof.Machine

/-- An INGOT event (R343). -/
def ingotEvt (code : Nat) (sev : Sev) (hm w2 w3 : Nat) : Evt :=
  { block := 0x06, code := code, sev := sev, hm := hm, w2 := w2, w3 := w3 }

/-- The requests a core has had accepted at ingot `n` and not completed (R340). -/
def CoreSt.outstanding (k : CoreSt) (n : Nat) : Nat :=
  (k.posted.filter fun p => !p.host && p.acc && ingotOf p.pa == some n).length
    + (k.dropped.filter (· == n)).length
    + (match k.wait with
       | .load items _ => (items.filter fun i => !i.host && i.acc && ingotOf i.pa == some n).length
       | _ => 0)

/-- INGOT_STATE[n].OUTSTANDING: accepted requests not complete, 0 to 256 (R340). -/
def Engine.outstanding (e : Engine) (n : Nat) : Nat :=
  min 256 ((List.range 17).foldl (fun a c => a + (e.coreOf c).outstanding n) 0)

/-- Every reservation in ingot `n` is cleared (R188, R308). -/
def Engine.clearIngotResv (e : Engine) (n : Nat) : Engine :=
  (List.range 17).foldl (fun e c =>
    match (e.coreOf c).resv with
    | some g => if ingotOf g = some n then e.updCore c fun k => { k with resv := none } else e
    | none => e) e

/-- Scrubbing of ingot `n` starts (R307, R309). -/
def Engine.scrubStart (e : Engine) (n : Nat) : Engine := e.put (INGOT_STATE_STATE n) 3

/-- A handover in group `g` wakes it, as the bound of R316 needs: an entry is taken back and a
retained group starts its wake, and RETAIN is cleared (DEDUCED, log entry 15). -/
def Engine.retWakeFor (e : Engine) (g : Nat) : Engine :=
  match e.get (retState g) with
  | 1 => (e.put (retState g) 0).put (INGOT_RET_RETAIN g) 0
  | 2 => (e.put (retState g) 3).put (INGOT_RET_RETAIN g) 0
  | _ => e

/-- The INGOT_OWN pair of ingot `n` takes effect (R306, R309, R310, R522). -/
def Engine.handover (e : Engine) (by_ : Sender) (n : Nat) (v : Word) : Engine :=
  let v := v &&& 0x1FFFF#32
  let owner := bitsOf v 0 8
  let st := e.get (INGOT_STATE_STATE n)
  let old := e.ingotOwner n
  if by_.isCC = false then e.raise (ingotEvt 0x02 .warn by_.hm n 4)
  else if st = 2 ∨ st = 3 then e.raise (ingotEvt 0x02 .warn by_.hm n 1)
  else if ownerCode owner = false then e.raise (ingotEvt 0x02 .warn by_.hm n 2)
  else if e.lockstep && old == 0x20 && owner != 0x20 && !bitOf v 16 then
    e.raise (ingotEvt 0x02 .warn by_.hm n 2)
  else if bitOf v 16 ∧ e.get (retState (n / 8)) ≠ 0 then e.raise (ingotEvt 0x02 .warn by_.hm n 3)
  else
    let e := e.wrCp (INGOT_OWN n) v
    if owner = old then
      if bitOf v 16 then
        (e.updIngot fun i => { i with drainCycles := Tbl.set 0 i.drainCycles n 0 }).scrubStart n
      else e
    else
      let e := (e.put (INGOT_STATE_PREV n) old).put (INGOT_STATE_STATE n) 2
      let e := e.updIngot fun i => { i with drainAt := Tbl.set 0 i.drainAt n e.now }
      (e.clearIngotResv n).retWakeFor (n / 8)

/-- INGOT_HANDOVER. -/
def execIngotHandover (by_ : Sender) (n : Nat) (v : Word) (s : State) : Out :=
  s.eff fun e => e.rowWrite by_ [(INGOT_OWN n, v)] fun e =>
    e.handover by_ n v

/-- The ingot reaches its new owner: OWNED, or UNOWNED for owner code 0 (R307). -/
def Engine.handoverDone (e : Engine) (n : Nat) : Engine :=
  let owner := e.ingotOwner n
  let d := Tbl.get 0 e.ingot.drainCycles n
  let e := e.put (INGOT_STATE_STATE n) (if owner = 0 then 0 else 1)
  e.raise (ingotEvt 0x01 .note 0xFF n
    (owner + 2 ^ 8 * e.get (INGOT_STATE_PREV n) + 2 ^ 16 * (d % 2 ^ 16)))

/-- DRAIN_COMPLETE: nothing is outstanding and the group is awake (R306, R307, R316). -/
def Engine.drainComplete (e : Engine) (n : Nat) : Engine :=
  if e.get (INGOT_STATE_STATE n) = 2 ∧ e.outstanding n = 0 ∧ e.get (retState (n / 8)) = 0 then
    let d := e.now - Tbl.get 0 e.ingot.drainAt n
    let e := e.updIngot fun i => { i with
      drainCycles := Tbl.set 0 i.drainCycles n d, drainAt := Tbl.set 0 i.drainAt n 0 }
    if e.cpOn (INGOT_OWN_SCRUB n) then e.scrubStart n else e.handoverDone n
  else e

def execDrainComplete (n : Nat) (s : State) : Out := s.eff fun e => e.drainComplete n

/-- INGOT_SCRUB_DONE: all 512 KiB are zero and the ingot is its owner's, for a
handover and for a scrub by the same owner alike (R307, R309). -/
def Engine.scrubDone (e : Engine) (n : Nat) : Engine :=
  if e.get (INGOT_STATE_STATE n) = 3 then
    (e.clearBytes (0x80000000 + n * 0x80000) 0x80000).handoverDone n
  else e

def execIngotScrubDone (n : Nat) (s : State) : Out := s.eff fun e => e.scrubDone n

/-- A write of INGOT_RET[g]: RETAIN set moves an ACTIVE group to ENTERING, and cleared
it wakes a RETAINED group (R313); only the control core writes it (R305). -/
def Engine.retWrite (e : Engine) (by_ : Sender) (g : Nat) (v : Word) : Engine :=
  if by_.isCC = false then e.raise (ingotEvt 0x02 .warn by_.hm g 4)
  else
    let e := (e.put (INGOT_RET_RETAIN g) (bitsOf v 0 1)).put (INGOT_RET_POLICY g) (bitsOf v 1 1)
    let st := e.get (retState g)
    if bitOf v 0 then (if st = 0 then e.put (retState g) 1 else e)
    else if st = 2 then e.put (retState g) 3
    else e

/-- RETENTION_REQUEST. -/
def execRetentionRequest (by_ : Sender) (g : Nat) (v : Word) (s : State) : Out :=
  s.eff fun e => e.rowWrite by_ [(INGOT_RET g, v)] fun e =>
    e.retWrite by_ g v

/-- RET_ENTERED: no access to the group is outstanding (R313). A group whose RETAIN
was cleared meanwhile wakes at once. -/
def Engine.retEntered (e : Engine) (g : Nat) : Engine :=
  if e.get (retState g) = 1 ∧ (List.range 8).all (fun i => e.outstanding (8 * g + i) == 0) then
    (e.put (retState g) (if e.on (INGOT_RET_RETAIN g) then 2 else 3)).raise
      (ingotEvt 0x03 .note 0xFF g 0)
  else e

def execRetEntered (g : Nat) (s : State) : Out := s.eff fun e => e.retEntered g

/-- RET_WOKEN: the wake of a group ends; a RETAIN set meanwhile starts the next entry
(R313, R314). -/
def Engine.retWoken (e : Engine) (g : Nat) : Engine :=
  if e.get (retState g) = 3 then
    let by_ := Tbl.get false e.ingot.wokenByAccess g
    let e := e.put (retState g) (if e.on (INGOT_RET_RETAIN g) then 1 else 0)
    let e := e.updIngot fun i => { i with wokenByAccess := Tbl.set false i.wokenByAccess g false }
    e.raise (ingotEvt 0x04 .note 0xFF g by_.toNat)
  else e

def execRetWoken (g : Nat) (s : State) : Out := s.eff fun e => e.retWoken g

end Sys2Proof.Machine
end

