-- ==== Sys2Proof/Machine/Dma.lean ====
section
/-!
DEFINITION. DMA: the channels' registers and commands (chapter "Ingots, Translation
and DMA", R332 to R335, R342). Descriptor fetch, bursts and completion, which reach
every block, are in Machine/DmaMove.lean.
-/
namespace Sys2Proof.Machine

/-- A DMA event of channel `k`, which concerns the channel's tenant (R343). -/
def Engine.dmaEvt (e : Engine) (code : Nat) (sev : Sev) (k hm w2 w3 : Nat) : Engine :=
  e.raiseT (k / 2) { block := 0x08, code := code, sev := sev, hm := hm, w2 := w2, w3 := w3 }

/-- The channel states of R334. -/
def dIdle : Nat := 0
def dFetch : Nat := 1
def dMove : Nat := 2
def dWait : Nat := 3
def dHalted : Nat := 4

/-- Channel `k`'s hidden state. -/
def Engine.dmaCh (e : Engine) (k : Nat) : DmaCh := Tbl.get {} e.dma k

def Engine.setDmaCh (e : Engine) (k : Nat) (x : DmaCh) : Engine :=
  { e with dma := Tbl.set {} e.dma k x }

def Engine.updDmaCh (e : Engine) (k : Nat) (f : DmaCh → DmaCh) : Engine :=
  e.setDmaCh k (f (e.dmaCh k))

def Engine.dmaState (e : Engine) (k : Nat) : Nat := e.get (DMA_CH_STATUS_STATE (k / 2) (k % 2))

/-- The channel's state, which DMA_ACTIVE follows (R342). -/
def Engine.setDmaState (e : Engine) (k st : Nat) : Engine :=
  let e := e.put (DMA_CH_STATUS_STATE (k / 2) (k % 2)) st
  e.put ⟨DMA_ACTIVE, k, 1⟩ (if st = dIdle then 0 else 1)

/-- The channel's hallmark: its tenant, with the origin and privilege of the writer
of START or RESUME (R333). -/
def dmaHm (k : Nat) (by_ : Sender) : Nat := k / 2 % 16 + by_.hm / 16 % 16 * 16

/-- The sender a channel's requests carry. -/
def Engine.dmaSender (e : Engine) (k : Nat) : Sender := { hm := (e.dmaCh k).hm, dma := true, agent := 0x20 + k }

/-- CC, and any hallmark whose tenant is the channel's, reach its registers (R332). -/
def dmaAdmits (k : Nat) (by_ : Sender) : Bool := by_.isCC || hmTenant by_.hm == k / 2

/-- A write refused (R332, R334): reason 1 NOT_OWNED, 2 STATE. -/
def Engine.dmaRefuse (e : Engine) (k : Nat) (by_ : Sender) (reason : Nat) : Engine :=
  e.dmaEvt 0x03 .warn k by_.hm k reason

/-- No residue: the registers that show one are zero (R331, R334; DEDUCED for the two
addresses, log entry 16). -/
def Engine.dmaNoResidue (e : Engine) (k : Nat) : Engine :=
  let (t, i) := (k / 2, k % 2)
  ((e.wr (DMA_CH_SRC t i) 0#32).wr (DMA_CH_DST t i) 0#32).wr (DMA_CH_LEFT t i) 0#32

/-- START: the residue is discarded and DMA_CH_DESC is fetched; banks this channel
left incomplete stay marked (R334, R339). -/
def Engine.dmaStart (e : Engine) (k : Nat) (by_ : Sender) : Engine :=
  let st := e.dmaState k
  if st = dIdle ∨ st = dHalted then
    let (t, i) := (k / 2, k % 2)
    let e := e.wr (DMA_CH_CUR t i) (e.rd (DMA_CH_DESC t i))
    let e := (e.put (DMA_CH_STATUS_DONE t i) 0).put (DMA_CH_STATUS_KIND t i) 0
    let e := (e.dmaNoResidue k).setDmaCh k { hm := dmaHm k by_, nb := (e.dmaCh k).nb }
    e.setDmaState k dFetch
  else e.dmaRefuse k by_ 2

/-- RESUME: the channel goes on from its residue (R334); a channel halted at its fetch
fetches again, since it has no current descriptor (Corners give no other). -/
def Engine.dmaResume (e : Engine) (k : Nat) (by_ : Sender) : Engine :=
  if e.dmaState k = dHalted then
    let e := (e.updDmaCh k fun x => { x with hm := dmaHm k by_ }).put
      (DMA_CH_STATUS_KIND (k / 2) (k % 2)) 0
    e.setDmaState k (if (e.dmaCh k).desc.isEmpty then dFetch else dMove)
  else e.dmaRefuse k by_ 2

/-- ABORT: issue stops; bursts whose reads have been issued finish, and the channel is
IDLE with its residue readable (R334). -/
def Engine.dmaAbort (e : Engine) (k : Nat) : Engine :=
  if (e.dmaCh k).queue.isEmpty then
    (e.updDmaCh k fun x => { x with fetch := false, desc := [] }).setDmaState k dIdle
  else e.updDmaCh k fun x => { x with abort := true }

/-- A write of DMA_CH_CMD: of several bits set, ABORT comes first, then START, then
RESUME. -/
def Engine.dmaCmd (e : Engine) (k : Nat) (by_ : Sender) (v : Word) : Engine :=
  if dmaAdmits k by_ = false then e.dmaRefuse k by_ 1
  else if bitOf v 2 then e.dmaAbort k
  else if bitOf v 0 then e.dmaStart k by_
  else if bitOf v 1 then e.dmaResume k by_
  else e

/-- DMA_START. -/
def execDmaStart (by_ : Sender) (k : Nat) (s : State) : Out :=
  s.eff fun e => e.rowWrite by_ [(DMA_CH_CMD (k / 2) (k % 2), 1#32)] fun e =>
    e.dmaCmd k by_ 1#32

/-- DMA_RESUME. -/
def execDmaResume (by_ : Sender) (k : Nat) (s : State) : Out :=
  s.eff fun e => e.rowWrite by_ [(DMA_CH_CMD (k / 2) (k % 2), 2#32)] fun e =>
    e.dmaCmd k by_ 2#32

/-- DMA_ABORT. -/
def execDmaAbort (by_ : Sender) (k : Nat) (s : State) : Out :=
  s.eff fun e => e.rowWrite by_ [(DMA_CH_CMD (k / 2) (k % 2), 4#32)] fun e =>
    e.dmaCmd k by_ 4#32

/-- A channel's fault: the record of its tenant, the residue's kind, and DMA_HALTED
(R325, R335). -/
def Engine.dmaHalt (e : Engine) (k kind va pa : Nat) (write record : Bool) : Engine :=
  let hm := (e.dmaCh k).hm
  let e := if record then e.accessFault (k / 2) va pa kind write (0x20 + k) hm else e
  let e := (e.put (DMA_CH_STATUS_KIND (k / 2) (k % 2)) kind).setDmaState k dHalted
  e.dmaEvt 0x02 .fault k hm (k + 2 ^ 8 * kind) (e.rd (DMA_CH_DST (k / 2) (k % 2))).toNat

/-- CORE_DMA_STARVE: a DMA waiting on a core's data memory found no slot for 4,096
cycles; reported once until a slot is granted (R168). -/
def execCoreDmaStarve (c k : Nat) (s : State) : Out :=
  s.eff fun e =>
    if (e.dmaCh k).starved then e
    else (e.updDmaCh k fun x => { x with starved := true }).coreEvt c 0x02 .warn k 0

/-- INGOT_STARVE: a request waited 4,096 cycles at an ingot; reported once until a
grant (R312). -/
def execIngotStarve (k n : Nat) (s : State) : Out :=
  s.eff fun e =>
    if (e.dmaCh k).starved then e
    else (e.updDmaCh k fun x => { x with starved := true }).dmaEvt 0x04 .warn k 0xFF k n

end Sys2Proof.Machine
end

