-- ==== Sys2Proof/Machine/Sched.lean ====
section
/-!
DEFINITION. SCHED: descriptors, submission, releases, cancellation, completion,
placement, dispatch and the tick's arming and misses (chapter "Task Scheduler").
-/
namespace Sys2Proof.Machine

/-! ### Descriptors -/

/-- The address of word `i` of descriptor `d` (R265). -/
def poolAddr (d i : Nat) : Nat := 0x50500000 + 64 * d + 4 * i

/-- The status fields of R265. -/
def dState (d : Nat) : Fld := ⟨poolAddr d 12, 0, 3⟩
def dReason (d : Nat) : Fld := ⟨poolAddr d 12, 4, 3⟩
def dLate (d : Nat) : Fld := ⟨poolAddr d 12, 7, 1⟩
def dRetire (d : Nat) : Fld := ⟨poolAddr d 12, 8, 1⟩
def dGate (d : Nat) : Fld := ⟨poolAddr d 12, 9, 1⟩
def dCore (d : Nat) : Fld := ⟨poolAddr d 12, 16, 4⟩
def dStatus (d : Nat) : Fld := ⟨poolAddr d 12, 24, 8⟩
/-- Counter `i` of descriptor `d` (R265). -/
def dDep (d i : Nat) : Fld := ⟨poolAddr d (13 + i / 2), 16 * (i % 2), 12⟩

/-- The descriptor states of R265. -/
def tFree : Nat := 0
def tPending : Nat := 1
def tReady : Nat := 2
def tRunning : Nat := 3
def tPreempted : Nat := 4
def tDone : Nat := 5
def tCancelled : Nat := 6
def tFaulted : Nat := 7

/-- The reasons of R280. -/
def rComplete : Nat := 0
def rUnrun : Nat := 1
def rAborted : Nat := 2
def rFaulted : Nat := 3
def rMissed : Nat := 4

/-- Bits of word `i` of an image. -/
def imgF (img : List Word) (i lo w : Nat) : Nat := bitsOf (img.getD i 0#32) lo w

/-- The fields of the CFG word and its neighbours (R265). -/
def imgAff (m : List Word) : Nat := imgF m 2 0 16
def imgHome (m : List Word) : Nat := imgF m 2 16 4
def imgPin (m : List Word) : Bool := imgF m 2 20 1 == 1
def imgKind (m : List Word) : Nat := imgF m 2 21 2
def imgStanding (m : List Word) : Bool := imgF m 2 23 1 == 1
def imgPrio (m : List Word) : Nat := imgF m 2 24 4
def imgShed (m : List Word) : Bool := imgF m 2 28 1 == 1
def imgEssential (m : List Word) : Bool := imgF m 2 29 1 == 1
def imgGate (m : List Word) : Bool := imgF m 2 30 1 == 1
def imgDeadline (m : List Word) : Nat := imgF m 3 0 20
def imgCpol (m : List Word) : Nat := imgF m 3 20 2
def imgDepInit (m : List Word) (i : Nat) : Nat := imgF m (4 + i / 2) (16 * (i % 2)) 12
def imgOutIdx (m : List Word) : Nat := imgF m 6 0 10
def imgOutKind (m : List Word) : Nat := imgF m 6 10 2
def imgSgMask (m : List Word) : Nat := imgF m 6 16 16

/-- SCHED's own state of descriptor `d`. -/
def Engine.desc (e : Engine) (d : Nat) : DescSt := Tbl.get {} e.sched.desc d

def Engine.updDesc (e : Engine) (d : Nat) (f : DescSt → DescSt) : Engine :=
  e.updSched fun s => { s with desc := Tbl.set {} s.desc d (f (Tbl.get {} s.desc d)) }

/-- The image SCHED holds for `d`. -/
def Engine.img (e : Engine) (d : Nat) : List Word := (e.desc d).img

/-- The staged words of `d` in the pool. -/
def Engine.staged (e : Engine) (d : Nat) : List Word :=
  (List.range 12).map fun i => e.rd (poolAddr d i)

/-- Descriptors that are not FREE, in ascending index. -/
def Engine.liveDescs (e : Engine) : List Nat :=
  (e.sched.desc.map Prod.fst).filter fun d => e.get (dState d) ≠ tFree

/-- The tenant whose range contains descriptor `d` (R267). -/
def Engine.descTenant (e : Engine) (d : Nat) : Option Nat :=
  (List.range 16).find? fun t =>
    let b := e.cp (SCHED_RANGE_BASE t)
    decide (b ≤ d ∧ d < b + e.cp (SCHED_RANGE_COUNT t))

/-- The tenant a SCHED event about `d` concerns (R300). -/
def Engine.descT (e : Engine) (d : Nat) : Nat := (e.descTenant d).getD 0

/-- A SCHED event about tenant `t` (R300). -/
def Engine.schedEvt (e : Engine) (t code : Nat) (sev : Sev) (hm w2 w3 : Nat) : Engine :=
  e.raiseT t { block := 0x05, code := code, sev := sev, hm := hm, w2 := w2, w3 := w3 }

/-- The senders that may name descriptor `d` (R269). -/
def Engine.schedMay (e : Engine) (by_ : Sender) (d : Nat) : Bool :=
  by_.isCC || (match e.descTenant d with | some t => by_.isTenant t | none => false)

/-- OP_REFUSED (R300): operation 0 submit, 1 ready, 2 cancel, 3 free, 4 register write. -/
def Engine.opRefused (e : Engine) (by_ : Sender) (d op reason : Nat) : Engine :=
  let t := if reason = 2 then hmTenant by_.hm else e.descT d
  e.schedEvt t 0x02 .warn by_.hm (d % 4096 + 2 ^ 12 * op) reason

/-! ### Successors -/

/-- The entry with index `i` of a run of half-words. -/
def halfOf (w : Word) (i : Nat) : Nat := bitsOf w (16 * (i % 2)) 16

/-- Half-word `i` of the slot of descriptor `b` taken as a list block (R265). -/
def Engine.listEntry (e : Engine) (b i : Nat) : Nat :=
  if i < 24 then halfOf (e.rd (poolAddr b (i / 2))) i
  else halfOf (Tbl.get 0#32 e.sched.tail (4 * b + (i - 24) / 2)) i

/-- Blocks of the chain from list block `b`, at most `n` (R265). -/
def Engine.listBlocks (e : Engine) : Nat → Nat → List Nat
  | 0, _ => []
  | n + 1, b =>
    let link := e.listEntry b 31
    b :: (if link / 2 ^ 15 = 1 then e.listBlocks n (link % 4096) else [])

/-- The list blocks an image names. -/
def Engine.imgBlocks (e : Engine) (m : List Word) : List Nat :=
  if imgF m 9 15 1 = 1 then e.listBlocks 4096 (imgF m 9 0 12) else []

/-- The valid successor entries of an image, inline ones first (R265, R276). -/
def Engine.succs (e : Engine) (m : List Word) : List Nat :=
  ((List.range 4).map (fun i => halfOf (m.getD (7 + i / 2) 0#32) i)
    ++ (e.imgBlocks m).flatMap fun b => (List.range 31).map fun i => e.listEntry b i).filter
    fun s => decide (s / 2 ^ 15 % 2 = 1)

/-! ### Time -/

/-- The block in COMPUTE; the block at which the ESC holds while the tick is stopped
(R271, Corners "Tick stopped with work in flight"). -/
def Engine.computeBlock (e : Engine) : Nat := if e.stopped then e.block else e.block - 1

/-- CORE cycles since the start of the current tick (TCYCLE, R153). -/
def Engine.tcycle (e : Engine) : Nat := 2 * (e.now - e.tick.startCyc)

/-- The COMPUTE budget of the TICK_CFG in force (R22, R270). -/
def Engine.budget (e : Engine) : Nat := e.nSamp * (2 * e.cycPerSample) - 2048

/-- A DEADLINE above the budget is used as the budget (note to R289). -/
def Engine.deadline (e : Engine) (m : List Word) : Nat := min (imgDeadline m) e.budget

/-- Absolute deadlines in CORE cycles, counted from ESC 0 (R288). -/
def Engine.absDeadline (e : Engine) (d : Nat) : Nat :=
  (e.desc d).bound * (2 * e.cycPerSample) + e.deadline (e.img d)

/-- `d` ends after its absolute deadline now (R288). -/
def Engine.isLate (e : Engine) (d : Nat) : Bool :=
  !e.stopped &&
    decide (e.absDeadline d < e.computeBlock * e.nSamp * (2 * e.cycPerSample) + e.tcycle)

/-! ### Readiness, placement and order -/

/-- A core is eligible for `d` (R290). -/
def Engine.eligible (e : Engine) (c d : Nat) : Bool :=
  let m := e.img d
  (if imgPin m then c == imgHome m else (imgAff m).testBit c)
    && e.descTenant d == some (e.coreTenant c) && e.on (CORE_CTRL_EN c)
    && (e.coreOf c).scrub == none && !bitOf (e.rd CLK_GATE) c && !(e.coreOf c).halted && e.corePowered c
    && !e.pwr.rise.testBit c

/-- READY tasks placed on core `c` (R295). -/
def Engine.placedOn (e : Engine) (c : Nat) : List Nat :=
  e.liveDescs.filter fun d => e.get (dState d) == tReady && (e.desc d).placed == some c

/-- The eligible core with the fewest READY tasks placed on it, ties to the lowest
number; HOME for a pinned task and in lockstep (R295). -/
def Engine.placeFor (e : Engine) (d : Nat) : Option Nat :=
  let m := e.img d
  if imgKind m ≠ 0 then none
  else if imgPin m || e.lockstep then some (imgHome m)
  else (List.range 16).foldl (fun best c =>
    if e.eligible c d then
      match best with
      | none => some c
      | some b => if (e.placedOn c).length < (e.placedOn b).length then some c else best
    else best) none

/-- Core task `d` placed (R295). -/
def Engine.place (e : Engine) (d : Nat) : Engine :=
  let p := e.placeFor d
  e.updDesc d fun x => { x with placed := p }

/-- The completion queue of tenant `t` is full (R283). -/
def Engine.cqFull (e : Engine) (t : Nat) : Bool := decide (256 ≤ (Tbl.get [] e.sched.cq t).length)

/-- R274 and R283 hold for `d`. -/
def Engine.readyNow (e : Engine) (d : Nat) : Bool :=
  (List.range 4).all (fun i => e.get (dDep d i) == 0)
    && (!imgGate (e.img d) || e.on (dGate d)) && !e.cqFull (e.descT d)

/-- `d` becomes READY and is placed, when it may (R274, R295). -/
def Engine.tryReady (e : Engine) (d : Nat) : Engine :=
  if e.get (dState d) = tPending ∧ e.readyNow d = true then (e.put (dState d) tReady).place d else e

/-- The next FABRIC cycle: PENDING tasks whose counters are zero become READY (R274),
and READY tasks whose core stopped being eligible are placed again (Corners "Core
leaves the tenant"). -/
def Engine.schedCycle (e : Engine) : Engine :=
  e.liveDescs.foldl (fun e d =>
    let e := e.tryReady d
    if e.get (dState d) = tReady ∧ imgKind (e.img d) = 0 ∧ e.lockstep = false
        ∧ imgPin (e.img d) = false then
      match (e.desc d).placed with
      | some c => if e.eligible c d then e else e.place d
      | none => e.place d
    else e) e

/-- `a` comes before `b`: priority, then absolute deadline while the tick runs, then
index (R288, R291). -/
def Engine.taskBefore (e : Engine) (a b : Nat) : Bool :=
  let (pa, pb) := (imgPrio (e.img a), imgPrio (e.img b))
  let (da, db) := (e.absDeadline a, e.absDeadline b)
  if pa ≠ pb then decide (pa < pb)
  else if e.stopped = false ∧ da ≠ db then decide (da < db)
  else decide (a < b)

/-- The first of a list of tasks (R291). -/
def Engine.firstTask (e : Engine) (l : List Nat) : Option Nat :=
  l.foldl (fun best d =>
    match best with
    | none => some d
    | some b => if e.taskBefore d b then some d else best) none

/-- The degrade level keeps `m` from being armed for block `b` (R285). -/
def Engine.shedArm (e : Engine) (m : List Word) (b : Nat) : Bool :=
  let lvl := e.get SCHED_SHED_LEVEL
  let hit := imgShed m && decide (e.get SCHED_SHED_PRIO ≤ imgPrio m)
  if lvl = 1 then hit && imgOutKind m == 0 && b % 4 != 0
  else if lvl = 2 then hit
  else if lvl = 3 then !imgEssential m
  else false

/-- A READY one-shot task is held back by the D2 or D3 condition (R285). -/
def Engine.shedHold (e : Engine) (m : List Word) : Bool :=
  !imgStanding m && decide (2 ≤ e.get SCHED_SHED_LEVEL) && e.shedArm m 0

/-! ### Ends -/

/-- A completion record for the end of `d` (R281, R283). -/
def Engine.cqRecord (e : Engine) (d reason status : Nat) : Engine :=
  let m := e.img d
  let t := e.descT d
  if imgCpol m = 1 ∨ (imgCpol m = 2 ∧ reason ≠ rComplete) then
    let q := Tbl.get [] e.sched.cq t
    if q.length < 256 then
      let r : CqRec := { idx := d, reason := reason, late := e.on (dLate d), status := status,
                         bound := (e.rd (poolAddr d 15)).toNat }
      let e := e.updSched fun s => { s with cq := Tbl.set [] s.cq t (q ++ [r]) }
      let e := if q.isEmpty then e.vfVector t 3 else e
      if q.length = 255 then e.schedEvt t 0x04 .warn 0xFF t 0 else e
    else e.count ⟨SCHED_CQ_DROP t, 0, 32⟩
  else e

/-- Output `1024 × kind + index` of an image. -/
def outKey (m : List Word) : Nat := 1024 * imgOutKind m + imgOutIdx m

/-- An end with COMPLETE makes the task's output valid for its block, unless the guard
start of that block has passed (R256, R286, R287). -/
def Engine.outputValid (e : Engine) (d : Nat) : Engine :=
  let m := e.img d
  let b := (e.desc d).bound / e.nSamp
  let passed := match e.tick.guardBlk with | some g => decide (b ≤ g) | none => false
  if imgOutKind m == 0 || passed then e
  else
    let e := e.updAdapt fun a => { a with fin := max a.fin (100 * e.tcycle / e.budget) }
    e.updSched fun s => { s with valid := Tbl.set 0 s.valid (outKey m) (b + 1) }

/-- A descriptor becomes FREE (R279). -/
def Engine.freeDesc (e : Engine) (d : Nat) : Engine :=
  let e := (List.range 4).foldl (fun e i => e.wr (poolAddr d (12 + i)) 0#32) e
  e.updSched fun s => { s with desc := Tbl.set {} s.desc d {} }

/-- A standing descriptor with RETIRE set becomes FREE once it has ended (R279). -/
def Engine.retireCheck (e : Engine) (d : Nat) : Engine :=
  if tDone ≤ e.get (dState d) ∧ e.on (dRetire d) ∧ imgStanding (e.img d) then e.freeDesc d else e

/-- A release of one counter of `d` (R273): counter `i`, or the lowest that is not zero. -/
def Engine.release (e : Engine) (d : Nat) (i : Option Nat) (hm : Nat) : Engine :=
  let st := e.get (dState d)
  if tPending ≤ st ∧ st ≤ tPreempted then
    let k := match i with
      | some k => k
      | none => ((List.range 4).find? fun k => e.get (dDep d k) ≠ 0).getD 4
    if k < 4 ∧ e.get (dDep d k) ≠ 0 then e.put (dDep d k) (e.get (dDep d k) - 1)
    else e.schedEvt (e.descT d) 0x03 .warn hm d k
  else e

/-- The end of one descriptor: state, REASON, LATE, STATUS, record, output, releases;
and the PENDING successors its end cancels (R273, R278, R281, R287, R288). -/
def Engine.endOne (e : Engine) (d st reason status : Nat) : Engine × List Nat :=
  let late := e.isLate d
  let e := (((e.put (dState d) st).put (dReason d) reason).putB (dLate d) late).put (dStatus d) status
  let e := if late then e.count ⟨SCHED_LATE (e.descT d), 0, 32⟩ else e
  let e := e.cqRecord d reason status
  let e := if reason = rComplete then e.outputValid d else e
  let ss := e.succs (e.img d)
  let e := e.updDesc d fun x => { x with placed := none, ending := none }
  if reason = rComplete ∨ e.on SCHED_CTRL_CANCEL_PROP then
    let e := ss.foldl (fun e s =>
      if reason = rComplete ∨ e.get (dState (s % 4096)) = tPending then
        e.release (s % 4096) (some (s / 2 ^ 12 % 4)) 0xFF
      else e) e
    (e.retireCheck d, [])
  else (e.retireCheck d, ss.map (· % 4096))

/-- Ends and the cancellations they propagate, at most one per descriptor (R278). -/
def Engine.endWork : Nat → Engine → List Nat → Engine
  | 0, e, _ => e
  | _, e, [] => e
  | n + 1, e, d :: ds =>
    if e.get (dState d) = tPending then
      let (e, more) := e.endOne d tCancelled rUnrun 0
      Engine.endWork n e (ds ++ more)
    else Engine.endWork n e ds

/-- A descriptor ends, with what its end cancels. Each of at most 4,096 descriptors is
cancelled once and names fewer than 2^18 successors, so the bound is never reached. -/
def Engine.endTask (e : Engine) (d st reason status : Nat) : Engine :=
  let (e, more) := e.endOne d st reason status
  Engine.endWork (2 ^ 30) e more

/-- When core `c` has no running task, its first PREEMPTED task resumes if it is first
among the work the core may choose (R291, R294). -/
def Engine.coreNext (e : Engine) (c : Nat) : Engine :=
  let k := e.coreOf c
  if k.task.isSome then e
  else
    let pre := k.pre.map Prod.snd
    let ready := (e.placedOn c).filter fun d => e.eligible c d && !e.shedHold (e.img d)
    match e.firstTask pre with
    | none => e
    | some d =>
      let first := match e.firstTask ready with
        | some r => e.taskBefore d r || !e.on SCHED_CTRL_EN
        | none => true
      if first then (e.put (dState d) tRunning).resumeCtx c d else e

/-- The task running on core `c` ends (R256, R277, R286). -/
def Engine.endRunning (e : Engine) (c d st reason status : Nat) : Engine :=
  ((e.endCtx c).endTask d st reason status).coreNext c

/-- The core on which task `d` runs. -/
def Engine.runningOn (e : Engine) (d : Nat) : Option Nat :=
  (List.range 16).find? fun c => (e.coreOf c).task == some d

/-- The task on core `c` ends FAULTED (R178, R179, R343 via R300). -/
def Engine.taskFaulted (e : Engine) (c w3 : Nat) : Engine :=
  match (e.coreOf c).task with
  | some d =>
    let e := e.schedEvt (e.descT d) 0x05 .fault (e.coreHm c) d w3
    e.endRunning c d tFaulted rFaulted 0
  | none => e

/-- A cancel of `d` (R277, R296): PENDING and READY end at once with UNRUN, PREEMPTED
with ABORTED; a RUNNING task at its next pre-emption point or job boundary. -/
def Engine.cancel (e : Engine) (d : Nat) : Engine :=
  let st := e.get (dState d)
  if st = tPending ∨ st = tReady then e.endTask d tCancelled rUnrun 0
  else if st = tPreempted then
    let e := (List.range 16).foldl (fun e c => e.dropCtx c d) e
    e.endTask d tCancelled rAborted 0
  else if st = tRunning then
    let e := e.updDesc d fun x => { x with ending := some rAborted }
    match e.runningOn d with
    | some c =>
      if (e.ctxOf c).lk then
        e.updCore c fun k =>
          { k with deferred := match k.deferred with
              | none => some (.cancel, e.now)
              | some x => some x }
      else e
    | none => e
  else e

/-- TASK_ABORT: a RUNNING task marked to end stops at a pre-emption point: an
instruction boundary outside a locked sequence, never between an EXT and its
successor (R190, R224, R277, R286). -/
def Engine.taskAbort (e : Engine) (c : Nat) : Engine :=
  match (e.coreOf c).task with
  | none => e
  | some d =>
    match (e.desc d).ending with
    | some r =>
      if (e.ctxOf c).lk || (e.ctxOf c).ext.isSome then e
      else e.endRunning c d tCancelled r 0
    | none => e

def execTaskAbort (c : Nat) (s : State) : Out := s.eff fun e => e.taskAbort c

/-! ### Register commands -/

/-- A list block named by an image is not FREE, or belongs to another tenant (R265, R270). -/
def Engine.foreign (e : Engine) (t : Nat) (m : List Word) : Bool :=
  let own (d : Nat) : Bool := e.descTenant d == some t
  (e.imgBlocks m).any (fun b => !own b) || (e.succs m).any (fun s => !own (s % 4096))

/-- A field of an image is out of range or a zero field is not zero (R265, R270). -/
def Engine.badField (e : Engine) (m : List Word) : Bool :=
  let kind := imgKind m
  imgF m 2 31 1 != 0 || imgF m 3 22 10 != 0 || imgF m 9 16 16 != 0
    || imgF m 10 0 32 != 0 || imgF m 11 0 32 != 0 || kind == 3 || imgCpol m == 3
    || imgOutKind m == 3 || (imgOutKind m == 2 && decide (256 ≤ imgOutIdx m))
    || (List.range 4).any (fun i => (halfOf (m.getD (7 + i / 2) 0#32) i) / 2 ^ 14 % 2 == 1)
    || (kind == 0 && (imgAff m == 0 || !(imgAff m).testBit (imgHome m)))
    || (kind == 0 && (imgF m 0 0 2 != 0 || decide (0x10000 ≤ imgF m 0 0 32)))
    || (kind != 0 && (imgAff m != 0 || imgHome m != 0 || imgPin m))
    || (kind == 1 && (imgF m 0 11 5 != 0 || imgF m 0 27 5 != 0))
    || (kind == 2 && (imgF m 0 18 14 != 0 || imgF m 0 16 2 == 3))
    || (imgGate m && imgStanding m)
    || (e.imgBlocks m).any (fun b => e.get (dState b) != tFree)

/-- The output an image names is named by another live descriptor (R270). -/
def Engine.outBusy (e : Engine) (d : Nat) (m : List Word) : Bool :=
  imgOutKind m != 0 && e.liveDescs.any fun x =>
    x != d && (outKey (e.img x) == outKey m
      || (match (e.desc x).next with | some n => outKey n == outKey m | none => false))

/-- Why a submission of `d` with staged words `m` is refused (R270), in the rule's order. -/
def Engine.submitRefusal (e : Engine) (d : Nat) (m : List Word) : Option Nat :=
  let st := e.get (dState d)
  let busy := decide (tPending ≤ st ∧ st ≤ tPreempted)
    && (!imgStanding m || !imgStanding (e.img d))
  if e.badField m then some 3
  else if e.budget < imgDeadline m then some 6
  else if e.foreign (e.descT d) m then some 5
  else if e.outBusy d m then some 4
  else if busy then some 1
  else none

/-- BOUND of `d` becomes the block that starts at `esc` (R265). -/
def Engine.setBound (e : Engine) (d esc : Nat) : Engine :=
  (e.wr (poolAddr d 15) (BitVec.ofNat 32 (e.pairEsc esc))).updDesc d fun x => { x with bound := esc }

/-- The counters take their initial values (R271, R284). -/
def Engine.loadDeps (e : Engine) (d : Nat) : Engine :=
  (List.range 4).foldl (fun e i => e.put (dDep d i) (imgDepInit (e.img d) i)) e

/-- A submission (R270 to R272). -/
def Engine.submit (e : Engine) (by_ : Sender) (d : Nat) : Engine :=
  if e.schedMay by_ d = false ∨ e.descTenant d = none then e.opRefused by_ d 0 2
  else
    let m := e.staged d
    let st := e.get (dState d)
    match e.submitRefusal d m with
    | some r => e.opRefused by_ d 0 r
    | none =>
      if imgStanding m then
        if st = tFree then (e.updDesc d fun _ => { img := m }).put (dState d) tDone
        else if st = tFaulted then (e.updDesc d fun x => { x with img := m }).put (dState d) tDone
        else e.updDesc d fun x => { x with next := some m }
      else
        let e := e.updDesc d fun _ => { img := m }
        let e := ((e.put (dGate d) 0).put (dLate d) 0).put (dReason d) 0
        let e := (e.loadDeps d).setBound d (e.computeBlock * e.nSamp)
        (e.put (dState d) tPending).tryReady d

/-- SCHED_SUBMIT. -/
def execSchedSubmit (by_ : Sender) (d : Nat) (s : State) : Out :=
  s.eff fun e => e.rowWrite by_ [(SCHED_SUBMIT, BitVec.ofNat 32 (d % 4096))] fun e =>
    e.submit by_ (d % 4096)

/-- A write of SCHED_READY (R273, R299). -/
def Engine.schedReadyWrite (e : Engine) (by_ : Sender) (d ctr : Nat) : Engine :=
  if e.schedMay by_ d = false then e.opRefused by_ d 1 2
  else if 4 < ctr then e.opRefused by_ d 1 3
  else e.release d (if ctr = 4 then none else some ctr) by_.hm

/-- SCHED_READY. -/
def execSchedReady (by_ : Sender) (v : Word) (s : State) : Out :=
  s.eff fun e => e.rowWrite by_ [(SCHED_READY, v)] fun e =>
    e.schedReadyWrite by_ (bitsOf v 0 12) (bitsOf v 12 3)

/-- A write of SCHED_CANCEL (R277). -/
def Engine.schedCancelWrite (e : Engine) (by_ : Sender) (d : Nat) : Engine :=
  if e.schedMay by_ d = false then e.opRefused by_ d 2 2 else e.cancel d

/-- SCHED_CANCEL. -/
def execSchedCancel (by_ : Sender) (d : Nat) (s : State) : Out :=
  s.eff fun e => e.rowWrite by_ [(SCHED_CANCEL, BitVec.ofNat 32 (d % 4096))] fun e =>
    e.schedCancelWrite by_ (d % 4096)

/-- A write of SCHED_FREE (R279). -/
def Engine.schedFreeWrite (e : Engine) (by_ : Sender) (d : Nat) : Engine :=
  let st := e.get (dState d)
  if e.schedMay by_ d = false then e.opRefused by_ d 3 2
  else if st ≠ tFree ∧ imgStanding (e.img d) = true then (e.put (dRetire d) 1).retireCheck d
  else if tDone ≤ st then e.freeDesc d
  else e.opRefused by_ d 3 1

/-- SCHED_FREE. -/
def execSchedFree (by_ : Sender) (d : Nat) (s : State) : Out :=
  s.eff fun e => e.rowWrite by_ [(SCHED_FREE, BitVec.ofNat 32 (d % 4096))] fun e =>
    e.schedFreeWrite by_ (d % 4096)

/-- A SCHED_RANGE pair of tenant `t` takes effect, or is refused (R268). -/
def Engine.schedRange (e : Engine) (by_ : Sender) (t : Nat) (v : Word) : Engine :=
  let v := v &&& 0x1FFF0FFF#32
  let (b, n) := (bitsOf v 0 12, bitsOf v 16 13)
  let inNew (d : Nat) : Bool := decide (b ≤ d ∧ d < b + n)
  let overlap := (List.range 16).any fun u =>
    let bu := e.cp (SCHED_RANGE_BASE u)
    let nu := e.cp (SCHED_RANGE_COUNT u)
    u != t && decide (n ≠ 0 ∧ nu ≠ 0 ∧ b < bu + nu ∧ bu < b + n)
  let left := e.liveDescs.any fun d => e.descTenant d == some t && !inNew d
  if by_.isCC = false then e.opRefused by_ 0 4 2
  else if overlap || decide (4096 < b + n) || left then e.schedEvt t 0x06 .warn by_.hm v.toNat 0
  else e.wrCp (SCHED_RANGE t) v

/-- SCHED_RANGE_COMMIT. -/
def execSchedRangeCommit (by_ : Sender) (t : Nat) (v : Word) (s : State) : Out :=
  s.eff fun e => e.rowWrite by_ [(SCHED_RANGE t, v)] fun e =>
    e.schedRange by_ t v

/-- A read of SCHED_CQ_LO: the oldest record is popped and captured (R282). -/
def Engine.cqPop (e : Engine) (by_ : Sender) (t : Nat) : Word × Engine :=
  match Tbl.get [] e.sched.cq t with
  | [] => (0#32, e.capture (SCHED_CQ_LO t) by_.hm [0])
  | r :: rs =>
    let e := e.updSched fun s => { s with cq := Tbl.set [] s.cq t rs }
    (BitVec.ofNat 32 (r.idx + 2 ^ 12 * r.reason + 2 ^ 15 * r.late.toNat + 2 ^ 16 * r.status + 2 ^ 31),
     e.capture (SCHED_CQ_LO t) by_.hm [r.bound])

/-- SCHED_CQ_POP. -/
def execSchedCqPop (by_ : Sender) (t : Nat) (s : State) : Out :=
  s.eff fun e => Engine.answer (e.cqPop by_ t)

/-! ### Dispatch -/

/-- Task `d` dispatched to core `c` (R155, R292). -/
def Engine.dispatch (e : Engine) (c d : Nat) : Engine :=
  let m := e.img d
  let e := (e.put (dState d) tRunning).put (dCore d) c
  let e := e.updDesc d fun x => { x with placed := none }
  e.startCtx c d (imgF m 0 0 32) (imgF m 1 0 32) (e.rd (poolAddr d 15)).toNat

/-- READY tasks core `c` may be given. -/
def Engine.coreWork (e : Engine) (c : Nat) : List Nat :=
  (e.placedOn c).filter fun d => e.eligible c d && !e.shedHold (e.img d)

/-- TASK_DISPATCH to core `c` (R292, R294) or to an accelerator (16 EQA, 17 SUMX, R296). -/
def Engine.dispatchTo (e : Engine) (u : Nat) : Engine :=
  if e.on SCHED_CTRL_EN = false then e
  else if u < 16 then
    if (e.coreOf u).task.isSome then e
    else
      let e := e.coreNext u
      if (e.coreOf u).task.isSome then e
      else match e.firstTask (e.coreWork u) with
        | some d => if (e.coreOf u).freeBank.isSome then e.dispatch u d else e
        | none => e
  else
    let kind := u - 15
    if (Tbl.get none e.sched.accel kind).isSome ∨ bitOf (e.rd CLK_GATE) u = true
        ∨ (kind = 1 ∧ e.on EQA_CTRL_EN = false) then e
    else
      let work := e.liveDescs.filter fun d =>
        e.get (dState d) == tReady && imgKind (e.img d) == kind && !e.shedHold (e.img d)
      match e.firstTask work with
      | some d =>
        (e.put (dState d) tRunning).updSched fun s => { s with
          accel := Tbl.set none s.accel kind (some d), step := Tbl.set 0 s.step kind 0 }
      | none => e

/-- TASK_DISPATCH. -/
def execTaskDispatch (u : Nat) (s : State) : Out := s.eff fun e => e.dispatchTo u

/-- TASK_MIGRATE: an unpinned READY task whose placement core is busy moves to another
eligible core that is idle, outside lockstep and with MIGRATE set (R295). -/
def Engine.migrate (e : Engine) (d c : Nat) : Engine :=
  let busy := match (e.desc d).placed with | some p => (e.coreOf p).task.isSome | none => false
  if e.on SCHED_CTRL_MIGRATE ∧ e.lockstep = false ∧ e.get (dState d) = tReady
      ∧ imgKind (e.img d) = 0 ∧ imgPin (e.img d) = false ∧ busy = true ∧ e.eligible c d = true
      ∧ (e.coreOf c).task = none then
    e.updDesc d fun x => { x with placed := some c }
  else e

def execTaskMigrate (d c : Nat) (s : State) : Out := s.eff fun e => e.migrate (d % 4096) c

/-- The task of accelerator `kind` ends at a job boundary: with its pending cancel or
miss, or COMPLETE after its last job (R296, R298). -/
def Engine.accelEnd (e : Engine) (kind : Nat) (last : Bool) : Engine :=
  match Tbl.get none e.sched.accel kind with
  | none => e
  | some d =>
    let free (e : Engine) : Engine :=
      e.updSched fun s => { s with accel := Tbl.set none s.accel kind none }
    if last ∧ (e.desc d).ending ≠ some rMissed then (free e).endTask d tDone rComplete 0
    else match (e.desc d).ending with
      | some r => (free e).endTask d tCancelled r 0
      | none => e

/-- An accelerator task ends FAULTED with the accelerator's code (R296, R300). -/
def Engine.accelFault (e : Engine) (kind code : Nat) : Engine :=
  match Tbl.get none e.sched.accel kind with
  | none => e
  | some d =>
    let e := e.updSched fun s => { s with accel := Tbl.set none s.accel kind none }
    (e.schedEvt (e.descT d) 0x05 .fault 0xFF d (0x1F + 2 ^ 8 * code)).endTask d tFaulted rFaulted 0

/-- TASK_COMPLETE: SCHED records the TDONE of core `c` once every earlier store has
been accepted (R236, R256). -/
def Engine.taskComplete (e : Engine) (c : Nat) : Engine :=
  let k := e.coreOf c
  match k.wait, k.task with
  | .tdone status, some d =>
    if k.posted.isEmpty then
      match (e.desc d).ending with
      | some r => if r = rMissed then e.endRunning c d tCancelled r 0
                  else e.endRunning c d tDone rComplete status
      | none => e.endRunning c d tDone rComplete status
    else e
  | _, _ => e

def execTaskComplete (c : Nat) (s : State) : Out := s.eff fun e => e.taskComplete c

/-! ### The tick -/

/-- Standing tasks armed at the tick start of block `b`; a new image applies from it
(R272, R284, R285). -/
def Engine.schedTick (e : Engine) (b : Nat) : Engine :=
  if e.on SCHED_CTRL_EN = false then e
  else
    let e := e.updSched fun s => { s with shed := [] }
    e.liveDescs.foldl (fun e d =>
      let e := match (e.desc d).next with
        | some m =>
          if tDone ≤ e.get (dState d) then e.updDesc d fun x => { x with img := m, next := none }
          else e
        | none => e
      let st := e.get (dState d)
      let m := e.img d
      if imgStanding m ∧ (st = tDone ∨ st = tCancelled) ∧ e.on (dRetire d) = false then
        if e.shedArm m b then e.updSched fun s => { s with shed := s.shed ++ [d] }
        else ((e.loadDeps d).setBound d (b * e.nSamp)).put (dState d) tPending |>.tryReady d
      else e) e

/-- An output's task has not made it valid for block `b` (R287). -/
def Engine.outMissed (e : Engine) (d b : Nat) : Bool :=
  let m := e.img d
  imgStanding m && imgOutKind m != 0 && Tbl.get 0 e.sched.valid (outKey m) != b + 1

/-- The guard start of block `b`: standing tasks bound to it that are not DONE end
MISSED, and each tenant's missed outputs are counted and reported (R286, R287). -/
def Engine.schedGuard (e : Engine) (b : Nat) : Engine :=
  let e := e.liveDescs.foldl (fun e d =>
    let st := e.get (dState d)
    if imgStanding (e.img d) ∧ (e.desc d).bound = b * e.nSamp then
      if st = tPending ∨ st = tReady then e.endTask d tCancelled rMissed 0
      else if st = tPreempted then
        let e := (List.range 16).foldl (fun e c => e.dropCtx c d) e
        e.endTask d tCancelled rMissed 0
      else if st = tRunning then e.updDesc d fun x => { x with ending := some rMissed }
      else e
    else e) e
  (List.range 16).foldl (fun e t =>
    let missed := e.liveDescs.filter fun d => e.descTenant d == some t && e.outMissed d b
    match missed with
    | [] => e.put (SCHED_TSTAT_MISS_EPISODE t) 0
    | d :: _ =>
      let n := missed.length
      let shed := (missed.filter fun d => e.sched.shed.contains d).length
      let first := e.on (SCHED_TSTAT_MISS_EPISODE t) = false
      let e := ((e.count ⟨SCHED_MISS t, 0, 32⟩ n).count SCHED_MISS_TOTAL_COUNT n).put
        (SCHED_TSTAT_MISS_EPISODE t) 1
      if first then
        e.schedEvt t 0x01 .warn 0xFF n
          (imgOutIdx (e.img d) + 2 ^ 10 * imgOutKind (e.img d) + 2 ^ 16 * shed)
      else e) e

/-- A TAQ TASK action for `d` at `esc` (R275): the gate opens, or TASK_STALE. -/
def Engine.schedGate (e : Engine) (d esc entry : Nat) : Engine :=
  if e.get (dState d) = tPending ∧ imgStanding (e.img d) = false ∧ imgGate (e.img d) = true then
    let e := (e.put (dGate d) 1).setBound d (esc / e.nSamp * e.nSamp)
    e.updDesc d fun x => { x with gate := some esc }
  else e.schedEvt (e.descT d) 0x07 .warn (Tbl.get {} e.taq.ent entry).hm d entry

/-- The words SCHED shows that follow its state: SCHED_STATUS, SCHED_CQ_HI, SCHED_TSTAT
and SCHED_CORE (R282, R299). -/
def Engine.schedShow (e : Engine) (by_ : Sender) (a : Nat) : Option Word :=
  if a = SCHED_STATUS then
    let live := e.liveDescs
    some (BitVec.ofNat 32 (live.length
      + 2 ^ 16 * (live.filter fun d => e.get (dState d) == tReady).length
      + 2 ^ 31 * e.lockstep.toNat))
  else if SCHED_CQ_LO 0 ≤ a ∧ a < SCHED_CQ_LO 16 ∧ a % 16 = 0xC then
    some (e.capturedOr (a - 4) by_.hm)
  else if SCHED_TSTAT 0 ≤ a ∧ a < SCHED_TSTAT 16 ∧ a % 16 = 0 then
    let t := (a - SCHED_TSTAT 0) / 16
    some (setBits (setBits (e.rd a) 0 9 (Tbl.get [] e.sched.cq t).length) 9 1 (e.cqFull t).toNat)
  else if SCHED_CORE 0 ≤ a ∧ a < SCHED_CORE 16 ∧ a % 4 = 0 then
    let c := (a - SCHED_CORE 0) / 4
    let k := e.coreOf c
    some (BitVec.ofNat 32 (k.task.getD 0 + 2 ^ 12 * k.task.isSome.toNat + 2 ^ 13 * k.pre.length
      + 2 ^ 16 * (e.placedOn c).length))
  else none

end Sys2Proof.Machine
end

