-- ==== Sys2Proof/Machine/DbgBase.lean ====
section
/-!
DEFINITION. The debug session as every block meets it: attachment, halting and resuming a
core, the end of a session, and tenant consent (chapter "Lifecycle, Secure Boot and Debug",
R648 to R659). The debug port itself is in Machine/DbgPort.lean.
-/
namespace Sys2Proof.Machine

/-- The tenants of the session's scope. -/
def Engine.sessionTenants (e : Engine) : List Nat := (List.range 16).filter fun t => bitOf (e.rd DBG_SCOPE) t

/-- A DBG event, which also goes to every tenant in scope when `scope` holds (R665). -/
def Engine.dbgEvt (e : Engine) (code : Nat) (sev : Sev) (w2 w3 : Nat) (scope : Bool) (hm : Nat := 0xFF) : Engine :=
  e.raise { block := 0x1C, code := code, sev := sev, hm := hm, w2 := w2, w3 := w3,
            also := if scope then e.sessionTenants else [] }

/-- The scope bit of core `c`: its tenant's, or ENGINE for the control core (R635, R648). -/
def Engine.scopeBit (e : Engine) (c : Nat) : Nat := if c = 16 then 16 else e.coreTenant c

/-- An INVASIVE session holds core `c` in scope (R648). -/
def Engine.attached (e : Engine) (c : Nat) : Bool :=
  e.get DBG_STATUS_LEVEL == 2 && bitOf (e.rd DBG_SCOPE) (e.scopeBit c)

/-- Core `c` halts for the debugger (R654): a waiting load is discarded for re-execution, an
STC whose store has left completes, the reservation is cleared (R188), CORE_STATUS shows HALTED and DBG raises HALTED with its pc. -/
def Engine.debugHalt (e : Engine) (c : Nat) : Engine :=
  let e := e.updCtx c CoreCtx.boundary
  let e := e.updCore c fun k =>
    let w := match k.wait with | .stc g => CoreWait.stc g | _ => .run
    { k.discardLoads with halted := true, step := false, wait := w, resv := none,
                          deferred := none }
  (e.put ⟨DBG_HALTED, c, 1⟩ 1).dbgEvt 0x05 .note c (e.ctxOf c).pc true

/-- A halted core resumes (R652, R659): with an expiry held by WDT_HOLD, the watchdog starts a
new period as CC resumes. -/
def Engine.resumeCore (e : Engine) (c : Nat) : Engine :=
  if bitOf (e.rd DBG_HALTED) c then
    let e := (e.put ⟨DBG_HALTED, c, 1⟩ 0).updCore c fun k => { k with halted := false, step := false }
    if c = 16 ∧ e.dbg.wdtHit = true then
      ((e.wr WDT_COUNT 0#32).wr WDT_STATUS 0#32).updDbg fun d => { d with wdtHit := false }
    else e
  else e

def Engine.resumeAll (e : Engine) (p : Nat → Bool) : Engine :=
  (List.range 17).foldl (fun e c => if p c then e.resumeCore c else e) e

/-- The session closes (R652): 0 CLOSE, 1 Test-Logic-Reset, 2 reset, 3 DORMANT. -/
def Engine.sessionClose (e : Engine) (cause : Nat) : Engine :=
  if e.get DBG_STATUS_LEVEL = 0 then e
  else
    let e := e.resumeAll fun _ => true
    let e := (List.range 4).foldl (fun e k => e.put (DBG_WP_CFG_EN k) 0) e
    let e := (e.wr DBG_CTRL 0#32).dbgEvt 0x02 .note cause 0 true (if cause = 0 then 0xE0 else 0xFF)
    ((e.put DBG_STATUS_LEVEL 0).wr DBG_SCOPE 0#32).updDbg fun d => { d with wait := [], level := none }

/-- The lifecycle as loaded (R664). -/
def Engine.lc (e : Engine) : Nat := e.get SEC_STATUS_LC

/-- SEC_CONSENT bit `t` becomes `v` (R651); a tenant that withdraws in PRODUCTION leaves an
INVASIVE session's scope (Corners "Consent withdrawn during a session"). -/
def Engine.setConsent (e : Engine) (t hm : Nat) (v : Bool) : Engine :=
  if bitOf (e.rd SEC_CONSENT) t = v then e
  else
    let e := e.put ⟨SEC_CONSENT, t, 1⟩ v.toNat
    let e := e.raiseT t { block := 0x1B, code := 0x01, sev := .note, hm := hm, w2 := t, w3 := v.toNat }
    if v = false ∧ e.lc = 2 ∧ (e.get DBG_STATUS_LEVEL = 2 ∨ e.dbg.level = some 2) then
      let e := e.resumeAll fun c => c != 16 && e.coreTenant c == t
      let e := (List.range 4).foldl (fun e k => (List.range 16).foldl (fun e c =>
        if e.coreTenant c = t then e.put ⟨DBG_WP_CFG k, c, 1⟩ 0 else e) e) e
      e.put ⟨DBG_SCOPE, t, 1⟩ 0
    else e

/-- An H2E message of tenant `t` made complete: a consent message sets or clears the
tenant's bit (R651). -/
def Engine.consentMsg (e : Engine) (t hm : Nat) (h payload : Word) : Engine :=
  if bitsOf h 0 16 = 0xDB6E ∧ bitsOf h 16 8 = 1 ∧ payload.toNat < 2 then
    e.setConsent t hm (bitOf payload 0)
  else e

end Sys2Proof.Machine
end

