-- ==== Sys2Proof/Machine/Mbx.lean ====
section
/-!
DEFINITION. MBX: mailbox channels in QUEUE and BLOCK mode, the tenant event queue and
doorbells (chapter "Tenants, Mailboxes and Hallmarks", R354 to R378).
-/
namespace Sys2Proof.Machine

/-- A MBX event of tenant `t`, to the ring and to its queue (R378). -/
def Engine.mbxEvt (e : Engine) (t code : Nat) (sev : Sev) (hm w2 w3 : Nat) : Engine :=
  e.raiseT t { block := 0x09, code := code, sev := sev, hm := hm, w2 := w2, w3 := w3 }

/-- A refused write (R378): offset and reason. -/
def Engine.mbxRefuse (e : Engine) (t : Nat) (by_ : Sender) (off reason : Nat) : Engine :=
  e.mbxEvt t 0x03 .warn by_.hm off reason

/-- Direction `d` of tenant `t`: 0 H2E, 1 E2H. -/
def Engine.mdir (e : Engine) (t d : Nat) : MbxDir := Tbl.get {} e.mbx.dirs (2 * t + d)

def Engine.setMdir (e : Engine) (t d : Nat) (x : MbxDir) : Engine :=
  e.updMbx fun m => { m with dirs := Tbl.set {} m.dirs (2 * t + d) x }

/-- The registers of direction `d` (R376). -/
def mHdr (t d : Nat) : Nat := MBX_H2E_HDR t + 0x100 * d
def mHdrc (t d : Nat) : Nat := MBX_H2E_HDRC t + 0x100 * d
def mMsg (t d k : Nat) : Nat := MBX_H2E_HDR t + 0x40 + 0x100 * d + 4 * k

/-- Direction `d` is in BLOCK mode (R376). -/
def Engine.mBlock (e : Engine) (t d : Nat) : Bool :=
  if d = 0 then e.on (MBX_CFG_H2E_MODE t) else e.on (MBX_CFG_E2H_MODE t)

/-- The block length of direction `d`: a BLEN outside 8 to 16 is taken as the nearer
limit (R362). -/
def Engine.mBlen (e : Engine) (t d : Nat) : Nat :=
  min 16 (max 8 (if d = 0 then e.get (MBX_CFG_H2E_BLEN t) else e.get (MBX_CFG_E2H_BLEN t)))

/-- The bound host party of tenant `t` (R354). -/
def Engine.mHost (e : Engine) (t : Nat) (by_ : Sender) : Bool :=
  !by_.dma && hmPriv by_.hm == 0 && hmTenant by_.hm == t
    && hmOrigin by_.hm == (if e.on (MBX_CFG_HOSTSRC t) then 1 else 0)

/-- The bound engine party of tenant `t` (R354). -/
def Engine.mEside (e : Engine) (t : Nat) (by_ : Sender) : Bool :=
  if e.on (MBX_CFG_ESIDE t) then
    !by_.dma && hmPriv by_.hm == 0 && hmTenant by_.hm == t && hmOrigin by_.hm == 2
  else by_.isCC

/-- The bound sender and receiver of direction `d` (R354). -/
def Engine.mSender (e : Engine) (t d : Nat) (by_ : Sender) : Bool :=
  if d = 0 then e.mHost t by_ else e.mEside t by_
def Engine.mReceiver (e : Engine) (t d : Nat) (by_ : Sender) : Bool :=
  if d = 0 then e.mEside t by_ else e.mHost t by_

/-- FREE: 16 minus the words held minus the words reserved (R358); words on their way to their
target block are held (R375). -/
def MbxDir.free (x : MbxDir) : Nat := 16 - (x.fifo.length + x.open_.length + x.left + x.fwd)

/-- A BLOCK direction is FULL, from the GO accepted on (R363, R375). -/
def MbxDir.blockFull (x : MbxDir) : Bool := x.full || x.fwd != 0

/-- The direction holds a word, an open message or FULL (R368). -/
def MbxDir.busy (x : MbxDir) : Bool := !x.fifo.isEmpty || x.isOpen || x.blockFull

/-- A doorbell `k` of tenant `t` rung by `by_` (R371). -/
def Engine.ringBell (e : Engine) (t k : Nat) (by_ : Sender) : Engine :=
  let e := e.put ⟨MBX_DB_PEND t, k, 1⟩ 1
  if e.on (MBX_DB_MAP_V t k) then
    e.schedReadyWrite by_ (e.get (MBX_DB_MAP_IDX t k)) (e.get (MBX_DB_MAP_CTR t k))
  else e

/-- A message of direction `d` with header `h` has arrived (R366). -/
def Engine.mArrived (e : Engine) (t d : Nat) (h : Word) (by_ : Sender) : Engine :=
  let e := e.mbxEvt t 0x01 .note by_.hm d h.toNat
  let e := if d = 1 then e.vfVector t 1 else e
  if d = 0 ∧ e.on (MBX_CFG_ESIDE t) then e.ringBell t (e.get (MBX_CFG_ARRDB t)) by_ else e

/-- FULL of direction `d` clears: MBX_SPACE, and vector 2 for H2E (R366, R578). -/
def Engine.mSpace (e : Engine) (t d hm : Nat) : Engine :=
  let e := e.mbxEvt t 0x02 .note hm d 0
  if d = 0 then e.vfVector t 2 else e

/-- A complete message becomes visible (R360, R366). -/
def Engine.mComplete (e : Engine) (t d : Nat) (ws : List Word) (by_ : Sender) : Engine :=
  let x := e.mdir t d
  let x := { x with fifo := x.fifo ++ ws, msgs := x.msgs ++ [ws.length] }
  let e := (e.setMdir t d x).mArrived t d (ws.headD 0#32) by_
  if d = 0 then e.consentMsg t by_.hm (ws.headD 0#32) (ws.getD 2 0#32) else e

/-- The QUEUE message of direction `d` now holds all its words (R359). The primary of a pair
forwards an H2E message and both engines make it visible at the target block (R375, R515). -/
def Engine.mFinish (e : Engine) (t d : Nat) (by_ : Sender) : Engine :=
  let x := e.mdir t d
  let y := { x with open_ := [], left := 0, isOpen := false }
  if d = 0 ∧ e.forwarding = true then
    (e.setMdir t d { y with fwd := y.fwd + x.open_.length }).forward by_ (.msg t x.open_)
  else (e.setMdir t d y).mComplete t d x.open_ by_

/-- The stored pair of a header accepted for direction `d`: hallmark stamped, complement
kept (R357). -/
def stampHdr (v : Word) (hm : Nat) : Word := setBits v 24 8 hm

/-- A refused header is reported to the tenant and to ASSAY (R357). -/
def Engine.mHdrMismatch (e : Engine) (t d hm : Nat) (h c : Word) : Engine :=
  let x := e.mdir t d
  ((e.setMdir t d { x with pend := none }).mbxEvt t 0x04 .warn hm h.toNat c.toNat).motion 2

/-- A header write that may not happen: the sender is not bound, the standby of a pair,
or a BLOCK direction is FULL (R355, R365, R375). -/
def Engine.mRefused (e : Engine) (t d : Nat) (by_ : Sender) : Option Nat :=
  if e.mSender t d by_ = false then some 1
  else if d = 0 ∧ e.lockstep = true ∧ e.on DUO_CTRL_ROLE = true ∧ hmOrigin by_.hm ≠ 3 then some 7
  else if e.mBlock t d ∧ (e.mdir t d).blockFull then some 2
  else none

/-- The engine ignores a write with EN = 0 except by the control core (R376). -/
def Engine.mIgnored (e : Engine) (t : Nat) (by_ : Sender) : Bool :=
  e.on (MBX_CFG_EN t) == false && !by_.isCC

/-- A write of MBX_*_HDR: pending its complement (R357). -/
def Engine.mbxHdr (e : Engine) (t d : Nat) (by_ : Sender) (v : Word) : Engine :=
  if e.mIgnored t by_ then e
  else match e.mRefused t d by_ with
    | some r => e.mbxRefuse t by_ (0x100 + 0x100 * d) r
    | none =>
      let x := e.mdir t d
      e.setMdir t d { x with pend := some { val := v, hm := by_.hm, cyc := e.now } }

/-- MBX_HDR_WRITE. -/
def execMbxHdrWrite (by_ : Sender) (t d : Nat) (v : Word) (s : State) : Out :=
  s.eff fun e => e.mbxHdr t d by_ v

/-- An accepted header pair (R357 to R359, R363). -/
def Engine.mbxHeader (e : Engine) (t d : Nat) (by_ : Sender) (v c : Word) : Engine :=
  let h := stampHdr v by_.hm
  let hc := setBits c 24 8 (255 - by_.hm % 256)
  let len := bitsOf v 16 8
  let off := 0x104 + 0x100 * d
  let x := e.mdir t d
  let e := e.setMdir t d { x with pend := none }
  if e.mBlock t d then
    let e := (e.wr (mHdr t d) h).wr (mHdrc t d) hc
    e.setMdir t d { e.mdir t d with accepted := some h }
  else
    let e := if x.isOpen then
        (e.setMdir t d { e.mdir t d with open_ := [], left := 0, isOpen := false }).mbxRefuse t by_ off 4
      else e
    let y := e.mdir t d
    if 14 < len then e.mbxRefuse t by_ off 5
    else if y.free < len + 2 then e.mbxRefuse t by_ off 3
    else
      let e := (e.wr (mHdr t d) h).wr (mHdrc t d) hc
      let e := e.setMdir t d { y with open_ := [h, hc], left := len, isOpen := true }
      if len = 0 then e.mFinish t d by_ else e

/-- An accepted header pair; when the open message it discards held FULL up, FULL clears (R366). -/
def Engine.mbxAccept (e : Engine) (t d : Nat) (by_ : Sender) (v c : Word) : Engine :=
  let x := e.mdir t d
  let e := e.mbxHeader t d by_ v c
  if e.mBlock t d = false ∧ x.free = 0 ∧ (e.mdir t d).free ≠ 0 then e.mSpace t d by_.hm else e

/-- A write of MBX_*_HDRC: the pair is accepted, or refused (R357). -/
def Engine.mbxHdrc (e : Engine) (t d : Nat) (by_ : Sender) (v : Word) : Engine :=
  if e.mIgnored t by_ then e
  else match e.mRefused t d by_ with
    | some r => e.mbxRefuse t by_ (0x104 + 0x100 * d) r
    | none =>
      match (e.mdir t d).pend with
      | none => e.mHdrMismatch t d by_.hm 0#32 v
      | some p =>
        if p.hm ≠ by_.hm ∨ p.cyc + 64 ≤ e.now ∨ bitsOf (~~~ v) 0 24 ≠ bitsOf p.val 0 24 then
          e.mHdrMismatch t d by_.hm p.val v
        else e.mbxAccept t d by_ p.val v

/-- MBX_HDRC_WRITE. -/
def execMbxHdrcWrite (by_ : Sender) (t d : Nat) (v : Word) (s : State) : Out :=
  s.eff fun e => e.mbxHdrc t d by_ v

/-- MBX_HDR_TIMEOUT: no complement within 64 cycles (R357). -/
def execMbxHdrTimeout (t d : Nat) (s : State) : Out :=
  s.eff fun e =>
    match (e.mdir t d).pend with
    | some p => if p.cyc + 64 ≤ e.now then e.mHdrMismatch t d p.hm p.val 0#32 else e
    | none => e

/-- A write of MBX_*_DATA (R359). -/
def Engine.mbxData (e : Engine) (t d : Nat) (by_ : Sender) (v : Word) : Engine :=
  if e.mIgnored t by_ then e
  else match e.mRefused t d by_ with
    | some r => e.mbxRefuse t by_ (0x108 + 0x100 * d) (if r = 2 then 4 else r)
    | none =>
      let x := e.mdir t d
      if x.isOpen = false ∨ e.mBlock t d = true then e.mbxRefuse t by_ (0x108 + 0x100 * d) 4
      else
        let e := e.setMdir t d { x with open_ := x.open_ ++ [v], left := x.left - 1 }
        if x.left ≤ 1 then e.mFinish t d by_ else e

/-- MBX_DATA_WRITE. -/
def execMbxDataWrite (by_ : Sender) (t d : Nat) (v : Word) (s : State) : Out :=
  s.eff fun e => e.mbxData t d by_ v

/-- The lengths of the complete messages once one word is popped. -/
def popMsg : List Nat → List Nat
  | [] => []
  | n :: ns => if n ≤ 1 then ns else (n - 1) :: ns

/-- A read of MBX_*_POP (R355, R360, R361). FULL falling raises MBX_SPACE (R366). -/
def Engine.mbxPop (e : Engine) (t d : Nat) (by_ : Sender) : Word × Engine :=
  if e.mReceiver t d by_ = false ∨ e.mBlock t d = true then (0#32, e)
  else
    let x := e.mdir t d
    match x.fifo with
    | [] => (0#32, e.mbxEvt t 0x05 .warn by_.hm d 0)
    | w :: ws =>
      let e := e.setMdir t d { x with fifo := ws, msgs := popMsg x.msgs }
      (w, if x.free = 0 then e.mSpace t d by_.hm else e)

/-- MBX_POP. -/
def execMbxPop (by_ : Sender) (t d : Nat) (s : State) : Out :=
  s.eff fun e => Engine.answer (e.mbxPop t d by_)

/-- The words of a BLOCK message with header `h`. -/
def Engine.mBlockWords (e : Engine) (t d : Nat) : List Word :=
  [e.rd (mHdr t d), e.rd (mHdrc t d)]
    ++ (List.range (e.mBlen t d - 2)).map fun k => e.rd (mMsg t d (k + 2))

/-- A write of MBX_*_GO (R363, R365, R366). -/
def Engine.mbxGo (e : Engine) (t d : Nat) (by_ : Sender) (v : Word) : Engine :=
  let off := 0x110 + 0x100 * d
  if e.mIgnored t by_ ∨ bitOf v 0 = false then e
  else match e.mRefused t d by_ with
    | some r => e.mbxRefuse t by_ off r
    | none =>
      let x := e.mdir t d
      match x.accepted with
      | none => e.mbxRefuse t by_ off 4
      | some h =>
        if e.mBlock t d = false ∨ bitsOf h 24 8 ≠ by_.hm then e.mbxRefuse t by_ off 4
        else if e.mBlen t d < bitsOf h 16 8 + 2 then e.mbxRefuse t by_ off 5
        else if d = 0 ∧ e.forwarding = true then
          (e.setMdir t d { x with accepted := none, fwd := e.mBlen t d }).forward by_ (.msg t (e.mBlockWords t d))
        else
          let e := (e.setMdir t d { x with accepted := none, fullNext := some true }).mArrived t d h by_
          if d = 0 then e.consentMsg t by_.hm h (e.rd (mMsg t d 2)) else e

/-- MBX_GO. -/
def execMbxGo (by_ : Sender) (t d : Nat) (s : State) : Out :=
  s.eff fun e => e.mbxGo t d by_ 1#32

/-- A read of MBX_*_HDR: the receiver's read in BLOCK mode clears FULL in the next cycle
(R364); unbound readers get zero (R355). -/
def Engine.mbxHdrRead (e : Engine) (t d : Nat) (by_ : Sender) : Word × Engine :=
  let x := e.mdir t d
  if e.mReceiver t d by_ then
    (e.rd (mHdr t d),
     if e.mBlock t d ∧ x.full then e.setMdir t d { x with fullNext := some false } else e)
  else if e.mSender t d by_ then (e.rd (mHdr t d), e)
  else (0#32, e)

/-- MBX_HDR_READ. -/
def execMbxHdrRead (by_ : Sender) (t d : Nat) (s : State) : Out :=
  s.eff fun e => Engine.answer (e.mbxHdrRead t d by_)

/-- The next FABRIC cycle: FULL rises or falls as the last cycle set it (R363, R364). -/
def Engine.mbxCycle (e : Engine) : Engine :=
  (e.mbx.dirs.map Prod.fst).foldl (fun e i =>
    let (t, d) := (i / 2, i % 2)
    let x := e.mdir t d
    match x.fullNext with
    | some b =>
      let e := e.setMdir t d { x with full := b, fullNext := none }
      if x.full && !b then e.mSpace t d 0xFF else e
    | none => e) e

/-- A write of MBX_CTRL: the directions named are flushed, and FULL that clears raises MBX_SPACE
(R366, R368). A message on its way to its target block is not held yet (R375). -/
def Engine.mbxFlush (e : Engine) (t : Nat) (by_ : Sender) (v : Word) : Engine :=
  if by_.isCC = false then e.mbxRefuse t by_ 0x008 8
  else
    let e := (List.range 2).foldl (fun e d =>
      if bitOf v d then
        let x := e.mdir t d
        let e := e.setMdir t d { fwd := x.fwd }
        if (if e.mBlock t d then x.full && x.fwd == 0 else x.free == 0 && x.fwd < 16) then e.mSpace t d by_.hm else e
      else e) e
    if bitsOf v 0 2 = 0 then e else e.mbxEvt t 0x06 .note by_.hm (bitsOf v 0 2) 0

/-- MBX_FLUSH. -/
def execMbxFlush (by_ : Sender) (t : Nat) (v : Word) (s : State) : Out :=
  s.eff fun e => e.rowWrite by_ [(MBX_CTRL t, v)] fun e =>
    e.mbxFlush t by_ v

/-! ### The tenant event queue -/

/-- A read of MBX_EVQ_W0 by the tenant or the control core (R369). -/
def Engine.evqPop (e : Engine) (t : Nat) (by_ : Sender) : Word × Engine :=
  if by_.isTenant t = false ∧ by_.isCC = false then (0#32, e)
  else match Tbl.get [] e.mbx.evq t with
    | [] => (0#32, e.capture (MBX_EVQ_W0 t) by_.hm [0, 0, 0])
    | v :: vs =>
      let ws := v.words
      let e := e.updMbx fun m => { m with evq := Tbl.set [] m.evq t vs }
      (ws.headD 0#32, e.capture (MBX_EVQ_W0 t) by_.hm ((ws.drop 1).map (·.toNat)))

/-- EVQ_POP. -/
def execEvqPop (by_ : Sender) (t : Nat) (s : State) : Out :=
  s.eff fun e => Engine.answer (e.evqPop t by_)

/-- EVQ_OVERFLOW: the overflow record is written first once space frees (R370). -/
def execEvqOverflow (t : Nat) (s : State) : Out := s.eff fun e => e.evqOverflow t

/-! ### Doorbells and configuration -/

/-- A write of MBX_DB_RING (R371). -/
def Engine.bellRing (e : Engine) (t : Nat) (by_ : Sender) (v : Word) : Engine :=
  let path := !by_.dma && hmPriv by_.hm == 0 && hmTenant by_.hm == t && hmOrigin by_.hm == 2
  if e.mIgnored t by_ then e
  else if e.mHost t by_ || path || by_.isCC then
    (List.range 16).foldl (fun e k => if bitOf v k then e.ringBell t k by_ else e) e
  else e.mbxRefuse t by_ 0x500 1

/-- DOORBELL_RING. -/
def execDoorbellRing (by_ : Sender) (t : Nat) (v : Word) (s : State) : Out :=
  s.eff fun e => e.rowWrite by_ [(MBX_DB_RING t, v)] fun e =>
    e.bellRing t by_ v

/-- A write of MBX_DB_WAKE by the bound host side in IDLE or LISTEN requests RUN (R373);
the request is what PWR_REQ makes (R614). -/
def Engine.bellWake (e : Engine) (t : Nat) (by_ : Sender) (v : Word) : Engine :=
  let mode := e.get PWR_STATUS_MODE
  if e.mIgnored t by_ ∨ bitOf v 0 = false then e
  else if e.mHost t by_ = false then e.mbxRefuse t by_ 0x508 1
  else if mode = 1 ∨ mode = 2 then
    (e.requestRun 4).mbxEvt t 0x08 .note by_.hm by_.hm 0
  else e

/-- DOORBELL_WAKE. -/
def execDoorbellWake (by_ : Sender) (t : Nat) (s : State) : Out :=
  s.eff fun e => e.rowWrite by_ [(MBX_DB_WAKE t, 1#32)] fun e =>
    e.bellWake t by_ 1#32

/-- A write of MBX_CFG by the control core (R368, R376). -/
def Engine.mbxCfg (e : Engine) (t : Nat) (by_ : Sender) (v : Word) : Engine :=
  let v := v &&& 0xF31F1F07#32
  let old := e.rd (MBX_CFG t)
  let fixed (w : Word) : Word := w &&& 0x031F1F06#32
  if by_.isCC = false then e.mbxRefuse t by_ 0x000 8
  else if fixed v ≠ fixed old ∧ ((e.mdir t 0).busy ∨ (e.mdir t 1).busy) then e.mbxRefuse t by_ 0 6
  else e.wr (MBX_CFG t) v

/-- A write of MBX_DB_MAP[k] (R372). -/
def Engine.bellMap (e : Engine) (t k : Nat) (by_ : Sender) (v : Word) : Engine :=
  let v := v &&& 0xFFFF#32
  if by_.isCC = false then e.mbxRefuse t by_ (0x540 + 4 * k) 8
  else if bitOf v 15 ∧ e.descTenant (bitsOf v 0 12) ≠ some t then e.mbxRefuse t by_ (0x540 + 4 * k) 8
  else e.wr (MBX_DB_MAP t k) v

/-- A write of MSG[k] by the bound sender of a direction that is not FULL (R363, R365). -/
def Engine.mbxMsg (e : Engine) (t d off : Nat) (by_ : Sender) (v : Word) : Engine :=
  if e.mIgnored t by_ then e
  else match e.mRefused t d by_ with
    | some r => e.mbxRefuse t by_ off r
    | none => e.wr (MBX_CFG t + off) v

/-- A write anywhere in region `t` of MBX (R376, R377). -/
def Engine.mbxRegWrite (e : Engine) (by_ : Sender) (t off : Nat) (v : Word) : Engine :=
  let d := if off < 0x200 then 0 else 1
  let o := off - 0x100 * d
  if off = 0x000 then e.mbxCfg t by_ v
  else if off = 0x008 then e.mbxFlush t by_ v
  else if 0x100 ≤ off ∧ off < 0x300 then
    if o = 0x100 then e.mbxHdr t d by_ v
    else if o = 0x104 then e.mbxHdrc t d by_ v
    else if o = 0x108 then e.mbxData t d by_ v
    else if o = 0x110 then e.mbxGo t d by_ v
    else if 0x148 ≤ o ∧ o < 0x180 then e.mbxMsg t d off by_ v
    else e
  else if off = 0x500 then e.bellRing t by_ v
  else if off = 0x504 then
    if by_.isCC || (!by_.dma && hmTenant by_.hm == t && hmPriv by_.hm == 0 && hmOrigin by_.hm == 2) then
      e.wr (MBX_DB_PEND t) (e.rd (MBX_DB_PEND t) &&& ~~~ v)
    else if e.mIgnored t by_ then e
    else e.mbxRefuse t by_ off 1
  else if off = 0x508 then e.bellWake t by_ v
  else if 0x540 ≤ off ∧ off < 0x580 then e.bellMap t ((off - 0x540) / 4) by_ v
  else if t = 0 ∧ off = 0xF00 ∧ by_.isCC then e.wr MBX_EVT_STATUS (e.rd MBX_EVT_STATUS &&& ~~~ v)
  else if t = 0 ∧ off = 0xF04 ∧ by_.isCC then e.wr MBX_ISOL (v &&& 1#32)
  else e

/-- MBX_STAT (R376). -/
def Engine.mbxStat (e : Engine) (t : Nat) : Word :=
  let half (d : Nat) : Nat :=
    let x := e.mdir t d
    let blk := e.mBlock t d
    let free := if blk then (if x.blockFull then 0 else e.mBlen t d) else x.free
    let full := if blk then x.blockFull else x.free == 0
    free + 2 ^ 5 * full.toNat + 2 ^ 6 * x.msgs.length + 2 ^ 10 * x.isOpen.toNat
  BitVec.ofNat 32 (half 0 + 2 ^ 16 * half 1)

/-- A read anywhere in region `t` of MBX: by the tenant's hallmarks and the control core
(R355, R369, R376, R377). -/
def Engine.mbxRegRead (e : Engine) (by_ : Sender) (t off : Nat) : Word × Engine :=
  let d := if off < 0x200 then 0 else 1
  let o := off - 0x100 * d
  if by_.isCC = false ∧ by_.isTenant t = false then (0#32, e)
  else if off = 0x004 then (e.mbxStat t, e)
  else if 0x100 ≤ off ∧ off < 0x300 then
    if o = 0x100 then e.mbxHdrRead t d by_
    else if o = 0x10C then e.mbxPop t d by_
    else if o = 0x104 ∨ (0x148 ≤ o ∧ o < 0x180) then
      (if e.mReceiver t d by_ || e.mSender t d by_ then e.rd (MBX_CFG t + off) else 0#32, e)
    else (0#32, e)
  else if off = 0x400 then e.evqPop t by_
  else if 0x404 ≤ off ∧ off < 0x410 then
    (BitVec.ofNat 32 ((e.captured (MBX_EVQ_W0 t) by_.hm).getD ((off - 0x404) / 4) 0), e)
  else if off = 0x410 then (BitVec.ofNat 32 (Tbl.get [] e.mbx.evq t).length, e)
  else if off = 0x414 then (e.rd (MBX_EVQ_DROP t), e.wr (MBX_EVQ_DROP t) 0#32)
  else if 0xF00 ≤ off ∧ by_.isCC = false then (0#32, e)
  else (e.rd (MBX_CFG t + off), e)

end Sys2Proof.Machine
end

