-- ==== Sys2Proof/Machine/Num.lean ====
section
/-!
DEFINITION. The arithmetic of levels, ramps and time constants: narrowing with RND
(R14, R15), the Planish factor (R389), decibel levels, the limiter's release
coefficient (R399) and the test tone's sine (R380).
-/
namespace Sys2Proof.Machine

/-- 1.0 in s3.20. -/
def one20 : Int := 2 ^ 20

/-- v / 2^n with RND (R14). -/
def rndShift (v : Int) (n : Nat) : Int := (2 * v + 2 ^ n).fdiv (2 ^ (n + 1))

/-- A value held inside s.31 (R13, R15). -/
def clip31 (v : Int) : Int := clampInt (-(2 ^ 31)) (2 ^ 31 - 1) v

/-- A value held inside s8.31 (R13). -/
def clip39 (v : Int) : Int := clampInt (-(2 ^ 39)) (2 ^ 39 - 1) v

/-- The magnitude of R13 held at the largest code. -/
def mag31 (v : Int) : Int := min (2 ^ 31 - 1) v.natAbs

/-- The Planish factor f_k of a ramp of `len` samples: RND(2^20 (k + 1) / L), and 1.0
once the ramp has ended (R389). -/
def planish (len k : Nat) : Int :=
  if len ≤ k + 1 then one20
  else ((2 * ((2 ^ 20 * (k + 1) : Nat) : Int) + len) / (2 * len : Nat))

/-- A sample weighted by a factor in s3.20, narrowed to s.31 with RND (R389). -/
def weigh (x g : Int) : Int := if g = one20 then x else clip31 (rndShift (x * g) 20)

/-- The integer part of the `k`-th root of `v`, bit by bit from bit `n - 1` down. -/
def rootBits (k v : Nat) : Nat → Nat → Nat
  | 0, r => r
  | n + 1, r =>
    let t := r + 2 ^ n
    if t ^ k ≤ v then rootBits k v n t else rootBits k v n r

/-- RND(2^p × 10^(−c / d)): ⌊x + 1/2⌋ by way of the root of (2^(p+1) x)^d. -/
def dbCode (p c d : Nat) : Nat :=
  (rootBits d (2 ^ ((p + 1) * d) / 10 ^ c) (p + 2) 0 + 1) / 2

/-- The limiter's ceiling C for CEIL in 0.1 dB (R399). -/
def limCeil (c : Nat) : Int := min (2 ^ 31 - 1) (dbCode 31 c 200)

/-- The unit of the series below. -/
def serUnit : Nat := 2 ^ 128

/-- `n` further terms of a series in which term k + 1 is term k × x / ((k+1)(…)). -/
def expTerms : Nat → Nat → Nat → Nat → Int → Int
  | 0, _, _, _, acc => acc
  | n + 1, k, x, t, acc =>
    let t := t * x / (serUnit * k)
    expTerms n (k + 1) x t (if k % 2 = 1 then acc + t else acc - t)

/-- α = 1 − e^(−1000 / (fs × ms)) to 2^-30, correctly rounded (R399). -/
def limAlpha (fs ms : Nat) : Nat :=
  let x := serUnit * 1000 / (fs * ms)
  (rndShift (expTerms 40 1 x serUnit 0) 98).toNat

/-- π in units of `serUnit`. -/
def piUnit : Nat := 1069028584064966747859680373161870783300

/-- The terms of a sine: term k is the last × x² / ((2k)(2k+1)), signs alternating. -/
def sinTerms : Nat → Nat → Nat → Nat → Int → Int
  | 0, _, _, _, acc => acc
  | n + 1, k, x2, t, acc =>
    let t := t * x2 / (serUnit * (2 * k) * (2 * k + 1))
    sinTerms n (k + 1) x2 t (if k % 2 = 1 then acc - t else acc + t)

/-- sin(2π p / q) in units of `serUnit`, for p < q: folded to the first quadrant. -/
def sinTurn (p q : Nat) : Int :=
  let h := 2 * p
  let (neg, r) := if h < q then (false, h) else (true, h - q)
  let r := if q < 2 * r then q - r else r
  let x := piUnit * r / q
  let v := sinTerms 40 1 (x * x / serUnit) x (x : Int)
  if neg then -v else v

/-- The test tone's sample at `k` samples after its phase was zero: the sine of `f` Hz at
`lvl` dB below full scale (R380). The manual states the sine and not how its code is
rounded: which of the two nearest codes it is, is a free value. -/
def toneSample (fs f lvl k : Nat) : Int :=
  let a : Int := dbCode 60 lvl 20
  let v := (a * sinTurn (f * k % fs) fs).fdiv (2 ^ 157)
  clip31 (v + (if Config.toneRound fs f lvl k then 1 else 0))

end Sys2Proof.Machine
end

