-- ==== Sys2Proof/Machine/Audio.lean ====
section
/-!
DEFINITION. What ROUTE, SUMX, EQA and SAFE share: gain ramps and histories by ESC
(R29, R389), the index spaces of R380, samples in flight, the swap groups' states and
scopes (R417 to R420), and the working copies of table entries (R667, R668).
-/
namespace Sys2Proof.Machine

/-! ### Ramps and histories -/

/-- The gain a ramp applies at ESC `s` (R389). -/
def Ramp.at (r : Ramp) (s : Nat) : Int :=
  if s < r.at_ then r.from_
  else
    let f := planish r.len (s - r.at_)
    if f = one20 then r.to_ else rndShift (r.from_ * (one20 - f) + r.to_ * f) 20

/-- A ramp retargeted to `g` at ESC `s` over `len` samples starts from the gain then
applied (R392); `len` 0 is a step. An unchanged target keeps the ramp. -/
def Ramp.retarget (r : Ramp) (g : Int) (s len : Nat) : Ramp :=
  if r.to_ = g ∧ len ≠ 0 then r
  else if len = 0 then { from_ := g, to_ := g, at_ := s, len := 0 }
  else { from_ := if s = 0 then r.to_ else r.at (s - 1), to_ := g, at_ := s, len := len }

/-- An item put into a list by ESC, after those at the same ESC. -/
def insAt {α : Type} (s : Nat) (a : α) : List (Nat × α) → List (Nat × α)
  | [] => [(s, a)]
  | (t, b) :: l => if t ≤ s then (t, b) :: insAt s a l else (s, a) :: (t, b) :: l

/-- The last value at or before ESC `s`, else `d`. -/
def lastAt {α : Type} (d : α) (s : Nat) : List (Nat × α) → α
  | [] => d
  | (t, b) :: l => if t ≤ s then lastAt b s l else d

/-- The newest value. -/
def newest {α : Type} (d : α) (l : List (Nat × α)) : α := (l.getLast?.map Prod.snd).getD d

/-- The key of a sample in flight. -/
def smpKey (b i j : Nat) : Nat := (b % 4 * 8192 + i) * 32 + j

/-- Sample `j` of source `i` of block `b`, as gathered or taken. -/
def Engine.smp (e : Engine) (b i j : Nat) : Int := (Tbl.get 0#32 e.audio.smp (smpKey b i j)).toInt

/-- Samples of source `i` of block `b` stored from sample `j`. -/
def Engine.setSmps (e : Engine) (b i : Nat) : Nat → List Int → Engine
  | _, [] => e
  | j, v :: vs =>
    (e.updAudio fun a => { a with smp := Tbl.set 0#32 a.smp (smpKey b i j) (wordOfInt v) }).setSmps b i (j + 1) vs

/-- What SCATTER hands to destination `i` at sample `j` of block `b`. -/
def Engine.outSmp (e : Engine) (b i j : Nat) : Word := Tbl.get 0#32 e.audio.out (smpKey b i j)

def Engine.setOuts (e : Engine) (b i : Nat) : Nat → List Int → Engine
  | _, [] => e
  | j, v :: vs =>
    (e.updAudio fun a => { a with out := Tbl.set 0#32 a.out (smpKey b i j) (wordOfInt v) }).setOuts b i (j + 1) vs

/-- Neighbouring repeats removed. -/
def dedupNear : List Nat → List Nat
  | a :: b :: l => if a = b then dedupNear (b :: l) else a :: dedupNear (b :: l)
  | l => l

/-- The indices below `n` of an array of registers or entries at `base` that hold a word
other than its reset value. -/
def Engine.listedIdx (e : Engine) (base stride n : Nat) : List Nat :=
  dedupNear (e.regs.filterMap fun c =>
    if base ≤ c.1 ∧ c.1 < base + stride * n then some ((c.1 - base) / stride) else none)

/-! ### Index spaces (R380) -/

/-- The range of a source or destination index: its first index, its size at 48 kHz,
and whether 96 kHz halves it. -/
def idxRange (source : Bool) (i : Nat) : Option (Nat × Nat × Bool) :=
  if i < 0x0800 then some (0, 0x800, true)
  else if i < 0x0900 then some (0x800, 0x100, true)
  else if i < 0x0980 then some (0x900, 0x80, true)
  else if i < (if source then 0x0981 else 0x0983) then some (0x980, 3, false)
  else if 0x1000 ≤ i ∧ i < 0x1400 then some (0x1000, 0x400, true)
  else if source ∧ 0x1400 ≤ i ∧ i < 0x1500 then some (0x1400, 0x100, true)
  else if source ∧ (i = 0x1FFE ∨ i = 0x1FFF) then some (0x1FFE, 2, false)
  else none

/-- An index exists at the current rate (R41, R380). -/
def Engine.idxIn (e : Engine) (source : Bool) (i : Nat) : Bool :=
  match idxRange source i with
  | some (lo, n, half) => decide (i - lo < (if half && e.on TICK_CFG_RATE then n / 2 else n))
  | none => false

/-- The owner of destination `d` (R387). -/
def Engine.destOwner (e : Engine) (d : Nat) : Option Nat :=
  if e.cpOn (ROUTE_DOWN_V (d / 32)) then some (e.cp (ROUTE_DOWN_TENANT (d / 32))) else none

/-- Source `i` is granted to tenant `t` (R387). -/
def Engine.granted (e : Engine) (i t : Nat) : Bool :=
  decide (0x1FFE ≤ i) || (e.rd (ROUTE_SGRANT (i / 32))).getLsbD t

/-- Why a writer may not name source `i` (R386, R404): 2 RESERVED, 4 RATE, 3
NOT_GRANTED. The control core is not bound by grants. -/
def Engine.srcRefusal (e : Engine) (i : Nat) (tenant : Option Nat) : Option Nat :=
  if idxRange true i = none then some 2
  else if e.idxIn true i = false then some 4
  else match tenant with
    | some t => if e.granted i t then none else some 3
    | none => none

/-- The tenant a sender writes for; none for the control core. -/
def senderTenant (by_ : Sender) : Option Nat := if by_.isCC then none else some (hmTenant by_.hm)

/-- Path `p` exchanges samples with a core of its owner's (R384, R402). -/
def Engine.pathMapped (e : Engine) (p : Nat) : Bool :=
  e.on (ROUTE_PATH_EN p) && e.destOwner (0x1000 + p) == some (e.coreTenant (e.get (ROUTE_PATH_CORE p)))

/-- The address of sample `j` of block `b` in a path's buffer at bits [17:8] `buf` of core
`c` (R382, R383). -/
def pathAddr (c buf b j : Nat) : Nat := localAddr c (256 * buf + 128 * (b % 2) + 4 * j)

/-- The output of kind 1 path or 2 bus, index `i`, is valid for block `b` (R287). -/
def Engine.outValid (e : Engine) (kind i b : Nat) : Bool :=
  Tbl.get 0 e.sched.valid (1024 * kind + i) == b + 1

/-- Path `p`'s output is valid for block `b` (R42, R287, R384). -/
def Engine.pathValid (e : Engine) (p b : Nat) : Bool :=
  e.idxIn true (0x1000 + p) && e.pathMapped p && e.outValid 1 p b

/-- A sample of a path's OUT half (R383). -/
def Engine.pathOut (e : Engine) (p b j : Nat) : Int :=
  (e.ldW (pathAddr (e.get (ROUTE_PATH_CORE p)) (e.get (ROUTE_PATH_OUT p)) b j)).toInt

/-! ### Swap groups -/

/-- The state of group `g`: 0 IDLE, 1 CHECKING, 2 ARMED, 3 SYNCING (R428). -/
def Engine.grpState (e : Engine) (g : Nat) : Nat := e.get (SAFE_GRP_STATE_STATE g)

def Engine.grp (e : Engine) (g : Nat) : SafeGrp := Tbl.get {} e.safe.grp g

def Engine.updGrp (e : Engine) (g : Nat) (f : SafeGrp → SafeGrp) : Engine :=
  e.updSafe fun s => { s with grp := Tbl.set {} s.grp g (f (Tbl.get {} s.grp g)) }

/-- The first group for which `p` holds and whose state is one of those from `lo` up. -/
def Engine.grpFind (e : Engine) (lo : Nat) (p : Nat → Bool) : Option Nat :=
  (List.range 16).find? fun g => decide (lo ≤ e.grpState g) && p g

/-- The group that holds the ROUTE, SUMX or EQA scope ARMED or SYNCING (R420). -/
def Engine.armedRoute (e : Engine) : Option Nat := e.grpFind 2 fun g => e.cpOn (SAFE_GRP_CFG_ROUTE g)
def Engine.armedSumx (e : Engine) : Option Nat := e.grpFind 2 fun g => e.cpOn (SAFE_GRP_CFG_SUMX g)
def Engine.armedChain (e : Engine) (c : Nat) : Option Nat := e.grpFind 2 fun g => (e.grp g).chains.contains c
def Engine.armedParam (e : Engine) (t : Nat) : Option Nat :=
  e.grpFind 2 fun g => (e.cp (SAFE_GRP_CFG_PMASK g)).testBit t

/-- WRITE_ARMED (R420, R429). -/
def Engine.writeArmed (e : Engine) (by_ : Sender) (a g : Nat) : Engine :=
  let t := e.cp (SAFE_GRP_CFG_OWNER g)
  let v : Evt := { block := 0x0D, code := 0x05, sev := .warn, hm := by_.hm, w2 := a, w3 := g }
  if t < 16 then e.raiseT t v else e.raise v

/-! ### Working copies -/

/-- The working copy of the table word at `a` becomes the word stored there. -/
def Engine.keepCopy (e : Engine) (a : Nat) : Engine :=
  e.updAssay fun x => { x with hold := Tbl.setF resetWord x.hold a (e.rd a) }

/-- A stored table word at `a` found bad: the working copy is used and written back, and
the mismatch counts (R668); with a bad working copy the hold is lost (R669). -/
def Engine.tabMismatch (e : Engine) (a item : Nat) (owner : Option Nat) : Engine :=
  let v := e.rd a
  if e.assay.badHold.contains a then e.holdLost a
  else (e.wr a (Tbl.getF resetWord e.assay.hold a)).held item v owner

/-- The low half is the complement of the high half (R385, R393). -/
def halfOk (w : Word) : Bool := bitsOf w 16 16 + bitsOf w 0 16 == 65535

/-- The GCHK byte of a gain word (R393). -/
def gchkOk (w : Word) : Bool :=
  bitsOf w 24 8 == 255 - (bitsOf w 16 8 ^^^ bitsOf w 8 8 ^^^ bitsOf w 0 8)

/-- An access to a table entry or a register by a tenant that does not own it is an OWN
fault (R321). -/
def Engine.ownFault (e : Engine) (by_ : Sender) (a : Nat) (write : Bool) : Engine :=
  e.accessFault (hmTenant by_.hm) a a kOwn write by_.agent by_.hm

end Sys2Proof.Machine
end

