-- ==== Sys2Proof/Machine/Route.lean ====
section
/-!
DEFINITION. ROUTE: patch entries and banks, Planish, path samples in core memory and
what SCATTER takes (chapter "Router, Summing Matrix, Limiters and Meters", R380 to R392).
-/
namespace Sys2Proof.Machine

/-- A ROUTE event, to the owning tenant when there is one (R404). -/
def Engine.routeEvt (e : Engine) (owner : Option Nat) (code : Nat) (hm w2 w3 : Nat) : Engine :=
  let v : Evt := { block := 0x0A, code := code, sev := .warn, hm := hm, w2 := w2, w3 := w3 }
  match owner with | some t => e.raiseT t v | none => e.raise v

/-- The address of patch entry `d` of bank `k` (R385). -/
def patchAddr (k d : Nat) : Nat := 0x50000000 + 0x8000 * k + 4 * d

/-- A destination's state after a change at ESC `s` (R390 to R392, R672). -/
def DestSt.apply (x : DestSt) (s : Nat) : DestChg → DestSt
  | .entry v len =>
    let src := v % 2 ^ 13
    let inv := v.testBit 13
    let ramp := if v.testBit 15 then len else 0
    let x := if src = x.src ∧ inv = x.inv then x
      else { x with src := src, inv := inv, oldSrc := x.src, oldInv := x.inv, xAt := s, xLen := ramp }
    { x with mute := x.mute.retarget (if v.testBit 14 then 0 else one20) s ramp }
  | .pmute m len => { x with pm := x.pm.retarget (if m then 0 else one20) s len }
  | .quar len => { x with mute := x.mute.retarget 0 s len }

/-- Destination `d` as it stands at ESC `s`. -/
def DestHist.at (h : DestHist) (s : Nat) : DestSt :=
  h.chg.foldl (fun x c => if c.1 ≤ s then x.apply c.1 c.2 else x) h.base

/-- Changes before ESC `s` become the base. -/
def DestHist.prune (h : DestHist) (s : Nat) : DestHist :=
  { base := h.at (s - 1), chg := h.chg.filter fun c => s ≤ c.1 }

def Engine.destHist (e : Engine) (d : Nat) : DestHist := Tbl.get {} e.route.dest d

/-- A change of destination `d` from ESC `s` on (R29). -/
def Engine.destChange (e : Engine) (d s : Nat) (c : DestChg) : Engine :=
  let h := e.destHist d
  e.updRoute fun r => { r with dest := Tbl.set {} r.dest d { h with chg := insAt s c h.chg } }

/-- The ramp length of destination `d`: its owner's ROUTE_TRAMP, T0's without an owner. -/
def Engine.destLen (e : Engine) (d : Nat) : Nat :=
  e.get (ROUTE_TRAMP_LEN ((e.destOwner d).getD 0)) + 1

/-- A write stored into patch entry `d` of bank `k`. -/
def Engine.patchStore (e : Engine) (k d : Nat) (v : Word) : Engine :=
  (e.wr (patchAddr k d) v).keepCopy (patchAddr k d)

/-- A good write of the active entry of `d`: from ESC `s`, lifting a quarantine (R388, R672). -/
def Engine.patchActive (e : Engine) (hm k d s : Nat) (v : Word) : Engine :=
  ((e.patchStore k d v).destChange d s (.entry (bitsOf v 0 16) (e.destLen d))).quarLift (patchAddr k d) hm (e.destOwner d)

/-- Why a patch entry is refused (R386, R404): 1 COMPLEMENT, 2 RESERVED, 3 NOT_GRANTED, 4 RATE. -/
def Engine.patchRefusal (e : Engine) (by_ : Sender) (v : Word) : Option Nat :=
  if halfOk v = false then some 1 else e.srcRefusal (bitsOf v 0 13) (senderTenant by_)

/-- A sender may reach the entry of destination `d`: its owner and the control core (R386). -/
def Engine.destAdmits (e : Engine) (by_ : Sender) (d : Nat) : Bool :=
  by_.isCC || (match e.destOwner d with | some t => by_.isTenant t | none => false)

/-- A write of patch entry `d` of bank `k` (R386, R388, R420, R423). -/
def Engine.patchWrite (e : Engine) (by_ : Sender) (k d : Nat) (v : Word) : Engine :=
  let a := patchAddr k d
  let act := e.get ROUTE_STATUS_BANK
  if e.destAdmits by_ d = false then e.ownFault by_ a true
  else match e.patchRefusal by_ v with
    | some r =>
      let e := if r = 1 then e.count ASSAY_WRITE_CNT_COUNT else e
      e.routeEvt (e.destOwner d) 0x01 by_.hm a r
    | none =>
      if k = act then
        let old := e.rd a
        let follow := e.on SAFE_CTRL_SHADOW && e.rd (patchAddr (1 - k) d) == old
        let e := e.patchActive by_.hm k d e.bStarEsc v
        if follow then e.patchStore (1 - k) d v else e
      else match e.armedRoute with
        | some g => e.writeArmed by_ a g
        | none => (e.patchStore k d v).quarLift a by_.hm (e.destOwner d)

/-- PATCH_ENTRY_WRITE. -/
def execPatchEntryWrite (by_ : Sender) (k d : Nat) (v : Word) (s : State) : Out :=
  s.eff fun e => e.rowWrite by_ [(patchAddr (k % 2) (d % 8192), v)] fun e =>
    e.patchWrite by_ (k % 2) (d % 8192) v

/-- A TAQ PATCH at ESC `s`: the entry of the bank that is active then (R136, R388). -/
def Engine.patchTimed (e : Engine) (d s : Nat) (v : Word) : Engine :=
  e.patchActive 0xFF (e.get ROUTE_STATUS_BANK) d s v

/-- A write of ROUTE_MUTE_CMD, by the destination's owner or the control core: a Planish
ramp from sample 0 of b* (R391). -/
def Engine.muteCmd (e : Engine) (by_ : Sender) (v : Word) : Engine :=
  let d := bitsOf v 0 13
  if e.destAdmits by_ d ∧ (idxRange false d).isSome then
    e.destChange d e.bStarEsc (.pmute (bitOf v 16) (bitsOf v 20 12 + 1))
  else e.routeEvt (senderTenant by_) 0x03 by_.hm 0x010 0

/-- ROUTE_MUTE_CMD. -/
def execRouteMuteCmd (by_ : Sender) (v : Word) (s : State) : Out :=
  s.eff fun e => e.rowWrite by_ [(ROUTE_MUTE_CMD, v)] fun e =>
    e.muteCmd by_ v

/-- SAFE flips the patch bank at ESC `s`: every destination takes the entry of the new
bank, by that entry's RAMP bit; an entry in quarantine stays faded (R422, R672). -/
def Engine.patchFlip (e : Engine) (s : Nat) : Engine :=
  let k := 1 - e.get ROUTE_STATUS_BANK
  let ds := e.listedIdx (patchAddr 0 0) 4 8192 ++ e.listedIdx (patchAddr 1 0) 4 8192
  let e := e.put ROUTE_STATUS_BANK k
  ds.foldl (fun e d =>
    if e.isQuar (patchAddr k d) then e.destChange d s (.quar e.nSamp)
    else e.destChange d s (.entry (bitsOf (e.rd (patchAddr k d)) 0 16) (e.destLen d))) e

/-- The active patch entries checked once for the block entering COMPUTE (R667, R668). -/
def Engine.patchCheck (e : Engine) : Engine :=
  let k := e.get ROUTE_STATUS_BANK
  (e.listedIdx (patchAddr k 0) 4 8192).foldl (fun e d =>
    if halfOk (e.rd (patchAddr k d)) then e
    else e.tabMismatch (patchAddr k d) (patchAddr k d) (e.destOwner d)) e

/-! ### Samples -/

/-- Sample `j` of block `b` from source `i`; path and bus outputs as taken for block `ob`.
A source beyond the range of the rate is silence (R42, R380, R381). -/
def Engine.srcSample (e : Engine) (i b ob j : Nat) : Int :=
  if e.idxIn true i = false ∨ i = 0x1FFF then 0
  else if i = 0x1FFE then
    toneSample e.fs (e.get ROUTE_TONE_FREQ) (e.get ROUTE_TONE_LEVEL) ((b * e.nSamp + j) % e.fs)
  else if 0x1000 ≤ i then e.smp ob i j
  else e.smp b i j

/-- A selection: the source with its polarity (R385). -/
def Engine.selSample (e : Engine) (src : Nat) (inv : Bool) (b ob j : Nat) : Int :=
  let x := e.srcSample src b ob j
  if inv then clip31 (-x) else x

/-- What destination `d` receives at sample `j` of block `b` (R389 to R391). -/
def Engine.destSample (e : Engine) (h : DestHist) (b ob j : Nat) : Int :=
  let s := b * e.nSamp + j
  let x := h.at s
  let f := if x.xLen = 0 then one20 else planish x.xLen (s - x.xAt)
  let new := e.selSample x.src x.inv b ob j
  let v := if f = one20 then new
    else clip31 (clip31 (rndShift (new * f) 20)
      + clip31 (rndShift (e.selSample x.oldSrc x.oldInv b ob j * (one20 - f)) 20))
  weigh (weigh v (x.mute.at s)) (x.pm.at s)

/-- A block's samples faded linearly to zero or in from it (R23, R28, R60). -/
def fadeOut (n : Nat) (l : List Int) : List Int :=
  (l.zipIdx).map fun p => weigh p.1 (one20 - planish n p.2)
def fadeIn (n : Nat) (l : List Int) : List Int :=
  (l.zipIdx).map fun p => weigh p.1 (planish n p.2)

/-- ROUTE writes the IN half of every path for block `b` as it enters COMPUTE (R382). A
path on a core of another tenant gets none: PATH_MISMAP once per episode (R384). -/
def Engine.pathInputs (e : Engine) (b : Nat) : Engine :=
  let n := e.nSamp
  (e.listedIdx (ROUTE_PATH 0) 4 1024).foldl (fun e p =>
    if e.on (ROUTE_PATH_EN p) = false ∨ e.idxIn true (0x1000 + p) = false then e
    else if e.pathMapped p = false then
      if e.route.mismap.contains p then e
      else (e.updRoute fun r => { r with mismap := r.mismap ++ [p] }).routeEvt
        (e.destOwner (0x1000 + p)) 0x02 0xFF p 0
    else
      let e := e.updRoute fun r => { r with mismap := r.mismap.filter (· != p) }
      let c := e.get (ROUTE_PATH_CORE p)
      let h := e.destHist (0x1000 + p)
      let ws := (List.range n).map fun j => wordOfInt (e.destSample h b (b - 1) j)
      (e.memWrite none (pathAddr c (e.get (ROUTE_PATH_IN p)) b 0) ws).updRoute fun r => { r with
        mapped := Tbl.set 0 r.mapped p (b + 1) }) e

/-- The output of kind and index taken at the guard start: its samples when valid, else
the last sample of block b − 1 faded to zero (R22, R23). -/
def Engine.takeOut (e : Engine) (src b : Nat) (valid : Bool) (l : List Int) : Engine :=
  let n := e.nSamp
  let (blk, w) := Tbl.get (0, 0#32) e.route.last src
  let last := if blk = b then w.toInt else 0
  let l := if valid then l else fadeOut n (List.replicate n last)
  (e.setSmps b src 0 l).updRoute fun r => { r with
    last := Tbl.set (0, 0#32) r.last src (b + 1, wordOfInt (l.getLastD 0)) }

/-- SCATTER takes the outputs of every path and bus of block `b` (R22, R23). -/
def Engine.takeOutputs (e : Engine) (b : Nat) : Engine :=
  let n := e.nSamp
  let e := (e.listedIdx (ROUTE_PATH 0) 4 1024).foldl (fun e p =>
    if e.on (ROUTE_PATH_EN p) ∧ e.idxIn true (0x1000 + p) then
      e.takeOut (0x1000 + p) b (e.pathValid p b) ((List.range n).map (e.pathOut p b))
    else e) e
  (e.listedIdx (SUMX_BUS_CFG 0) 4 256).foldl (fun e k =>
    if e.on (SUMX_BUS_CFG_EN k) then
      e.takeOut (0x1400 + k) b (e.outValid 2 k b) ((List.range n).map (e.smp b (0x1400 + k)))
    else e) e

/-- How a relock or a stop shapes block `b` at the outputs (R28, R60, R72). -/
def Engine.shapeOut (e : Engine) (b : Nat) (l : List Int) : List Int :=
  let n := e.nSamp
  let dis (k : Nat) : Bool := e.tick.discard.contains k
  let last := match e.tick.stopG with | some g => decide (g ≤ (b + 1) * n) | none => false
  if e.tick.muted || dis b then l.map fun _ => 0
  else if last || dis (b + 1) then fadeOut n l
  else if 1 ≤ b ∧ dis (b - 1) = true then fadeIn n l
  else l

/-- SCATTER's outputs of block `b` for every port destination (R21, R22). -/
def Engine.scatter (e : Engine) (b : Nat) : Engine :=
  let n := e.nSamp
  let e := e.updAudio fun a => { a with outBlk := Tbl.set 0 a.outBlk (b % 4) (b + 1) }
  e.route.dest.foldl (fun e p =>
    if p.1 < 0x1000 ∧ e.idxIn false p.1 then
      e.setOuts b p.1 0 (e.shapeOut b ((List.range n).map (e.destSample p.2 b b)))
    else e) e

/-- What leaves destination `d` at ESC `s` of the sample clock: the sample gathered 2N
samples before, silence when that block was not scattered or outputs are muted (R21, R28). Once
a departure from a pair is announced, the last sample scattered before it repeats (R531). -/
def Engine.outAt (e : Engine) (d s : Nat) : Word :=
  let n := e.nSamp
  let at_ (b j : Nat) : Word := if Tbl.get 0 e.audio.outBlk (b % 4) = b + 1 then e.outSmp b d j else 0#32
  if s < 2 * n ∨ e.tick.muted then 0#32
  else match e.duo.plan.hold with
    | some b => at_ b (n - 1)
    | none => at_ ((s - 2 * n) / n) ((s - 2 * n) % n)

/-- Changes older than every block in flight are folded away. -/
def Engine.routePrune (e : Engine) (b : Nat) : Engine :=
  e.updRoute fun r => { r with dest := r.dest.map fun p => (p.1, p.2.prune ((b - 3) * e.nSamp)) }

/-- The checks of RUN (R42): active entries beyond the range of the rate. -/
def Engine.routeCapacity (e : Engine) : Engine :=
  let k := e.get ROUTE_STATUS_BANK
  (e.listedIdx (patchAddr k 0) 4 8192).foldl (fun e d =>
    let src := bitsOf (e.rd (patchAddr k d)) 0 13
    let beyond (source : Bool) (i : Nat) : Bool := (idxRange source i).isSome && !e.idxIn source i
    if beyond false d || beyond true src then
      e.routeEvt (e.destOwner d) 0x01 0xFF (patchAddr k d) 4
    else e) e

/-- REG_REFUSED (R402). -/
def Engine.routeRefuse (e : Engine) (by_ : Sender) (off : Nat) : Engine :=
  e.routeEvt (senderTenant by_) 0x03 by_.hm off 0

/-- A write of a ROUTE register (R402). ROUTE_TRAMP is its tenant's and the control
core's; the other registers are the control core's. -/
def Engine.routeRegWrite (e : Engine) (by_ : Sender) (off : Nat) (v : Word) : Engine :=
  let a := 0x400A0000 + off
  if off = 0x010 then e.muteCmd by_ v
  else if 0x040 ≤ off ∧ off < 0x080 then
    if by_.isCC || by_.isTenant ((off - 0x040) / 4) then e.wr a (v &&& 0xFFF#32) else e.routeRefuse by_ off
  else if by_.isCC = false then e.routeRefuse by_ off
  else if off = 0x004 then e.wr a (e.rd a &&& ~~~ v)
  else if off = 0x008 then
    if 20 ≤ bitsOf v 0 15 ∧ bitsOf v 0 15 ≤ 20000 ∧ bitsOf v 16 6 ≤ 60 then e.wr a (v &&& 0x3F7FFF#32)
    else e.routeRefuse by_ off
  else if 0x100 ≤ off ∧ off < 0x900 then e.wrCp a (v &&& 0x1F#32)
  else if 0x900 ≤ off ∧ off < 0xD00 then e.wr a (v &&& 0xFFFF#32)
  else if 0x1000 ≤ off ∧ off < 0x2000 then e.wr a (v &&& 0x0FFFFF1F#32)
  else e

end Sys2Proof.Machine
end

