-- ==== Sys2Proof/Machine/Sap.lean ====
section
/-!
DEFINITION. SAP: serial audio input and output frames, slots and their buffers, slave
resynchronisation and slips, driver clashes, and the block's registers (chapter "Serial
Audio Ports and MADI", R430 to R449).
-/
namespace Sys2Proof.Machine

/-- A SAP event (R462). -/
def sapEvt (code : Nat) (sev : Sev) (hm w2 w3 : Nat) : Evt :=
  { block := 0x0E, code := code, sev := sev, hm := hm, w2 := w2, w3 := w3 }

/-- The width code of SLOTW, DW and PULSEW. -/
def widthOf (c : Nat) : Nat := 16 + 8 * c

/-- Fields of a line's CFG word (R460). -/
def lnEn (w : Word) : Bool := bitOf w 0
def lnGrp (w : Word) : Nat := bitsOf w 1 2
def lnTdm (w : Word) : Bool := bitOf w 3
def lnSlots (w : Word) : Nat := bitsOf w 4 5 + 1
def lnDw (w : Word) : Nat := widthOf (bitsOf w 11 2)
def lnJust (w : Word) : Bool := bitOf w 13

/-- The frame length of a group (R431). -/
def grpBits (w : Word) : Nat := 2 ^ (bitsOf w 8 3 + 5)

/-- The width of a slot of a line in a group (R435). -/
def lnSlotW (cfg grp : Word) : Nat := if lnTdm cfg then widthOf (bitsOf cfg 9 2) else grpBits grp / 2

/-- The addresses of a line's CFG, MASK and BUF. -/
def lnAddr (out : Bool) (l : Nat) : Nat := 0x400E0100 + (if out then 0x100 else 0) + 32 * l

/-- The active slots of a line in slot order (R437). -/
def actives (cfg mask : Word) : List Nat := (List.range (lnSlots cfg)).filter fun i => mask.getLsbD i

/-- The address of sample `j` of block `b` of compacted position `a` of `n` slots (R437). -/
def portAddr (buf : Word) (n b j cnt a : Nat) : Nat :=
  buf.toNat / 256 * 256 + 4 * ((b % 2 * n + j) * cnt + a)

/-- A group's settings obey R431 at the current rate. -/
def Engine.grpOk (e : Engine) (w : Word) : Bool :=
  bitsOf w 2 2 != 3 && decide (bitsOf w 8 3 < 6) && bitsOf w 12 2 != 3
    && !(e.on TICK_CFG_RATE && decide (512 < grpBits w))

/-- `bytes` bytes from `a` lie inside one ingot owned by the port of owner code `code`. -/
def Engine.portBuf (e : Engine) (code a bytes : Nat) : Bool :=
  bytes = 0 || (match ingotOf a with
    | some n => ingotOf (a + bytes - 1) == some n && e.ingotOwner n == code
    | none => false)

/-- A line's settings obey R431, R434 and R437. -/
def Engine.lineOk (e : Engine) (cfg mask buf : Word) : Bool :=
  let g := e.rd (SAP_GRP_CFG (lnGrp cfg))
  let sync := bitsOf g 2 2
  let w := lnSlotW cfg g
  let cnt := (actives cfg mask).length
  e.grpOk g && bitsOf cfg 9 2 != 3 && bitsOf cfg 11 2 != 3
    && (if lnTdm cfg then
          (sync == 1 || sync == 2) && decide (lnSlots cfg * w ≤ grpBits g) && decide (lnDw cfg ≤ w)
            && !(e.on TICK_CFG_RATE && decide (16 < lnSlots cfg))
        else sync == 0 && lnSlots cfg == 2 && decide (lnDw cfg ≤ w))
    && decide (mask.toNat < 2 ^ lnSlots cfg)
    && e.portBuf 0x44 (buf.toNat / 256 * 256) (8 * e.nSamp * cnt)

/-- SAP is enabled and its clock runs (R430, R449). -/
def Engine.sapOn (e : Engine) : Bool := e.on SAP_CTRL_EN && !bitOf (e.rd CLK_GATE_STATUS) 18

/-- Group `g` runs. -/
def Engine.grpOn (e : Engine) (g : Nat) : Bool := e.sapOn && e.on (SAP_GRP_CFG_EN g)

/-- A line's words: CFG, MASK, BUF. -/
def Engine.lnCfg (e : Engine) (out : Bool) (l : Nat) : Word := e.rd (lnAddr out l)
def Engine.lnMask (e : Engine) (out : Bool) (l : Nat) : Word := e.rd (lnAddr out l + 4)
def Engine.lnBuf (e : Engine) (out : Bool) (l : Nat) : Word := e.rd (lnAddr out l + 8)

/-- The enabled lines of group `g`. -/
def Engine.grpLines (e : Engine) (out : Bool) (g : Nat) : List Nat :=
  (List.range 8).filter fun l => lnEn (e.lnCfg out l) && lnGrp (e.lnCfg out l) == g

/-- The router index of slot `i` of line `l` (R438). -/
def Engine.sapIdx (e : Engine) (l i : Nat) : Nat :=
  0x800 + (if e.on TICK_CFG_RATE then 16 else 32) * l + i

def Engine.sapLine (e : Engine) (l : Nat) : SapLine := Tbl.get {} e.sap.line l

def Engine.updSapLine (e : Engine) (l : Nat) (f : SapLine → SapLine) : Engine :=
  e.updSap fun x => { x with line := Tbl.set {} x.line l (f (Tbl.get {} x.line l)) }

/-! ### Input -/

/-- The sample a slot of width `w` holds (R436). -/
def slotIn (cfg : Word) (w raw : Nat) : Int :=
  let dw := lnDw cfg
  let d := (if lnJust cfg then raw else raw / 2 ^ (w - dw)) % 2 ^ dw
  (BitVec.ofNat 32 (d * 2 ^ (32 - dw))).toInt

/-- The value a port delivers at ESC `s` from received value `v`, with its fades (R447,
R448): after a loss the last good sample fades out over 16 samples and then zeros follow. -/
def portFade (lost back : Option Nat) (last v : Int) (s : Nat) : Int :=
  let isLost := match lost, back with
    | some f, some r => decide (f ≤ s ∧ s < r)
    | some f, none => decide (f ≤ s)
    | none, _ => false
  if isLost then weigh last (one20 - planish 16 (s - lost.getD 0))
  else match back with
    | some r => if r ≤ s ∧ s < r + 16 then weigh v (planish 16 (s - r)) else v
    | none => v

/-- The port is in a loss at ESC `s`. -/
def portLost (lost back : Option Nat) (s : Nat) : Bool :=
  match lost, back with
  | some f, some r => decide (f ≤ s ∧ s < r)
  | some f, none => decide (f ≤ s)
  | none, _ => false

/-- A sample gathered from source `i` for ESC `s`; a mirrored input is kept apart until its
MIRROR frame's block (R523). -/
def Engine.gatherPut (e : Engine) (i s : Nat) (v : Int) : Engine :=
  let i := if e.mirrored (e.inputPort i) then i + 0x1000 else i
  e.setSmps (s / e.nSamp) i (s % e.nSamp) [v]

/-- A line is lost from ESC `s` on, unless it already is. -/
def SapLine.lose (x : SapLine) (s : Nat) : SapLine :=
  match x.lost, x.back with
  | some _, none => x
  | _, _ => { x with lost := some s, back := none }

/-- The slots of line `l` for ESC `s`: received bits when a frame delivers them, else the
last sample again (R442); each goes to its source and to the buffer. A buffer that SAP does
not own is a buffer fault, which loses the line (R440). -/
def Engine.gatherLine (e : Engine) (l s : Nat) (raw : Option (List Nat)) : Engine :=
  let cfg := e.lnCfg false l
  let n := e.nSamp
  let as_ := actives cfg (e.lnMask false l)
  let w := lnSlotW cfg (e.rd (SAP_GRP_CFG (lnGrp cfg)))
  let addr (a : Nat) : Nat := portAddr (e.lnBuf false l) n (s / n) (s % n) as_.length a
  let ok := as_.isEmpty || e.blockAccess 0x44 (addr 0)
  let e := if ok then
      if e.on (SAP_IN_STATUS_FAULT l) then
        let e := e.put (SAP_IN_STATUS_FAULT l) 0
        if e.get (SAP_GRP_STATUS_STATE (lnGrp cfg)) = 2 then e.updSapLine l fun x => { x with back := some s } else e
      else e
    else
      let e := if e.on (SAP_IN_STATUS_FAULT l) then e
        else (e.put (SAP_IN_STATUS_FAULT l) 1).raise (sapEvt 0x07 .fault 0xFF l 0)
      e.updSapLine l fun x => x.lose s
  let x := e.sapLine l
  let lost := portLost x.lost x.back s
  as_.zipIdx.foldl (fun e p =>
    let old := Tbl.get 0 x.last p.1
    let v := match raw with | some r => slotIn cfg w (r.getD p.1 0) | none => old
    let y := portFade x.lost x.back old v s
    let e := if lost then e else e.updSapLine l fun x => { x with last := Tbl.set 0 x.last p.1 v }
    let e := e.gatherPut (e.sapIdx l p.1) s y
    if ok then e.memWrite none (addr p.2) [wordOfInt y] else e) e

/-- The input lines of every group gathered at the edge of ESC `s` (R441, R442). -/
def Engine.sapGather (e : Engine) (s : Nat) : Engine :=
  let e := (List.range 4).foldl (fun e g =>
    if e.grpOn g = false then e
    else
      let f := e.sap.frames.find? fun f => f.grp == g && f.esc == s
      let slave := !e.on (SAP_GRP_CFG_MASTER g)
      let e := if f.isNone && slave && e.get (SAP_GRP_STATUS_STATE g) == 2
          && decide (Tbl.get none e.sap.lastTo g ≠ none) then
          (e.count (SAP_GRP_COUNT_SLIPS g)).raise (sapEvt 0x05 .warn 0xFF g 1)
        else e
      (e.grpLines false g).foldl (fun e l =>
        e.gatherLine l s (f.map fun f => f.lines.getD l [])) e) e
  e.updSap fun x => { x with frames := x.frames.filter fun f => s < f.esc }

/-- Group `g` enters RESYNC: its inputs are lost from ESC `s`, and its drivers are released
(R447, R448). -/
def Engine.grpResync (e : Engine) (g reason s : Nat) : Engine :=
  let e := ((e.put (SAP_GRP_STATUS_STATE g) 1).count (SAP_GRP_COUNT_RESYNCS g)).raise
    (sapEvt 0x03 .warn 0xFF g reason)
  let e := (e.grpLines false g).foldl (fun e l => e.updSapLine l fun x => x.lose s) e
  let e := (e.grpLines true g).foldl (fun e l =>
    e.updSap fun x => { x with wire := Tbl.set [] x.wire l [] }) e
  e.updSap fun x => { x with cand := Tbl.set none x.cand g none }

/-- The frame that began in RESYNC at ESC `k` has ended with a correct count: LOCKED, the
inputs good from it on, the next 16 output samples faded in (R448). -/
def Engine.grpLock (e : Engine) (g k : Nat) : Engine :=
  let e := (e.put (SAP_GRP_STATUS_STATE g) 2).raise (sapEvt 0x04 .note 0xFF g 0)
  let e := (e.grpLines false g).foldl (fun e l =>
    if e.on (SAP_IN_STATUS_FAULT l) then e
    else e.updSapLine l fun x => if x.lost.isSome then { x with back := some k } else x) e
  e.updSap fun x => { x with
    cand := Tbl.set none x.cand g none, outIn := Tbl.set 0 x.outIn g 16 }

/-- What the bit periods since the last sync say of a slave group (R447, R448). -/
def Engine.grpSync (e : Engine) (g bits k : Nat) : Engine :=
  let good := bits == grpBits (e.rd (SAP_GRP_CFG g))
  if e.on (SAP_GRP_CFG_MASTER g) then e
  else if e.get (SAP_GRP_STATUS_STATE g) = 2 then
    if good then e
    else
      let s := max ((Tbl.get none e.sap.lastTo g).getD k) (e.tick.esc + 1)
      let e := e.grpResync g 2 s
      e.updSap fun x => { x with cand := Tbl.set none x.cand g (some k) }
  else match Tbl.get none e.sap.cand g with
    | some c =>
      if good then e.grpLock g c
      else e.updSap fun x => { x with cand := Tbl.set none x.cand g (some k) }
    | none => e.updSap fun x => { x with cand := Tbl.set none x.cand g (some k) }

/-- SAMPLE_MARGIN once per episode of a line; a frame without one ends it (R446). -/
def Engine.sapMargin (e : Engine) (l : Nat) (slots : List Nat) : Engine :=
  match slots with
  | [] => e.updSap fun x => { x with marginEp := x.marginEp.filter (· != l) }
  | i :: _ =>
    let e := if e.on (SAP_IN_STATUS_MARGIN l) then e
      else (e.put (SAP_IN_STATUS_MARGIN l) 1).put (SAP_IN_STATUS_MSLOT l) i
    if e.sap.marginEp.contains l then e
    else (e.updSap fun x => { x with marginEp := x.marginEp ++ [l] }).raise (sapEvt 0x02 .note 0xFF l i)

/-- An input frame of group `g` begins in the sample period of ESC k: it delivers ESC k + 2.
`bits` are the bit periods since the last sync, `phase` the slave's phase, and `margin` the
slots of each line whose sampling saw a transition (R441, R442, R446, R447). -/
def Engine.sapInput (e : Engine) (g bits phase : Nat) (lines margin : List (List Nat)) : Engine :=
  if e.grpOn g = false then e
  else
    let k := e.tick.esc + 2
    let e := e.grpSync g bits k
    let slave := !e.on (SAP_GRP_CFG_MASTER g)
    let e := if slave then e.put (SAP_GRP_STATUS_PHASE g) phase else e
    let again := e.sap.frames.any fun f => f.grp == g && f.esc == k
    let e := if again && slave && e.get (SAP_GRP_STATUS_STATE g) == 2 then
        (e.count (SAP_GRP_COUNT_SLIPS g)).raise (sapEvt 0x05 .warn 0xFF g 0)
      else e
    let e := (e.grpLines false g).foldl (fun e l =>
      e.sapMargin l ((margin.getD l []).filter (actives (e.lnCfg false l) (e.lnMask false l)).contains)) e
    e.updSap fun x => { x with
      frames := (x.frames.filter fun f => !(f.grp == g && f.esc == k)) ++ [{ grp := g, esc := k, lines := lines }],
      lastTo := Tbl.set none x.lastTo g (some k) }

/-- SAP_INPUT_FRAME. -/
def execSapInputFrame (g bits phase : Nat) (lines margin : List (List Nat)) (s : State) : Out :=
  s.eff fun e => e.sapInput (g % 4) bits phase lines margin

/-- SAP_CLOCK_LOSS: a slave group with no SCK edge for 4 bit periods (R447). The frame that
was being received is the first one affected. -/
def execSapClockLoss (g : Nat) (s : State) : Out :=
  s.eff fun e =>
    let g := g % 4
    if e.grpOn g = false ∨ e.on (SAP_GRP_CFG_MASTER g) = true then e
    else if e.get (SAP_GRP_STATUS_STATE g) = 2 then
      e.grpResync g 1 (max ((Tbl.get none e.sap.lastTo g).getD 0) (e.tick.esc + 1))
    else e.updSap fun x => { x with cand := Tbl.set none x.cand g none }

/-! ### Output -/

/-- A sample narrowed to `dw` bits, and whether it saturated (R14, R15, R436). -/
def narrowTo (dw : Nat) (trn : Bool) (v : Int) : Int × Bool :=
  let n := 32 - dw
  let r := if n = 0 then v else if trn then v.fdiv (2 ^ n) else rndShift v n
  let c := clampInt (-(2 ^ (dw - 1))) (2 ^ (dw - 1) - 1) r
  (c, c != r)

/-- The bits of a slot of width `w` that carry a narrowed sample (R436). -/
def slotOut (cfg : Word) (w : Nat) (v : Int) : Nat :=
  let d := (v % 2 ^ lnDw cfg).toNat
  if lnJust cfg then d else d * 2 ^ (w - lnDw cfg)

/-- The output lines may drive (R449). -/
def Engine.sapDrives (e : Engine) (g : Nat) : Bool :=
  e.grpOn g && e.outEnabled && e.get (SAP_GRP_STATUS_STATE g) == 2

/-- SLOT_CLASH of line `l` in slots `bad` of the frame (R445). -/
def Engine.sapClash (e : Engine) (l : Nat) (bad : List Nat) : Engine :=
  let e := e.put (SAP_OUT_STATUS_RELEASED l) 0
  match bad with
  | [] => e.updSap fun x => { x with clashEp := x.clashEp.filter (· != l) }
  | i :: _ =>
    let e := if e.on (SAP_OUT_STATUS_CLASH l) then e
      else (e.put (SAP_OUT_STATUS_CLASH l) 1).put (SAP_OUT_STATUS_CSLOT l) i
    let e := if e.on (SAP_DRV_POLICY l) then e.put (SAP_OUT_STATUS_RELEASED l) 1 else e
    if e.sap.clashEp.contains l then e
    else (e.updSap fun x => { x with clashEp := x.clashEp ++ [l] }).raise (sapEvt 0x01 .warn 0xFF l i)

/-- The samples of line `l` still to be faded in: its group's, or its own after a buffer fault. -/
def Engine.sapOutLeft (e : Engine) (g l : Nat) : Nat := max (Tbl.get 0 e.sap.outIn g) (Tbl.get 0 e.sap.outIn (4 + l))

/-- One slot of an output frame: the sample faded and narrowed, and whether it saturated. -/
def Engine.sapSlot (e : Engine) (l i g : Nat) : Nat × Bool :=
  let cfg := e.lnCfg true l
  let v : Int := if e.stopped then 0 else (e.outAt (e.sapIdx l i) e.tick.esc).toInt
  let left := e.sapOutLeft g l
  let v := if left = 0 then v else weigh v (planish 16 (16 - left))
  let (d, sat) := narrowTo (lnDw cfg) (bitOf cfg 14) v
  (slotOut cfg (lnSlotW cfg (e.rd (SAP_GRP_CFG g))) d, sat)

/-- Line `l` drives one frame; `bad` are the slots in which the pad senses another level
(R443 to R445). Outside its active slots it is high-impedance, or drives zero with IDLE. -/
def Engine.sapLineOut (e : Engine) (g l : Nat) (bad : List Nat) : Engine :=
  let cfg := e.lnCfg true l
  let as_ := actives cfg (e.lnMask true l)
  if e.sapDrives g = false ∨ e.on (SAP_OUT_STATUS_FAULT l) = true then
    e.updSap fun x => { x with wire := Tbl.set [] x.wire l [] }
  else
    let driven := if bitOf cfg 15 then List.range (lnSlots cfg) else as_
    let bad := if e.on (SAP_DRV_CHECK l) then driven.filter bad.contains else []
    let e := e.sapClash l bad
    let cut := if e.on (SAP_OUT_STATUS_RELEASED l) then bad.head? else none
    let e := if as_.any fun i => (e.sapSlot l i g).2 then e.put (SAP_OUT_STATUS_SAT l) 1 else e
    let w := (List.range (lnSlots cfg)).map fun i =>
      let off := match cut with | some c => decide (c < i) | none => false
      if off then none
      else if as_.contains i then some (e.sapSlot l i g).1
      else if bitOf cfg 15 then some 0 else none
    e.updSap fun x => { x with wire := Tbl.set [] x.wire l w, outIn := Tbl.set 0 x.outIn (4 + l) (Tbl.get 0 x.outIn (4 + l) - 1) }

/-- SAP_OUTPUT_FRAME: the frame that begins in the current sample period carries the sample
gathered 2N samples before (R441). -/
def Engine.sapOutput (e : Engine) (g : Nat) (bad : List (List Nat)) : Engine :=
  let e := (e.grpLines true g).foldl (fun e l => e.sapLineOut g l (bad.getD l [])) e
  if e.sapDrives g then
    e.updSap fun x => { x with outIn := Tbl.set 0 x.outIn g (Tbl.get 0 x.outIn g - 1) }
  else e

def execSapOutputFrame (g : Nat) (bad : List (List Nat)) (s : State) : Out :=
  s.eff fun e => e.sapOutput (g % 4) bad

/-- SCATTER stores block `b` of each output line in its buffer (R437, R440). -/
def Engine.sapScatter (e : Engine) (b : Nat) : Engine :=
  (List.range 8).foldl (fun e l =>
    let cfg := e.lnCfg true l
    let as_ := actives cfg (e.lnMask true l)
    let n := e.nSamp
    let addr (j a : Nat) : Nat := portAddr (e.lnBuf true l) n b j as_.length a
    if lnEn cfg = false ∨ e.grpOn (lnGrp cfg) = false ∨ as_.isEmpty = true then e
    else if e.blockAccess 0x44 (addr 0 0) then
      let e := if e.on (SAP_OUT_STATUS_FAULT l) then
          (e.put (SAP_OUT_STATUS_FAULT l) 0).updSap fun x => { x with outIn := Tbl.set 0 x.outIn (4 + l) 16 }
        else e
      (List.range n).foldl (fun e j => as_.zipIdx.foldl (fun e p =>
        e.memWrite none (addr j p.2) [e.outSmp b (e.sapIdx l p.1) j]) e) e
    else if e.on (SAP_OUT_STATUS_FAULT l) then e
    else (e.put (SAP_OUT_STATUS_FAULT l) 1).raise (sapEvt 0x07 .fault 0xFF (l + 8) 0)) e

/-! ### Registers -/

/-- CFG_REFUSED (R439). -/
def Engine.sapRefuse (e : Engine) (by_ : Sender) (off : Nat) : Engine :=
  e.raise (sapEvt 0x06 .warn by_.hm off 0)

/-- The state of a group follows its enables: a master is LOCKED at once, a slave looks for
its sync (R433, R448). -/
def Engine.grpStart (e : Engine) (g : Nat) : Engine :=
  let st := if e.grpOn g = false then 0 else if e.on (SAP_GRP_CFG_MASTER g) then 2 else 1
  let e := (e.put (SAP_GRP_STATUS_STATE g) st).put (SAP_GRP_STATUS_PHASE g) 0
  let e := e.updSap fun x => { x with
    lastTo := Tbl.set none x.lastTo g none, cand := Tbl.set none x.cand g none,
    frames := x.frames.filter fun f => f.grp != g }
  if st = 1 then
    (e.grpLines false g).foldl (fun e l => e.updSapLine l fun _ => { lost := some e.tick.esc }) e
  else e

/-- A line is enabled afresh. -/
def Engine.lineStart (e : Engine) (out : Bool) (l : Nat) : Engine :=
  if out then e.put (SAP_OUT_STATUS_FAULT l) 0
  else
    let locked := e.get (SAP_GRP_STATUS_STATE (lnGrp (e.lnCfg false l))) == 2
    (e.put (SAP_IN_STATUS_FAULT l) 0).updSapLine l fun _ =>
      if locked then {} else { lost := some e.tick.esc }

/-- A write of a line's CFG, MASK or BUF (R437, R439). An enabled line accepts only a write
that clears its EN; the rules are checked whole on the line as it would stand enabled. -/
def Engine.sapLineWrite (e : Engine) (by_ : Sender) (out : Bool) (l r off : Nat) (v : Word) : Engine :=
  let a := lnAddr out l
  let old := e.rd a
  let v := if r = 0 then v &&& (if out then 0xFFFF#32 else 0x3FFF#32)
    else if r = 8 then v &&& 0xFFFFFF00#32 else v
  let cfg := if r = 0 then v else old
  let mask := if r = 4 then v else e.rd (a + 4)
  let buf := if r = 8 then v else e.rd (a + 8)
  let frozen := lnEn old && (r == 4 || (r == 0 && (v ||| 1#32) != old))
  if frozen || (lnEn cfg && !e.lineOk cfg mask buf)
      || (r == 0 && (bitsOf v 9 2 == 3 || bitsOf v 11 2 == 3)) then e.sapRefuse by_ off
  else
    let e := e.wr (a + r) v
    if r = 0 ∧ lnEn old = false ∧ lnEn v = true then e.lineStart out l else e

/-- A write of SAP_GRP_CFG (R431, R439). -/
def Engine.sapGrpWrite (e : Engine) (by_ : Sender) (g off : Nat) (v : Word) : Engine :=
  let v := v &&& 0x377F#32
  if e.grpLines false g ≠ [] ∨ e.grpLines true g ≠ [] ∨ e.grpOk v = false then e.sapRefuse by_ off
  else (e.wr (SAP_GRP_CFG g) v).grpStart g

/-- A write of a SAP register (R439, R460). -/
def Engine.sapRegWrite (e : Engine) (by_ : Sender) (off : Nat) (v : Word) : Engine :=
  let a := 0x400E0000 + off
  if by_.isCC = false then e.sapRefuse by_ off
  else if off = 0 then
    let was := e.on SAP_CTRL_EN
    let e := e.wr a (v &&& 1#32)
    if was = e.on SAP_CTRL_EN then e else (List.range 4).foldl Engine.grpStart e
  else if off = 4 then e.wr a (e.rd a &&& ~~~ v)
  else if 0x40 ≤ off ∧ off < 0x80 then
    if off % 16 = 0 then e.sapGrpWrite by_ ((off - 0x40) / 16) off v else e
  else if 0x100 ≤ off ∧ off < 0x300 then
    let out := decide (0x200 ≤ off)
    let l := off % 256 / 32
    let r := off % 32
    if r < 12 then e.sapLineWrite by_ out l r off v
    else if r = 12 then e.wr a (e.rd a &&& ~~~ (v &&& (if out then 5#32 else 1#32)))
    else if r = 16 ∧ out = true then e.wr a (v &&& 0xF#32)
    else e
  else e

/-- RUN is set: lines and groups that break the rules at the rate are disabled (R439). -/
def Engine.sapCapacity (e : Engine) : Engine :=
  let e := (List.range 4).foldl (fun e g =>
    if e.on (SAP_GRP_CFG_EN g) ∧ e.grpOk (e.rd (SAP_GRP_CFG g)) = false then
      ((e.put (SAP_GRP_CFG_EN g) 0).grpStart g).raise (sapEvt 0x06 .warn 0xFF (0x40 + 16 * g) 0)
    else e) e
  [false, true].foldl (fun e out => (List.range 8).foldl (fun e l =>
    if lnEn (e.lnCfg out l) ∧ e.lineOk (e.lnCfg out l) (e.lnMask out l) (e.lnBuf out l) = false then
      (e.wr (lnAddr out l) (e.lnCfg out l &&& 0xFFFFFFFE#32)).raise
        (sapEvt 0x06 .warn 0xFF (lnAddr out l - 0x400E0000) 0)
    else e) e) e

end Sys2Proof.Machine
end

