-- ==== Sys2Proof/Machine/Cue.lean ====
section
/-!
DEFINITION. CUE: jack detection, microphone and buttons, the headphone and loudspeaker
outputs with the loudspeaker state machine, silence detection, and the pre-roll ring
(chapter "Cue Section: Headset, Loudspeaker and Listen", R542 to R570).
-/
namespace Sys2Proof.Machine

/-- A CUE event carries the owner of destinations 0x0980 to 0x0982, tenant 0 without one
(R570). -/
def Engine.cueEvt (e : Engine) (code : Nat) (sev : Sev) (w2 w3 : Nat) (hm : Nat := 0xFF) : Engine :=
  let v : Evt := { block := 0x14, code := code, sev := sev, hm := hm, w2 := w2, w3 := w3 }
  match e.destOwner 0x980 with
  | some t => e.raiseT t v
  | none => e.raise v

/-- An event that carries the Listen tenant (R570). -/
def Engine.listenEvt (e : Engine) (code : Nat) (sev : Sev) (w2 : Nat) (hm : Nat := 0xFF) : Engine :=
  e.raiseT (e.get CUE_LISTEN_TENANT) { block := 0x14, code := code, sev := sev, hm := hm, w2 := w2 }

/-- The cue section runs: enabled, clocked and powered (R542, R569, R691). -/
def Engine.cueOn (e : Engine) : Bool :=
  e.on CUE_CTRL_EN && !bitOf (e.rd CLK_GATE_STATUS) 20 && e.cue.power

/-- RUN or IDLE (R608). -/
def Engine.fullMode (e : Engine) : Bool := decide (e.get PWR_STATUS_MODE < 2) && !e.pwr.dormant

/-- The output enable of the cue amplifiers (R500, R555). -/
def Engine.cueOutEn (e : Engine) : Bool := e.outEnabled && !e.stopped && e.fullMode

def Engine.jackClass (e : Engine) : Nat := e.get CUE_JACK_STATUS_CLASS
def Engine.headset (e : Engine) : Bool := e.jackClass == 2 || e.jackClass == 3

/-- The microphone bias is present (R544, R547). -/
def Engine.biased (e : Engine) : Bool :=
  e.cueOn && !e.pwr.dormant && e.headset && e.on CUE_MIC_CFG_EN && !e.cue.muted

/-! ### The loudspeaker state machine (R555) -/

def spkOff : Nat := 0
def spkSoft : Nat := 1
def spkOn : Nat := 2
def spkSleep : Nat := 3
def spkTripped : Nat := 4
def spkLatched : Nat := 5
def spkThermal : Nat := 6
def spkReady : Nat := 7

def Engine.spk (e : Engine) : Nat := e.get CUE_SPK_STATUS_STATE
def Engine.spkTo (e : Engine) (st : Nat) : Engine := e.put CUE_SPK_STATUS_STATE st

/-- fs / 100 samples: the loudspeaker's fade-in and the delay of silence detection. -/
def Engine.tenMs (e : Engine) : Nat := e.fs / 100

/-- A soft-start begins, with Quench held. -/
def Engine.softStart (e : Engine) : Engine :=
  (e.spkTo spkSoft).updCue fun c => { c with quench := true }

/-- Output 1 leaves SLEEP. -/
def Engine.silForget (e : Engine) (o : Nat) : Engine :=
  (e.put ⟨CUE_SIL_STATUS, o, 1⟩ 0).updCue fun c => { c with sil := Tbl.set {} c.sil o {} }

/-- The transitions that enables, modes and roles cause. -/
def Engine.spkSettle (e : Engine) : Engine :=
  let st := e.spk
  if e.cueOn = false ∨ e.on CUE_SPK_CFG_EN = false ∨ e.fullMode = false then
    if st = spkOff then e else ((e.spkTo spkOff).silForget 1).updCue fun c => { c with quench := true }
  else if st = spkOff then
    if e.cueOutEn then e.softStart else (e.spkTo spkReady).updCue fun c => { c with quench := true }
  else if st = spkReady then
    if e.cueOutEn then (e.spkTo spkOn).updCue fun c => { c with quench := false, spkStep := e.tenMs } else e
  else if (st = spkOn ∨ st = spkSoft ∨ st = spkSleep) ∧ e.cueOutEn = false then e.spkTo spkReady
  else e

/-- SPK_TRIP: overcurrent in SOFTSTART or ON (R555, R556). -/
def execSpkTrip (s : State) : Out :=
  s.eff fun e =>
    if e.spk = spkSoft ∨ e.spk = spkOn then
      let n := e.get CUE_SPK_STATUS_ATTEMPTS
      let e := (e.updCue fun c => { c with quench := true }).cueEvt 0x06 .warn n 0
      if n < 7 then e.spkTo spkTripped
      else ((e.spkTo spkLatched).put CUE_SPK_STATUS_FINAL 1).cueEvt 0x07 .fault 0 0
    else e

/-- SPK_SOFTSTART_DONE: 10 ms without a trip; Quench is released (R554, R555). -/
def execSpkSoftstartDone (s : State) : Out :=
  s.eff fun e =>
    if e.spk = spkSoft then (e.spkTo spkOn).updCue fun c => { c with quench := false, spkStep := 0 } else e

/-- SPK_RETRY: 100 ms after a trip; a hot driver is found in THERMAL and spends no attempt
(R555, Corners "Overheating and short together"). -/
def execSpkRetry (s : State) : Out :=
  s.eff fun e =>
    if e.spk ≠ spkTripped then e
    else if e.cue.hot then (e.spkTo spkThermal).cueEvt 0x08 .warn 1 0
    else (e.put CUE_SPK_STATUS_ATTEMPTS (e.get CUE_SPK_STATUS_ATTEMPTS + 1)).softStart

/-- SPK_ATTEMPTS_RESET: 1 s in ON without a trip (R555). -/
def execSpkAttemptsReset (s : State) : Out :=
  s.eff fun e => if e.spk = spkOn then e.put CUE_SPK_STATUS_ATTEMPTS 0 else e

/-- A refused CUE write (R569). -/
def Engine.cueRefuse (e : Engine) (by_ : Sender) (off : Nat) : Engine := e.cueEvt 0x0E .warn off 0 by_.hm

/-- A write of 1 to FINAL starts over in LATCHED, and does nothing in another state (R555). -/
def Engine.finalClear (e : Engine) : Engine :=
  if e.spk = spkLatched then
    ((e.put CUE_SPK_STATUS_ATTEMPTS 0).put CUE_SPK_STATUS_FINAL 0).softStart
  else e

/-- SPK_FINAL_CLEAR. -/
def execSpkFinalClear (by_ : Sender) (s : State) : Out :=
  s.eff fun e => if by_.isCC then e.finalClear else e.cueRefuse by_ 0x048

/-- A write of CUE_SPK_CFG. -/
def Engine.spkCfg (e : Engine) (by_ : Sender) (v : Word) : Engine :=
  if by_.isCC then (e.putB CUE_SPK_CFG_EN (bitOf v 0)).spkSettle else e.cueRefuse by_ 0x044

/-- SPK_CFG_WRITE. -/
def execSpkCfgWrite (by_ : Sender) (v : Word) (s : State) : Out := s.eff fun e => e.spkCfg by_ v

/-- SPK_THERMAL_ENTER: the driver sensor at `temp` °C, 150 or above (R555, R558). -/
def execSpkThermalEnter (temp : Nat) (s : State) : Out :=
  s.eff fun e =>
    if temp < 150 then e
    else
      let e := (e.put CUE_SPK_STATUS_TEMP (min 255 (temp + 40))).updCue fun c => { c with hot := true }
      if e.spk = spkSoft ∨ e.spk = spkOn then
        ((e.spkTo spkThermal).updCue fun c => { c with quench := true }).cueEvt 0x08 .warn 1 0
      else e

/-- SPK_THERMAL_EXIT: the driver sensor at `temp` °C, below 130 (R555). -/
def execSpkThermalExit (temp : Int) (s : State) : Out :=
  s.eff fun e =>
    if 130 ≤ temp then e
    else
      let e := (e.put CUE_SPK_STATUS_TEMP (temp + 40).toNat).updCue fun c => { c with hot := false }
      if e.spk = spkThermal then e.softStart.cueEvt 0x08 .warn 0 0 else e

/-! ### Jack (R543 to R546) -/

/-- Without bias no code is taken, so nothing has been seen for any time (R548). -/
def Engine.btnForget (e : Engine) : Engine := e.updCue fun c => { c with seen := [], clear := 0 }

/-- JACK_DET_EDGE: the switch ball changes to `level`. -/
def execJackDetEdge (level : Bool) (s : State) : Out :=
  s.eff fun e =>
    let ins := level == e.on CUE_JACK_CFG_POL
    let e := e.updCue fun c => { c with det := level }
    if e.cueOn = false ∨ e.pwr.dormant then e
    else if ins then e.updCue fun c => { c with deb := some true, class_ := false }
    else e.btnForget.updCue fun c => { c with deb := some false, class_ := false, muted := true, micStep := 0, hpStep := 0 }

/-- JACK_INSERT_CONFIRM: inserted for 20 ms; classification starts. -/
def execJackInsertConfirm (s : State) : Out :=
  s.eff fun e =>
    if e.cueOn && e.cue.deb == some true then
      (e.put CUE_JACK_STATUS_INSERTED 1).updCue fun c => { c with deb := none, class_ := true, hpStep := 0 }
    else e

/-- A button release confirmed (R548). -/
def Engine.btnRelease (e : Engine) : Engine :=
  let b := e.get CUE_BTN_STATUS_BTN
  if b = 0 then e
  else ((e.put CUE_BTN_STATUS_BTN 0).updCue fun c => { c with held := 0, long := false }).cueEvt 0x04 .note
    (((List.range 4).find? b.testBit).getD 0) 0

/-- JACK_REMOVED: removed for 20 ms; a pressed button is released first (R544, Corners). -/
def execJackRemoved (s : State) : Out :=
  s.eff fun e =>
    if e.cueOn && e.cue.deb == some false then
      let e := e.btnRelease
      let e := ((e.put CUE_JACK_STATUS_INSERTED 0).put CUE_JACK_STATUS_CLASS 0).updCue fun c =>
        { c with deb := none, muted := false, seen := [], clear := 0 }
      e.cueEvt 0x02 .note 0 0
    else e

/-- The class of a measurement (R545): loads in milliohms and mic-line codes. -/
def jackClassOf (zl zr ca cb : Nat) : Nat :=
  let low := decide (ca < 5 ∧ cb < 5)
  let phones := decide (8000 ≤ zl ∧ zl < 1000000 ∧ 8000 ≤ zr ∧ zr < 1000000)
  if low && phones then 1
  else if low && decide (1000000 ≤ zl ∧ 1000000 ≤ zr) then 4
  else if decide (90 ≤ ca ∧ ca < 230 ∧ cb < 90) && phones then 2
  else if decide (90 ≤ cb ∧ cb < 230 ∧ ca < 90) && phones then 3
  else 5

/-- JACK_CLASS: classification ends with these measurements (R545, R546). -/
def execJackClass (zl zr ca cb : Nat) (s : State) : Out :=
  s.eff fun e =>
    if e.cueOn && e.cue.class_ then
      let ca := min 255 ca
      let cb := min 255 cb
      let k := jackClassOf zl zr ca cb
      let e := ((e.put CUE_JACK_STATUS_CLASS k).put CUE_JACK_STATUS_CODE_A ca).put CUE_JACK_STATUS_CODE_B cb
      let e := e.updCue fun c => { c with class_ := false, muted := false, micStep := 0, hpStep := 0 }
      e.cueEvt 0x01 .note k (ca + 256 * cb)
    else e

/-- CUE_SUPPLIES_ABSENT: whether both cue supplies are there; without one, detection stops
and CUE_JACK_STATUS reads its reset value (R691, Corners of the package chapter). -/
def execCueSuppliesAbsent (vdd vdda : Bool) (s : State) : Out :=
  s.eff fun e =>
    let e := e.updCue fun c => { c with power := vdd && vdda }
    if vdd && vdda then e
    else
      let e := (e.wr CUE_JACK_STATUS 0#32).updCue fun c => { c with deb := none, class_ := false, micStep := 0, hpStep := 0 }
      e.spkSettle

/-! ### Buttons (R548, R549) -/

/-- Button `k` is seen at code `c`. -/
def Engine.btnSeen (e : Engine) (k c : Nat) : Bool :=
  e.on (CUE_BTN_TH_EN k) && decide (e.get (CUE_BTN_TH_LO k) ≤ c ∧ c < e.get (CUE_BTN_TH_HI k))

/-- BUTTON_SAMPLE: the mic-line code of this millisecond. -/
def execButtonSample (code : Nat) (s : State) : Out :=
  s.eff fun e =>
    if e.biased = false then e
    else
      let code := min 255 code
      let ks := (List.range 4).filter (e.btnSeen · code)
      (e.put CUE_BTN_STATUS_CODE code).updCue fun c => { c with
        seen := (List.range 4).foldl (fun t k => Tbl.set 0 t k (if ks.contains k then Tbl.get 0 t k + 1 else 0)) c.seen,
        clear := if ks.isEmpty then c.clear + 1 else 0,
        held := c.held + 1 }

/-- BTN_PRESS: button `k` seen for the debounce time; another button's press ends first. A
button in WAKE_BTN requests RUN (R566). -/
def execBtnPress (k : Nat) (s : State) : Out :=
  s.eff fun e =>
    let k := k % 4
    let b := e.get CUE_BTN_STATUS_BTN
    if (e.biased && decide (e.get CUE_BTN_CFG_DEBOUNCE ≤ Tbl.get 0 e.cue.seen k) && !b.testBit k) = false then e
    else
      let e := e.btnRelease
      let e := ((e.put CUE_BTN_STATUS_BTN (2 ^ k)).updCue fun c => { c with held := 0, long := false }).cueEvt 0x03 .note k 0
      if (e.get CUE_LISTEN_WAKE_BTN).testBit k then e.requestRun 5 else e

/-- BTN_RELEASE: no button seen for the debounce time. -/
def execBtnRelease (s : State) : Out :=
  s.eff fun e =>
    if e.biased && decide (e.get CUE_BTN_CFG_DEBOUNCE ≤ e.cue.clear) then e.btnRelease else e

/-- BTN_LONG: a press held for the long time, once. -/
def execBtnLong (s : State) : Out :=
  s.eff fun e =>
    if e.biased && e.on CUE_BTN_STATUS_BTN && !e.cue.long && decide (100 * e.get CUE_BTN_CFG_LONG ≤ e.cue.held) then
      (e.updCue fun c => { c with long := true }).cueEvt 0x05 .note
        (((List.range 4).find? (e.get CUE_BTN_STATUS_BTN).testBit).getD 0) 0
    else e

/-! ### The audio paths -/

/-- The delay of port 0 (microphone) or 1 to 3 (outputs) in samples (R552). -/
def Engine.cueDelay (e : Engine) (p : Nat) : Nat :=
  (if p = 0 then 16 else 8) * (if e.on TICK_CFG_RATE then 2 else 1)
    + (if p ≠ 0 ∧ e.on (CUE_SIL_CFG_EN (p / 3)) = true then e.tenMs else 0)

/-- A sample put into a port's delay, and the one that leaves it. -/
def Engine.cueLine (e : Engine) (p : Nat) (v : Int) : Int × Engine :=
  let l := (v :: Tbl.get [] e.cue.line p).take (e.cueDelay p + 1)
  (l.getD (e.cueDelay p) 0, e.updCue fun c => { c with line := Tbl.set [] c.line p l })

/-- Source 0x0980 is wanted (R549, R550). -/
def Engine.micWanted (e : Engine) : Bool :=
  e.cueOn && e.headset && e.on CUE_MIC_CFG_EN && !e.cue.muted
    && !(e.on CUE_BTN_CFG_MUTE && e.on CUE_BTN_STATUS_BTN)

/-- The microphone at the edge of ESC `s`: the converter's 24-bit sample, placed by R13,
faded, delayed and gathered (R550, R552, R567). -/
def Engine.micGather (e : Engine) (s : Nat) (mic : Word) : Engine :=
  let x := if e.headset && e.on CUE_MIC_CFG_EN && e.cueOn then (mic <<< 8).toInt else 0
  let st := e.cue.micStep
  let st' := if e.cue.muted then 0 else if e.micWanted then min 16 (st + 1) else st - 1
  let v := if st' = 0 then 0 else weigh x (planish 16 (st' - 1))
  let e := e.updCue fun c => { c with micStep := st' }
  let (y, e) := e.cueLine 0 v
  e.gatherPut 0x980 s (if e.lockstep || e.on CUE_MIC_CFG_PAIR_SRC then y else 0)

/-- The headphone outputs are driven (R546, R568). -/
def Engine.hpReady (e : Engine) : Bool :=
  e.cueOn && e.on CUE_HP_CFG_EN && e.fullMode && !e.cue.muted && !e.cue.class_
    && decide (1 ≤ e.jackClass ∧ e.jackClass ≤ 4)

/-- Output `o` is ON: powered and not asleep (R561). -/
def Engine.cueOutOn (e : Engine) (o : Nat) : Bool :=
  if o = 0 then e.hpReady && e.cueOutEn && !bitOf (e.rd CUE_SIL_STATUS) 0 else e.spk == spkOn

/-- L_T and L_W (R559, R560): the codes of −THRESH and −(THRESH − HYST) dBFS. -/
def Engine.silSleepLevel (e : Engine) (o : Nat) : Nat := dbCode 31 (e.get (CUE_SIL_CFG_THRESH o)) 20
def Engine.silWakeLevel (e : Engine) (o : Nat) : Nat :=
  dbCode 31 (e.get (CUE_SIL_CFG_THRESH o) - e.get (CUE_SIL_CFG_HYST o)) 20

def Engine.silOf (e : Engine) (o : Nat) : SilSt := Tbl.get {} e.cue.sil o
def Engine.updSil (e : Engine) (o : Nat) (f : SilSt → SilSt) : Engine :=
  e.updCue fun c => { c with sil := Tbl.set {} c.sil o (f (Tbl.get {} c.sil o)) }

/-- Output `o` is in SLEEP. -/
def Engine.asleep (e : Engine) (o : Nat) : Bool := bitOf (e.rd CUE_SIL_STATUS) o

/-- The factor silence detection applies to the delayed sample of ESC `d` (R559, R560). -/
def Engine.silGain (e : Engine) (o d : Nat) : Int :=
  let x := e.silOf o
  match x.fade, x.wake with
  | some n, _ => one20 - planish (e.fs / 50) n
  | none, some (w, g) =>
    if w ≤ d then one20
    else if d + 16 < w then g
    else g + rndShift ((one20 - g) * planish 16 (d + 16 - w)) 20
  | none, none => if e.asleep o then 0 else one20

/-- Detection on the undelayed samples of ESC `s`, and a fade one sample further; at its end
the amplifier powers down (R559). -/
def Engine.silStep (e : Engine) (o s : Nat) (xs : List Int) : Engine :=
  if e.on (CUE_SIL_CFG_EN o) = false ∧ e.asleep o = false then e
  else
    let m := xs.foldl (fun m x => max m x.natAbs) 0
    let x := e.silOf o
    let busy := x.fade.isSome || e.asleep o
    let e := e.updSil o fun x => { x with
      quiet := if m < e.silSleepLevel o then x.quiet + 1 else 0,
      loud := if busy && x.loud.isNone && decide (e.silWakeLevel o ≤ m) then some s else x.loud }
    match x.fade with
    | some n =>
      if n + 1 < e.fs / 50 then e.updSil o fun x => { x with fade := some (n + 1) }
      else
        let e := (e.put ⟨CUE_SIL_STATUS, o, 1⟩ 1).updSil o fun x => { x with fade := none }
        let e := if o = 1 ∧ e.spk = spkOn then e.spkTo spkSleep else e
        e.cueEvt 0x0A .note o 0
    | none => e

/-- One output port at the sample edge of ESC `s` (R551, R552, R554): narrowed, delayed,
faded. -/
def Engine.cuePort (e : Engine) (p s : Nat) : Engine :=
  let v := (e.outAt (0x97F + p) s).toInt
  let r := narrowTo 24 false v
  let e := if r.2 then e.put ⟨CUE_OUT_STATUS, p - 1, 1⟩ 1 else e
  let (y, e) := e.cueLine p (r.1 * 256)
  let o := p / 3
  let y := weigh y (e.silGain o (s - e.cueDelay p))
  let driven := if o = 0 then e.hpReady && e.cueOutEn && !e.asleep 0
    else e.spk == spkOn && !e.cue.quench && !e.cue.muted
  let y := if o = 0 then (if e.cue.hpStep = 0 then 0 else weigh y (planish 16 (e.cue.hpStep - 1)))
    else weigh y (planish e.tenMs e.cue.spkStep)
  e.updCue fun c => { c with play := Tbl.set 0 c.play p (if driven then y else 0) }

/-- CUE at the sample edge of ESC `s`: microphone in, outputs out. -/
def Engine.cueSample (e : Engine) (s : Nat) (mic : Word) : Engine :=
  let e := (e.micGather s mic).spkSettle
  let e := e.updCue fun c => { c with hpStep := if e.hpReady then min 16 (c.hpStep + 1) else 0 }
  let e := [1, 2, 3].foldl (fun e p => e.cuePort p s) e
  let e := e.silStep 0 s [(e.outAt 0x980 s).toInt, (e.outAt 0x981 s).toInt]
  let e := e.silStep 1 s [(e.outAt 0x982 s).toInt]
  let e := e.updCue fun c => { c with spkStep := min e.tenMs (c.spkStep + 1), hpLim := c.hpLim - 1 }
  if e.cue.hpLim = 0 then e.put CUE_OUT_STATUS_HP_LIMIT 0 else e

/-- HP_LIMIT: the current limit acts on `sides` (R553); the episode ends 100 ms after it last
did. -/
def execHpLimit (sides : Nat) (s : State) : Out :=
  s.eff fun e =>
    if e.hpReady = false ∨ sides % 4 = 0 then e
    else
      let new := !e.on CUE_OUT_STATUS_HP_LIMIT
      let e := (e.put CUE_OUT_STATUS_HP_LIMIT 1).updCue fun c => { c with hpLim := e.fs / 10 }
      if new then e.cueEvt 0x09 .warn (sides % 4) 0 else e

/-- SIL_SLEEP: output `o` has been silent for its TIME; its 20 ms fade begins, and SLEEP with
the event follow at its end (R559). -/
def execSilSleep (o : Nat) (s : State) : Out :=
  s.eff fun e =>
    let o := o % 2
    let x := e.silOf o
    if e.on (CUE_SIL_CFG_EN o) && e.cueOutOn o && x.fade.isNone && decide (e.get (CUE_SIL_CFG_TIME o) * e.fs ≤ x.quiet) then
      e.updSil o fun x => { x with fade := some 0, loud := none, wake := none }
    else e

/-- SIL_WAKE: a sample at or above L_W has come (R560). -/
def execSilWake (o : Nat) (s : State) : Out :=
  s.eff fun e =>
    let o := o % 2
    let x := e.silOf o
    match x.loud with
    | none => e
    | some w =>
      if x.fade.isSome || e.asleep o then
        let g := e.silGain o 0
        let e := (e.put ⟨CUE_SIL_STATUS, o, 1⟩ 0).updSil o fun x => { x with fade := none, loud := none, wake := some (w, g) }
        let e := if o = 1 ∧ e.spk = spkSleep then e.spkTo spkOn else e
        e.cueEvt 0x0B .note o 0
      else e

/-- CUE asks for IDLE (R561). -/
def Engine.cueIdle (e : Engine) : Bool :=
  e.on CUE_SIL_CTRL_IDLE_REQ && (List.range 2).all fun o => !e.on (CUE_SIL_CFG_EN o) || e.asleep o

/-! ### The pre-roll ring (R562 to R565) -/

def Engine.ringAddr (e : Engine) (k : Nat) : Nat := (e.rd CUE_RING_BASE).toNat + 4 * (k % 32000)

/-- RING_FAULT, once an episode (R563). -/
def Engine.ringFault (e : Engine) : Engine :=
  let e := e.put CUE_LISTEN_STATUS_FAULT 1
  if e.cue.ringEp then e
  else (e.updCue fun c => { c with ringEp := true }).listenEvt 0x0C .fault (e.cue.ringCnt % 2 ^ 32)

/-- One sample of a fetch copied into AC15; a ring read that fails R303 is a ring fault, and
what it copies is open. -/
def Engine.fetchOne (e : Engine) (f : FetchSt) : Engine :=
  let a := e.ringAddr (f.from_ + f.got)
  let (v, e) := if e.blockAccess 0x46 a then (e.ldW a, e) else e.ringFault.fresh
  let e := e.memWrite none (localAddr 15 (4 * (f.dest + f.got))) [v]
  e.updCue fun c => { c with fetch := some { f with got := f.got + 1 } }

/-- Up to `n` samples copied: those written already (R564). -/
def Engine.fetchCopy : Nat → Engine → Engine
  | 0, e => e
  | n + 1, e =>
    match e.cue.fetch with
    | some f =>
      if f.got < f.len ∧ f.from_ + f.got < e.cue.ringCnt then Engine.fetchCopy n (e.fetchOne f) else e
    | none => e

/-- A fetch whose next sample is overwritten ends (R565). -/
def Engine.fetchOverrun (e : Engine) : Engine :=
  match e.cue.fetch with
  | some f =>
    if f.got < f.len ∧ f.from_ + f.got + 32000 < e.cue.ringCnt then
      ((e.put CUE_FETCH_STATUS_BUSY 0).put CUE_FETCH_STATUS_OVERRUN 1).updCue fun c => { c with fetch := none }
    else e
  | none => e

/-- RING_SAMPLE_WRITE: the decimator's next 24-bit sample (R562, R563); `slots` idle slots of
AC15 have served the fetch since the last one. -/
def execRingSampleWrite (sample : Word) (slots : Nat) (s : State) : Out :=
  s.eff fun e =>
    if e.on CUE_LISTEN_RING_EN = false ∨ e.pwr.dormant then e
    else
      let e := Engine.fetchCopy slots e
      let a := e.ringAddr e.cue.ringCnt
      let v := if e.cue.power && e.headset && e.on CUE_MIC_CFG_EN && !e.cue.muted then sample <<< 8 else 0#32
      let e :=
        if e.blockAccess 0x46 a then (e.memWrite none a [v]).updCue fun c => { c with ringEp := false }
        else e.ringFault
      let e := e.updCue fun c => { c with ringCnt := (c.ringCnt + 1) % 2 ^ 64 }
      e.fetchOverrun

/-- RING_CNT_CAPTURE: a read of CUE_RING_CNT_LO (R562). -/
def Engine.ringCntLo (e : Engine) (by_ : Sender) : Word × Engine :=
  (BitVec.ofNat 32 e.cue.ringCnt, e.capture CUE_RING_CNT_LO by_.hm [e.cue.ringCnt])

def execRingCntCapture (by_ : Sender) (s : State) : Out := s.eff fun e => Engine.answer (e.ringCntLo by_)

/-- A read of CUE_RING_CNT_HI: the capture of the same hallmark, else the live count. -/
def Engine.ringCntHi (e : Engine) (hm : Nat) : Word :=
  match e.captured CUE_RING_CNT_LO hm with
  | c :: _ => BitVec.ofNat 32 (c / 2 ^ 32)
  | [] => BitVec.ofNat 32 (e.cue.ringCnt / 2 ^ 32)

/-- Why a fetch is refused (R564): 1 BUSY, 2 TENANT, 3 RANGE, 4 OVERRUN. -/
def Engine.fetchRefusal (e : Engine) : Option Nat :=
  let from_ := (e.rd CUE_FETCH_FROM_LO).toNat + (e.rd CUE_FETCH_FROM_HI).toNat * 2 ^ 32
  if e.on CUE_FETCH_STATUS_BUSY then some 1
  else if e.coreTenant 15 ≠ e.get CUE_LISTEN_TENANT then some 2
  else if 65536 < e.get CUE_FETCH_CFG_DEST + e.get CUE_FETCH_CFG_LEN + 1 then some 3
  else if from_ + 32000 < e.cue.ringCnt then some 4
  else none

/-- The Listen tenant's path code (R348, R614). -/
def Engine.listenPath (e : Engine) (by_ : Sender) : Bool :=
  by_.isTenant (e.get CUE_LISTEN_TENANT) && !by_.dma && (hmOrigin by_.hm == 2 || hmOrigin by_.hm == 3)

/-- The Listen tenant's path code or the control core (R564, R569). -/
def Engine.listenMay (e : Engine) (by_ : Sender) : Bool :=
  by_.isCC || e.listenPath by_

/-- A write of CUE_FETCH_CTRL (R564). -/
def Engine.fetchGo (e : Engine) (by_ : Sender) (v : Word) : Engine :=
  if e.listenMay by_ = false then e.cueRefuse by_ 0x08C
  else if bitOf v 0 = false then e
  else match e.fetchRefusal with
    | some r => e.listenEvt 0x0D .warn r by_.hm
    | none =>
      let f : FetchSt := {
        from_ := (e.rd CUE_FETCH_FROM_LO).toNat + (e.rd CUE_FETCH_FROM_HI).toNat * 2 ^ 32
        len := e.get CUE_FETCH_CFG_LEN + 1
        dest := e.get CUE_FETCH_CFG_DEST
        rel := if e.on CUE_FETCH_CFG_REL then some (bitsOf v 16 12) else none }
      (e.put CUE_FETCH_STATUS_BUSY 1).updCue fun c => { c with fetch := some f }

/-- FETCH_GO. -/
def execFetchGo (by_ : Sender) (v : Word) (s : State) : Out := s.eff fun e => e.fetchGo by_ v

/-- FETCH_COMPLETE: the last sample is copied (R564). -/
def execFetchComplete (s : State) : Out :=
  s.eff fun e =>
    match e.cue.fetch with
    | none => e
    | some f =>
      if e.cue.ringCnt < f.from_ + f.len then e
      else
        let e := Engine.fetchCopy (f.len - f.got) e
        let e := ((e.put CUE_FETCH_STATUS_BUSY 0).put CUE_FETCH_STATUS_DONE 1).updCue fun c => { c with fetch := none }
        match f.rel with
        | some d => e.release d none 0xFF
        | none => e

/-- The ring count latched at each tick start (R562). -/
def Engine.ringTick (e : Engine) : Engine := e.wr CUE_RING_TICK (BitVec.ofNat 32 e.cue.ringCnt)

/-! ### Registers (R569) -/

/-- A button range fits: it ends by 90 and overlaps no other enabled range (R549). -/
def Engine.btnRangeOk (e : Engine) (k : Nat) (v : Word) : Bool :=
  !bitOf v 16 || (decide (bitsOf v 8 8 ≤ 90) && (List.range 4).all fun j =>
    j == k || !e.on (CUE_BTN_TH_EN j)
      || decide (bitsOf v 8 8 ≤ e.get (CUE_BTN_TH_LO j) ∨ e.get (CUE_BTN_TH_HI j) ≤ bitsOf v 0 8))

/-- A write of a CUE register. -/
def Engine.cueRegWrite (e : Engine) (by_ : Sender) (off : Nat) (v : Word) : Engine :=
  let a := 0x40140000 + off
  if off = 0x080 ∨ off = 0x084 ∨ off = 0x088 then
    if e.listenMay by_ = false ∨ (off = 0x088 ∧ 4095 < bitsOf v 0 13) then e.cueRefuse by_ off
    else e.wr a (if off = 0x088 then v &&& 0xFFFF9FFF#32 else v)
  else if off = 0x08C then e.fetchGo by_ v
  else if by_.isCC = false then e.cueRefuse by_ off
  else match off with
    | 0x000 => (e.putB CUE_CTRL_EN (bitOf v 0)).spkSettle
    | 0x004 => e.wr a (e.rd a &&& ~~~ v)
    | 0x010 | 0x058 => e.wr a (v &&& 1#32)
    | 0x040 => e.wr a (v &&& 3#32)
    | 0x020 =>
      if bitsOf v 4 4 = 15 then e.cueRefuse by_ off
      else
        let e := e.wr a (v &&& 0x1F3#32)
        if bitOf v 0 then e else e.btnForget
    | 0x024 =>
      if bitsOf v 0 7 < 10 ∨ 100 < bitsOf v 0 7 ∨ bitsOf v 8 6 < 5 ∨ 50 < bitsOf v 8 6 then e.cueRefuse by_ off
      else e.wr a (v &&& 0x13F7F#32)
    | 0x030 | 0x034 | 0x038 | 0x03C =>
      if e.btnRangeOk ((off - 0x030) / 4) v then e.wr a (v &&& 0x1FFFF#32) else e.cueRefuse by_ off
    | 0x044 => e.spkCfg by_ v
    | 0x048 => if bitOf v 8 then e.finalClear else e
    | 0x04C => e.wr a (e.rd a &&& ~~~ (v &&& 7#32))
    | 0x050 | 0x054 =>
      let o := (off - 0x050) / 4
      if bitsOf v 1 7 < 60 ∨ 120 < bitsOf v 1 7 ∨ 12 < bitsOf v 8 4 ∨ bitsOf v 12 12 = 0 ∨ 3600 < bitsOf v 12 12
          ∨ (e.on (CUE_SIL_CFG_EN o) ≠ bitOf v 0 ∧ e.cueOutOn o = true) then e.cueRefuse by_ off
      else
        let turned := e.on (CUE_SIL_CFG_EN o) != bitOf v 0
        let e := e.wr a (v &&& 0xFFFFFF#32)
        if turned then e.updSil o fun x => { x with quiet := 0 } else e
    | 0x060 =>
      let start := bitOf v 0 && !e.on CUE_LISTEN_RING_EN
      let e := e.wr a (v &&& 0xFF1#32)
      if start then e.updCue fun c => { c with ringCnt := 0, ringEp := false } else e
    | 0x064 => e.wr a (e.rd a &&& ~~~ v)
    | 0x068 => if e.on CUE_LISTEN_RING_EN then e.cueRefuse by_ off else e.wr a (v &&& 0xFFFFFFFC#32)
    | 0x090 => e.wr a (e.rd a &&& ~~~ (v &&& 6#32))
    | _ => e

end Sys2Proof.Machine
end

