-- ==== Sys2Proof/Machine/Madi.lean ====
section
/-!
DEFINITION. MADI: received frames and the receiver's states, buffering, channel status and
user bits, transmitted frames, and the block's registers (chapter "Serial Audio Ports and
MADI", R450 to R459).
-/
namespace Sys2Proof.Machine

/-- A MADI event (R462). -/
def madiEvt (code : Nat) (sev : Sev) (hm w2 w3 : Nat) : Evt :=
  { block := 0x0F, code := code, sev := sev, hm := hm, w2 := w2, w3 := w3 }

def Engine.madiRx (e : Engine) (p : Nat) : MadiRx := Tbl.get {} e.madi.rx p

def Engine.updMadiRx (e : Engine) (p : Nat) (f : MadiRx → MadiRx) : Engine :=
  e.updMadi fun x => { x with rx := Tbl.set {} x.rx p (f (Tbl.get {} x.rx p)) }

/-- Channels of a MODE, and the channels its buffer holds (R450, R459). -/
def madiChans (mode : Nat) : Nat := if mode = 0 then 64 else if mode = 1 then 56 else 32
def madiWidth (mode : Nat) : Nat := if mode = 2 then 32 else 64

/-- The router index of channel `c` of port `p` (R450). -/
def Engine.madiIdx (e : Engine) (p c : Nat) : Nat :=
  0x900 + (if e.on TICK_CFG_RATE then 32 else 64) * p + c

/-- MADI is enabled and its clock runs (R430, R449). -/
def Engine.madiOn (e : Engine) : Bool := e.on MADI_CTRL_EN && !bitOf (e.rd CLK_GATE_STATUS) 19

/-- The receiver of port `p` runs. -/
def Engine.rxOn (e : Engine) (p : Nat) : Bool := e.madiOn && e.on (MADI_RX_CFG_EN p)

/-- The receiver's channels are lost from the next sample edge on (R454). -/
def Engine.rxLose (e : Engine) (p : Nat) : Engine :=
  let s := e.tick.esc + 1
  e.updMadiRx p fun x => { x with
    lost := (if x.lost.isSome && x.back.isNone then x.lost else some s), back := none,
    held := [], flow := false, good := 0, cs := [] }

/-- The receiver leaves LOCKED with RX_LOST (R454). -/
def Engine.rxLost (e : Engine) (p st reason : Nat) : Engine :=
  ((e.rxLose p).put (MADI_RX_STATUS_STATE p) st).raise (madiEvt 0x02 .warn 0xFF p reason)

/-- Even parity over bits [31:4] holds (R452). -/
def madiParity (w : Nat) : Bool :=
  ((List.range 28).filter fun i => w.testBit (i + 4)).length % 2 == 0

/-- The sample of a good subframe: 24 bits MSB first; an inactive channel reads zero (R452,
R455). -/
def madiSample (w : Nat) : Word :=
  if w.testBit 1 then BitVec.ofNat 32 (w / 16 % 2 ^ 24 * 2 ^ 8) else 0#32

/-- A subframe whose parity or code is bad (R455). -/
def subBad : Option Nat → Bool
  | some w => !madiParity w
  | none => true

/-- The address of word `k` of a channel's received C (or U) block (R461). -/
def rxCsAddr (u : Bool) (p c k : Nat) : Nat :=
  0x400F1000 + 0x1000 * p + 0x40 * c + (if u then 0x20 else 0) + 4 * k

/-- The six words of a 192-bit block. -/
def csWords (v : Nat) : List Word := (List.range 6).map fun k => BitVec.ofNat 32 (v / 2 ^ (32 * k))

/-- A channel's C and U bits of one frame; whether a new C block differs (R457). -/
def Engine.madiCs (e : Engine) (p c : Nat) (sub : Option Nat) : Engine × Bool :=
  let upd (e : Engine) (y : MadiCs) : Engine := e.updMadiRx p fun x => { x with cs := Tbl.set {} x.cs c y }
  let y := Tbl.get {} (e.madiRx p).cs c
  match sub with
  | none => (upd e {}, false)
  | some w =>
    let cb := (w / 2 ^ 30) % 2
    let ub := (w / 2 ^ 29) % 2
    if w.testBit 3 then
      let e' := upd e { run := true, n := 1, c := cb, u := ub }
      if y.run ∧ y.n = 192 then
        let old := (List.range 6).map fun k => e.rd (rxCsAddr false p c k)
        let put (e : Engine) (u : Bool) (v : Nat) : Engine :=
          (csWords v).zipIdx.foldl (fun e q => e.wr (rxCsAddr u p c q.2) q.1) e
        (put (put e' false y.c) true y.u, csWords y.c != old)
      else (e', false)
    else if y.run ∧ y.n < 192 then
      (upd e { y with n := y.n + 1, c := y.c + cb * 2 ^ y.n, u := y.u + ub * 2 ^ y.n }, false)
    else (upd e {}, false)

/-- The C and U bits of every channel of a frame; CS_CHANGED at most once per block (R457). -/
def Engine.madiCsFrame (e : Engine) (p : Nat) (subs : List (Option Nat)) : Engine :=
  let (e, ch) := subs.zipIdx.foldl (fun (a : Engine × Bool) q =>
    let (e, d) := a.1.madiCs p q.2 q.1
    let reg := if q.2 < 32 then MADI_RX_CSCHG_LO p else MADI_RX_CSCHG_HI p
    let e := if d then e.wr reg (e.rd reg ||| BitVec.ofNat 32 (2 ^ (q.2 % 32))) else e
    (e, a.2 || d)) (e, false)
  let wait := (e.madiRx p).csWait
  if ch ∧ wait = 0 then
    (e.updMadiRx p fun x => { x with csWait := 191 }).raise (madiEvt 0x04 .note 0xFF p 0)
  else e.updMadiRx p fun x => { x with csWait := wait - 1 }

/-- A frame received in LOCKED: bad subframes repeat their channel's sample and count, V
bits are shown, and the frame is held (R455, R456). -/
def Engine.madiTake (e : Engine) (p : Nat) (subs : List (Option Nat)) : Engine :=
  let x := e.madiRx p
  let ws := subs.zipIdx.map fun q =>
    if subBad q.1 then x.prev.getD q.2 0#32 else madiSample (q.1.getD 0)
  let bad := (subs.zipIdx.filter fun q => subBad q.1).map Prod.snd
  let e := e.count (MADI_RX_ERR_PARITY p) bad.length
  let e := match bad with
    | [] => e.updMadiRx p fun x => { x with parEp := false }
    | c :: _ =>
      if x.parEp then e
      else (e.updMadiRx p fun x => { x with parEp := true }).raise (madiEvt 0x05 .warn 0xFF p c)
  let e := subs.zipIdx.foldl (fun e q =>
    match q.1 with
    | some w =>
      if w.testBit 28 && !subBad q.1 then
        let reg := if q.2 < 32 then MADI_RX_VFLAG_LO p else MADI_RX_VFLAG_HI p
        e.wr reg (e.rd reg ||| BitVec.ofNat 32 (2 ^ (q.2 % 32)))
      else e
    | none => e) e
  (e.updMadiRx p fun x => { x with prev := ws, held := x.held ++ [ws] }).madiCsFrame p subs

/-- A received frame (R454): ACQUIRE becomes LOCKED after two consecutive frames that match
MODE; a format that does not match raises RX_LOST once. -/
def Engine.madiFrame (e : Engine) (p : Nat) (f : MadiFrame) : Engine :=
  if e.rxOn p = false then e
  else
    let mode := e.get (MADI_RX_CFG_MODE p)
    let match_ := f.subs.length == madiChans mode && f.f96 == (mode == 2)
    let st := e.get (MADI_RX_STATUS_STATE p)
    let e := (e.put (MADI_RX_STATUS_CHANS p) f.subs.length).put (MADI_RX_STATUS_F96 p) f.f96.toNat
    if st = 2 then
      if f.ok && match_ then e.madiTake p f.subs else e.rxLost p 1 2
    else
      let e := if st = 0 then (e.put (MADI_RX_STATUS_STATE p) 1).updMadiRx p fun x => { x with good := 0 } else e
      if f.ok && match_ then
        let e := e.updMadiRx p fun x => { x with good := x.good + 1 }
        if 2 ≤ (e.madiRx p).good then
          let e := (e.put (MADI_RX_STATUS_STATE p) 2).raise (madiEvt 0x01 .note 0xFF p 0)
          (e.updMadiRx p fun x => { x with
            good := 0, modeEp := false, held := [], flow := false, prev := [] }).madiTake p f.subs
        else e
      else
        let e := e.updMadiRx p fun x => { x with good := 0 }
        if f.ok && !match_ && !(e.madiRx p).modeEp then
          (e.updMadiRx p fun x => { x with modeEp := true }).raise (madiEvt 0x02 .warn 0xFF p 3)
        else e

/-- MADI_RX_FRAME. -/
def execMadiRxFrame (p : Nat) (f : MadiFrame) (s : State) : Out :=
  s.eff fun e => e.madiFrame (p % 2) f

/-- MADI_RX_NOSIG: eight frame periods without a frame sync (R454). -/
def execMadiRxNosig (p : Nat) (s : State) : Out :=
  s.eff fun e =>
    let p := p % 2
    let st := e.get (MADI_RX_STATUS_STATE p)
    let e := e.updMadiRx p fun x => { x with modeEp := false, good := 0 }
    if st = 2 then e.rxLost p 0 1 else e.put (MADI_RX_STATUS_STATE p) 0

/-- The frames held at a sample edge brought back to two when there are fewer than one or
more than three (R456). -/
def fillTo (last : List Word) (h : List (List Word)) : List (List Word) :=
  match h.length with
  | 0 => [last, last]
  | 1 | 2 | 3 => h
  | k => h.drop (k - 2)

/-- The port's samples for ESC `s` (R456, R459): the oldest frame held, once two have
arrived; the buffer takes each channel's sample, and one that MADI does not own loses the
port. -/
def Engine.madiGather (e : Engine) (p s : Nat) : Engine :=
  if e.rxOn p = false then e
  else
    let x := e.madiRx p
    let mode := e.get (MADI_RX_CFG_MODE p)
    let n := e.nSamp
    let locked := e.get (MADI_RX_STATUS_STATE p) == 2
    let start := locked && !x.flow && decide (2 ≤ x.held.length)
    let e := if start then e.updMadiRx p fun x => { x with
        flow := true, back := (if x.fault then x.back else some s), held := x.held.drop (x.held.length - 2) } else e
    let x := e.madiRx p
    let h := if x.flow then fillTo x.last x.held else x.held
    let e := if x.flow && h != x.held then
        (e.count (MADI_RX_ERR_SLIPS p)).raise (madiEvt 0x03 .warn 0xFF p h.length)
      else e
    let e := e.put (MADI_RX_STATUS_FILL p) h.length
    let ws := if x.flow then h.headD [] else []
    let addr (c : Nat) : Nat :=
      portAddr (e.rd (MADI_RX_BUF p)) n (s / n) (s % n) (madiWidth mode) c
    let ok := e.blockAccess 0x45 (addr 0)
    let e := if ok then
        if x.fault then e.updMadiRx p fun x => { x with fault := false, back := (if x.flow then some s else x.back) } else e
      else
        let e := if x.fault then e
          else (e.updMadiRx p fun x => { x with fault := true }).raise (madiEvt 0x07 .fault 0xFF p 0)
        e.updMadiRx p fun x => if portLost x.lost x.back s then x
          else { x with lost := some s, back := none }
    let x := e.madiRx p
    let lost := portLost x.lost x.back s
    let e := (List.range (madiWidth mode)).foldl (fun e c =>
      let v := (ws.getD c 0#32).toInt
      let y := if c < madiChans mode then
          portFade x.lost x.back (x.last.getD c 0#32).toInt v s else 0
      let e := e.gatherPut (e.madiIdx p c) s y
      if ok then e.memWrite none (addr c) [wordOfInt y] else e) e
    e.updMadiRx p fun x => { x with
      last := (if x.flow && !lost then ws else x.last),
      held := (if x.flow then h.drop 1 else x.held) }

/-! ### Transmit -/

/-- The subframe that carries a channel (R452, R453). -/
def madiSub (first active start : Bool) (v : Int) (cb ub : Bool) : Word :=
  let w := first.toNat + 2 * active.toNat + 8 * start.toNat + 16 * (v % 2 ^ 24).toNat
    + 2 ^ 29 * ub.toNat + 2 ^ 30 * cb.toNat
  BitVec.ofNat 32 (w + if madiParity w then 0 else 2 ^ 31)

/-- Bit `k` of a channel's C (or U) block to transmit (R453). -/
def Engine.txCsBit (e : Engine) (u : Bool) (p c k : Nat) : Bool :=
  let c := if e.on (MADI_TX_CFG_CS_COMMON p) then 0 else c
  bitOf (e.rd (0x400F3000 + 0x1000 * p + 0x40 * c + (if u then 0x20 else 0) + 4 * (k / 32))) (k % 32)

/-- MADI_TX_FRAME: the frame that begins at the current sample edge, carrying the ESC 2N + 1
samples before it (R453). A buffer fault transmits zeros with active = 0 (R459). -/
def Engine.madiSend (e : Engine) (p : Nat) : Engine :=
  if e.madiOn = false ∨ e.on (MADI_TX_CFG_EN p) = false ∨ e.outEnabled = false then
    e.updMadi fun x => { x with tx := Tbl.set [] x.tx p [] }
  else
    let mode := e.get (MADI_TX_CFG_MODE p)
    let s := e.tick.esc - (2 * e.nSamp + 1)
    let mask := (e.rd (MADI_TX_MASK_LO p)).toNat + (e.rd (MADI_TX_MASK_HI p)).toNat * 2 ^ 32
    let quiet := e.stopped || decide (e.tick.esc < 2 * e.nSamp + 1)
    let one (c : Nat) : Int × Bool :=
      narrowTo 24 (e.on (MADI_TX_CFG_RMODE p))
        (if quiet then 0 else (e.outAt (e.madiIdx p c) (e.tick.esc - 1)).toInt)
    let act (c : Nat) : Bool := mask.testBit c && !e.on (MADI_TX_STATUS_FAULT p)
    let cs := List.range (madiChans mode)
    let ws := cs.map fun c =>
      madiSub (c == 0) (act c) (s % 192 == 0) (if act c then (one c).1 else 0)
        (e.txCsBit false p c (s % 192)) (e.txCsBit true p c (s % 192))
    let e := if cs.any fun c => act c && (one c).2 then e.put (MADI_TX_STATUS_SAT p) 1 else e
    e.updMadi fun x => { x with tx := Tbl.set [] x.tx p ws }

def execMadiTxFrame (p : Nat) (s : State) : Out := s.eff fun e => e.madiSend (p % 2)

/-- SCATTER stores block `b` of each transmitter in its buffer (R459). -/
def Engine.madiScatter (e : Engine) (b : Nat) : Engine :=
  (List.range 2).foldl (fun e p =>
    let mode := e.get (MADI_TX_CFG_MODE p)
    let n := e.nSamp
    let addr (j c : Nat) : Nat := portAddr (e.rd (MADI_TX_BUF p)) n b j (madiWidth mode) c
    if e.madiOn = false ∨ e.on (MADI_TX_CFG_EN p) = false then e
    else if e.blockAccess 0x45 (addr 0 0) then
      let e := e.put (MADI_TX_STATUS_FAULT p) 0
      (List.range n).foldl (fun e j => (List.range (madiWidth mode)).foldl (fun e c =>
        e.memWrite none (addr j c) [e.outSmp b (e.madiIdx p c) j]) e) e
    else if e.on (MADI_TX_STATUS_FAULT p) then e
    else (e.put (MADI_TX_STATUS_FAULT p) 1).raise (madiEvt 0x07 .fault 0xFF (p + 2) 0)) e

/-! ### Registers -/

/-- CFG_REFUSED (R439, R459). -/
def Engine.madiRefuse (e : Engine) (by_ : Sender) (off : Nat) : Engine :=
  e.raise (madiEvt 0x06 .warn by_.hm off 0)

/-- A direction's CFG and buffer obey R450 and R459. -/
def Engine.madiOk (e : Engine) (cfg buf : Word) : Bool :=
  let mode := bitsOf cfg 1 2
  mode != 3 && ((mode == 2) == e.on TICK_CFG_RATE)
    && e.portBuf 0x45 (buf.toNat / 256 * 256) (8 * e.nSamp * madiWidth mode)

/-- A receiver enabled or disabled starts in NOSIG with nothing held. -/
def Engine.rxStart (e : Engine) (p : Nat) : Engine :=
  (e.wr (MADI_RX_STATUS p) 0#32).updMadiRx p fun _ => { lost := some e.tick.esc }

/-- A write of CFG or BUF of a direction (R439). -/
def Engine.madiCfgWrite (e : Engine) (by_ : Sender) (tx : Bool) (p off : Nat) (isBuf : Bool) (v : Word) :
    Engine :=
  let ca := if tx then MADI_TX_CFG p else MADI_RX_CFG p
  let ba := if tx then MADI_TX_BUF p else MADI_RX_BUF p
  let v := if isBuf then v &&& 0xFFFFFF00#32 else v &&& (if tx then 0x1F#32 else 7#32)
  let old := e.rd ca
  let cfg := if isBuf then old else v
  let buf := if isBuf then v else e.rd ba
  if (!isBuf && bitOf old 0 && (v ||| 1#32) != old) || (bitOf cfg 0 && !e.madiOk cfg buf)
      || bitsOf cfg 1 2 == 3 then e.madiRefuse by_ off
  else
    let e := e.wr (if isBuf then ba else ca) v
    if !isBuf && !tx && bitOf old 0 != bitOf v 0 then e.rxStart p else e

/-- A write of a MADI register (R439, R459, R461). -/
def Engine.madiRegWrite (e : Engine) (by_ : Sender) (off : Nat) (v : Word) : Engine :=
  let a := 0x400F0000 + off
  if by_.isCC = false then e.madiRefuse by_ off
  else if off = 0 then
    let was := e.on MADI_CTRL_EN
    let e := e.wr a (v &&& 1#32)
    if was = e.on MADI_CTRL_EN then e else (e.rxStart 0).rxStart 1
  else if off = 4 then e.wr a (e.rd a &&& ~~~ v)
  else if 0x100 ≤ off ∧ off < 0x200 then
    let p := (off - 0x100) / 0x80
    let r := off % 0x80
    if r = 0 then e.madiCfgWrite by_ false p off false v
    else if r = 8 then e.madiCfgWrite by_ false p off true v
    else if r = 0x20 then e.madiCfgWrite by_ true p off false v
    else if r = 0x2C then e.madiCfgWrite by_ true p off true v
    else if r = 0x10 ∨ r = 0x14 ∨ r = 0x18 ∨ r = 0x1C then e.wr a (e.rd a &&& ~~~ v)
    else if r = 0x30 then e.wr a (e.rd a &&& ~~~ (v &&& 2#32))
    else if r = 0x24 ∨ r = 0x28 then e.wr a v
    else e
  else if 0x3000 ≤ off ∧ off < 0x5000 ∧ off % 0x20 < 24 then e.wr a v
  else e

/-- RUN is set: directions whose MODE breaks the rate are disabled (R439, R450). -/
def Engine.madiCapacity (e : Engine) : Engine :=
  (List.range 2).foldl (fun e p =>
    let e := if e.on (MADI_RX_CFG_EN p) ∧ e.madiOk (e.rd (MADI_RX_CFG p)) (e.rd (MADI_RX_BUF p)) = false then
        ((e.put (MADI_RX_CFG_EN p) 0).rxStart p).raise (madiEvt 0x06 .warn 0xFF (0x100 + 0x80 * p) 0)
      else e
    if e.on (MADI_TX_CFG_EN p) ∧ e.madiOk (e.rd (MADI_TX_CFG p)) (e.rd (MADI_TX_BUF p)) = false then
      (e.put (MADI_TX_CFG_EN p) 0).raise (madiEvt 0x06 .warn 0xFF (0x120 + 0x80 * p) 0)
    else e) e

end Sys2Proof.Machine
end

