-- ==== Sys2Proof/Machine/Clk.lean ====
section
/-!
DEFINITION. CLK: the target word, the VCO bands, small steps, the relock sequence
and the clock's register writes (chapter "Root Clock and Synthesis"). Lock loss
and the frequency monitor, which move REF and the pair, are in Machine/ClkEvt.lean.
-/
namespace Sys2Proof.Machine

/-- A CLK event (R79). -/
def clkEvt (code : Nat) (sev : Sev) (hm w2 : Nat) : Evt :=
  { block := 0x01, code := code, sev := sev, hm := hm, w2 := w2 }

/-- W_NOM = 100 × 2^40 (R49). -/
def wNom : Nat := 100 * 2 ^ 40
/-- The reach of R50 either side of W_NOM. -/
def wReach : Nat := 131941395333
/-- The largest small step (R57). -/
def smallStep : Nat := 16492674416

/-- The applied word, as CLK_CUR shows it. -/
def Engine.clkWord (e : Engine) : Nat :=
  e.get CLK_CUR_HI_INT * 2 ^ 40 + e.get CLK_CUR_HI_FRAC_HI * 2 ^ 32 + e.get CLK_CUR_LO_FRAC

/-- CLK_CUR shows word `w` ("CLK_CUR_LO and CLK_CUR_HI always show the word in use"). -/
def Engine.setClkWord (e : Engine) (w : Nat) : Engine :=
  ((e.put CLK_CUR_LO_FRAC (w % 2 ^ 32)).put CLK_CUR_HI_FRAC_HI (w / 2 ^ 32 % 2 ^ 8)).put
    CLK_CUR_HI_INT (w / 2 ^ 40)

/-- `w` lies in the range [lo, hi) of band units, at full precision (R53, R54). -/
def inBand (w lo hi : Nat) : Bool := decide (lo * 2 ^ 40 ≤ w * 1024) && decide (w * 1024 < hi * 2 ^ 40)

/-- The margin of R54, in band units times 2^40. -/
def bandMargin (w lo hi : Nat) : Nat := min (w * 1024 - lo * 2 ^ 40) (hi * 2 ^ 40 - w * 1024)

/-- The band entry of R54 for word `w`: valid, its code not tried, its range
holding `w` with the largest margin, ties to the lowest index. -/
def Engine.bandFor (e : Engine) (w : Nat) (tried : List Nat) : Option Nat :=
  (List.range 32).foldl (fun best n =>
    let lo := e.get (CLK_BAND_LO_LO n)
    let hi := e.get (CLK_BAND_HI_HI n)
    if e.on (CLK_BAND_LO_VALID n) && inBand w lo hi
        && !tried.contains (e.get (CLK_BAND_LO_CODE n)) then
      match best with
      | none => some n
      | some m =>
        if bandMargin w (e.get (CLK_BAND_LO_LO m)) (e.get (CLK_BAND_HI_HI m)) < bandMargin w lo hi
        then some n else best
    else best) none

/-- Band entry `n` comes into use: its code is shown and its range recorded (R77). -/
def Engine.useBand (e : Engine) (n : Nat) : Engine :=
  let e := e.put CLK_STATUS_BAND (e.get (CLK_BAND_LO_CODE n))
  { e with clk := { e.clk with bandLo := e.get (CLK_BAND_LO_LO n),
                               bandHi := e.get (CLK_BAND_HI_HI n) } }

/-- No band fits: NOBAND and NO_BAND, word and lock kept (R55). -/
def Engine.noBand (e : Engine) (hm w : Nat) : Engine :=
  (e.putB CLK_STATUS_NOBAND true).raise (clkEvt 0x03 .warn hm (w * 1024 / 2 ^ 40))

/-- Step 3 of R60: bypass, loop open, the new band and word loaded, LOCK 0. -/
def Engine.relockOpen (e : Engine) (r : Relock) : Engine :=
  let e := ((e.useBand r.entry).put CLK_STATUS_STATE 4).putB CLK_STATUS_LOCK false
  { e with clk := { e.clk with relock := some { r with step := 3 } } }

/-- A relock of word `w` on band entry `n` starts (R59, R60 step 1); with the tick
stopped it goes at once to step 3 (Corners "Relock while the tick is stopped"). -/
def Engine.relockStart (e : Engine) (hm w n : Nat) : Engine :=
  let r : Relock :=
    { word := w, entry := n, oldBand := e.get CLK_STATUS_BAND,
      tried := [e.get (CLK_BAND_LO_CODE n)], step := 1, stopped := e.stopped }
  let e := ((e.putB CLK_STATUS_NOBAND false).putB CLK_STATUS_RELOCK true).put CLK_STATUS_STATE 3
  let e := e.raise (clkEvt 0x01 .note hm (w / 2 ^ 32))
  let e := { e with clk := { e.clk with relock := some r } }
  if r.stopped then e.relockOpen r
  else { e with tick := { e.tick with discard := [e.block, e.block + 1, e.block + 2] } }

/-- A commit evaluated in LOCKED: a small step inside the band in use is applied
(R57); anything else relocks (R59), unless the pair forbids it (R62) or no band
fits (R55). -/
def Engine.clkEval (e : Engine) (hm w : Nat) : Engine :=
  let cur := e.clkWord
  if (max w cur - min w cur) ≤ smallStep ∧ inBand w e.clk.bandLo e.clk.bandHi then
    let e := (e.setClkWord w).putB CLK_STATUS_NOBAND false
    { e with clk := { e.clk with lastApply := some e.now } }
  else if e.lockstep then e.raise (clkEvt 0x0B .warn hm (w / 2 ^ 32))
  else match e.bandFor w [] with
    | none => e.noBand hm w
    | some n => e.relockStart hm w n

/-- The hold of R58 is still running. -/
def Engine.stepHeld (e : Engine) : Bool :=
  match e.clk.lastApply with
  | some c => decide (e.now < c + 6144)
  | none => false

/-- A commit held; a further one replaces it (R58, R75). -/
def Engine.clkHold (e : Engine) (hm w : Nat) : Engine :=
  let e := e.putB CLK_STATUS_STEP_PEND true
  { e with clk := { e.clk with held := some w, heldHm := hm } }

/-- No commit is held any more. -/
def Engine.clkUnhold (e : Engine) : Engine :=
  let e := e.putB CLK_STATUS_STEP_PEND false
  { e with clk := { e.clk with held := none, heldHm := 0xFF } }

/-- The word lies within the reach of R50. -/
def clkReach (w : Nat) : Bool := decide (wNom - wReach ≤ w) && decide (w ≤ wNom + wReach)

/-- A committed target within reach (R51 to R59, R75). In BYPASS no lock exists to step or
relock, so the word becomes the one acquisition starts on, and replaces a held one. -/
def Engine.clkCommit (e : Engine) (hm w : Nat) : Engine :=
  if e.get CLK_STATUS_STATE = 0 then (e.clkUnhold.setClkWord w).putB CLK_STATUS_NOBAND false
  else if e.get CLK_STATUS_STATE = 2 then
    if e.stepHeld then e.clkHold hm w else e.clkEval hm w
  else e.clkHold hm w

/-- A held commit taken up once it may be (R58, R75, Corners "Lock lost during a
small step"). -/
def Engine.clkHeldApply (e : Engine) : Engine :=
  match e.clk.held with
  | some w =>
    if e.get CLK_STATUS_STATE = 2 ∧ e.stepHeld = false then
      e.clkUnhold.clkEval e.clk.heldHm w
    else e
  | none => e

/-- The CLK_TGT pair with value `v` takes effect: a firmware commit. While REF drives, and
beyond the reach of R50, the write is refused and changes nothing (R50 to R52). -/
def Engine.clkTgt (e : Engine) (by_ : Sender) (v : Word) : Engine :=
  let w := bitsOf v 0 15 * 2 ^ 32 + e.get CLK_TGT_LO_FRAC
  if e.cpOn CLK_SEL_REFDRV then e.raise (clkEvt 0x09 .warn by_.hm v.toNat)
  else if clkReach w then (e.wrCp CLK_TGT (v &&& 0x00007FFF#32)).clkCommit by_.hm w
  else e.raise (clkEvt 0x0A .warn by_.hm v.toNat)

/-- The CLK_SEL pair takes effect: XEXT keeps the fuse value whatever is written (R48). -/
def Engine.clkSel (e : Engine) (v : Word) : Engine :=
  e.wrCp CLK_SEL (BitVec.ofNat 32 (e.get CLK_SEL_XEXT + 2 * bitsOf v 1 1))

/-- A relock ends with its word in use: LOCKED, RELOCK_DONE, and a held commit is evaluated
(R60, R75). -/
def Engine.relockFinish (e : Engine) (r : Relock) : Engine :=
  let e := (((e.put CLK_STATUS_STATE 2).putB CLK_STATUS_RELOCK false).setClkWord r.word).raise
    (clkEvt 0x02 .note 0xFF (e.get CLK_STATUS_BAND))
  { e with clk := { e.clk with relock := none } }.clkHeldApply

/-- The PLL declares lock (R60 step 4; note to CLK_CTRL.PLL_EN); a commit held meanwhile is
evaluated once STATE is LOCKED (R75). -/
def Engine.pllLocked (e : Engine) : Engine :=
  if e.get CLK_STATUS_STATE = 1 then
    ((e.put CLK_STATUS_STATE 2).putB CLK_STATUS_LOCK true).clkHeldApply
  else match e.clk.relock with
    | some r =>
      if e.get CLK_STATUS_STATE ≠ 4 then e
      else
        let e := e.putB CLK_STATUS_LOCK true
        if r.stopped then e.relockFinish r
        else
          let e := e.put CLK_STATUS_STATE 5
          { e with clk := { e.clk with relock := some { r with step := 4 } } }
    | none => e

/-- A relock whose tick stops no longer waits for block boundaries: before step 3 it goes to
step 3, and once lock is declared it is done (Corners "Relock while the tick is stopped"). -/
def Engine.relockHeld (e : Engine) : Engine :=
  match e.clk.relock with
  | none => e
  | some r =>
    if r.stopped then e
    else if r.step < 3 then e.relockOpen { r with stopped := true }
    else if r.step = 3 then { e with clk := { e.clk with relock := some { r with stopped := true } } }
    else e.relockFinish r

/-- Once the faded-in block has been scattered the engine is LOCKED
and a held commit is evaluated (R60 step 8, R75). -/
def Engine.relockDone (e : Engine) : Engine :=
  match e.clk.relock with
  | some r =>
    if r.step = 7 then
      let e := ((e.put CLK_STATUS_STATE 2).putB CLK_STATUS_RELOCK false).raise
        (clkEvt 0x02 .note 0xFF (e.get CLK_STATUS_BAND))
      { e with clk := { e.clk with relock := none }, tick := { e.tick with discard := [] } }.clkHeldApply
    else e
  | none => e

/-- What the relock sequence does at a tick start (R60 steps 2, 3, 5, 6 and 7). -/
def Engine.relockTick (e : Engine) : Engine :=
  match e.clk.relock with
  | none => e
  | some r =>
    let go (k : Nat) (e : Engine) : Engine :=
      { e with clk := { e.clk with relock := some { r with step := k } } }
    match r.step with
    | 1 => go 2 e
    | 2 => e.relockOpen r
    | 3 => { e with tick := { e.tick with discard := e.tick.discard ++ [e.block] } }
    | 4 => go 5 (e.setClkWord r.word)
    | 5 => go 6 e
    | 6 => go 7 e
    | _ => e

/-- COMPUTE is suspended in this tick by a relock (R60 steps 2 to 5). -/
def Engine.computeSuspended (e : Engine) : Bool :=
  match e.clk.relock with
  | some r => decide (2 ≤ r.step ∧ r.step ≤ 5)
  | none => false

/-- A safe stop: every output is hard-muted, RUN is cleared and the ESC runs on
the bypass sample clock to the next multiple of 32, where it holds (R72). -/
def Engine.safeStop (e : Engine) (bypass : Bool) : Engine :=
  let e := e.put TICK_CFG_RUN 0
  let e := if bypass then (e.put CLK_STATUS_STATE 0).putB CLK_STATUS_LOCK false else e
  { e with tick := { e.tick with safeStop := !e.stopped, muted := true, safeHold := (e.tick.esc / 32 + 1) * 32, startReq := false,
                                 heldRun := false } }

/-- Bit per band code tried, word 2 of RELOCK_FAILED. -/
def triedMask (l : List Nat) : Nat := l.foldl (fun m c => m ||| 2 ^ c) 0

/-- Lock not declared within 200 µs. A relock tries the next-best
band once; a second failure, or a failed acquisition, is RELOCK_FAILED with a safe
stop, and CLK_CUR keeps the word in use before the relock (R76, note to PLL_EN). A held
commit waits on for LOCKED (R75). -/
def Engine.relockTimeout (e : Engine) : Engine :=
  let fail (e : Engine) (tried : List Nat) : Engine :=
    let e := (e.raise (clkEvt 0x07 .fault 0xFF (triedMask tried))).safeStop true
    let e := e.putB CLK_STATUS_RELOCK false
    { e with clk := { e.clk with relock := none } }
  if e.get CLK_STATUS_STATE = 1 then fail e [e.get CLK_STATUS_BAND]
  else match e.clk.relock with
    | some r =>
      if e.get CLK_STATUS_STATE ≠ 4 then e
      else if r.tried.length < 2 then
        match e.bandFor r.word r.tried with
        | some n =>
          let e := e.useBand n
          let r := { r with entry := n, tried := r.tried ++ [e.get (CLK_BAND_LO_CODE n)] }
          { e with clk := { e.clk with relock := some r } }
        | none => (fail e r.tried).put CLK_STATUS_BAND r.oldBand
      else (fail e r.tried).put CLK_STATUS_BAND r.oldBand
    | none => e

/-- A write of CLK_CTRL: in BYPASS, setting PLL_EN starts acquisition on the word
in CLK_CUR with the band of R54 (R55 when none fits); clearing it acts only in
BYPASS (note to R79). After XTAL_FAIL there is no crystal to acquire on (R73). -/
def Engine.pllEnable (e : Engine) (v : Word) : Engine :=
  if bitOf v 0 then
    let e := e.put CLK_CTRL_PLL_EN 1
    if e.get CLK_STATUS_STATE = 0 ∧ e.on CLK_STATUS_XFAIL = false then
      match e.bandFor e.clkWord [] with
      | some n => ((e.useBand n).putB CLK_STATUS_NOBAND false).put CLK_STATUS_STATE 1
      | none => e.noBand 0xFF e.clkWord
    else e
  else if e.get CLK_STATUS_STATE = 0 then e.put CLK_CTRL_PLL_EN 0
  else e

/-- PLL_ACQUIRE_START. -/
def execPllAcquireStart (v : Word) (s : State) : Out := s.eff fun e => e.pllEnable v

/-- CAL_MEASURE_START: a write of CLK_CAL_CTRL; START is refused outside BYPASS,
and clears VALID (R56). -/
def Engine.calStart (e : Engine) (by_ : Sender) (v : Word) : Engine :=
  let e := (e.put CLK_CAL_CTRL_CODE (bitsOf v 0 5)).put CLK_CAL_CTRL_VT (bitsOf v 8 1)
  if bitOf v 16 then
    if e.get CLK_STATUS_STATE = 0 then
      (e.put CLK_CAL_CTRL_BUSY 1).put CLK_CAL_COUNT_VALID 0
    else e.raise (clkEvt 0x0C .warn by_.hm 0)
  else e

def execCalMeasureStart (by_ : Sender) (v : Word) (s : State) : Out :=
  s.eff fun e => e.calStart by_ v

/-- CAL_MEASURE_DONE: the count of VCO/16 over 16,384 crystal cycles (R56). -/
def execCalMeasureDone (count : Nat) (s : State) : Out :=
  s.eff fun e =>
    if e.on CLK_CAL_CTRL_BUSY then
      ((e.put CLK_CAL_COUNT_COUNT count).put CLK_CAL_COUNT_VALID 1).put CLK_CAL_CTRL_BUSY 0
    else e

/-- LPO_CAL_UPDATE: the crystal cycles counted over 256 LPO cycles, while the
crystal runs (R67). -/
def execLpoCalUpdate (count : Nat) (s : State) : Out :=
  s.eff fun e =>
    if e.on CLK_STATUS_XFAIL then e
    else (e.put CLK_LPO_CAL_COUNT count).put CLK_LPO_CAL_VALID 1

/-- CLK_GATE_WRITE: a bit set requests its gate; a bit cleared opens it (R66). -/
def Engine.gateWrite (e : Engine) (v : Word) : Engine :=
  let g := v &&& 0x001FFFFF#32
  (e.wr CLK_GATE g).wr CLK_GATE_STATUS (e.rd CLK_GATE_STATUS &&& g)

end Sys2Proof.Machine
end

