-- ==== Sys2Proof/Machine/Ref.lean ====
section
/-!
DEFINITION. REF: measuring, qualifying and selecting the reference, the word it
forms, phase pulls, holdover, the video sequence and REALIGN (chapter "Reference
Selection, Holdover and Steering").
-/
namespace Sys2Proof.Machine

/-- A REF event (R112). -/
def refEvt (code : Nat) (sev : Sev) (hm w2 w3 : Nat) : Evt :=
  { block := 0x02, code := code, sev := sev, hm := hm, w2 := w2, w3 := w3 }

/-- Fine units per phase unit. -/
def fine : Int := 10 ^ 12

/-- Phase units in one update interval of 8,192 FABRIC cycles: 32,768 root
periods of 256 units (R91). A pull of p ppt moves p × this many fine units. -/
def updUnits : Int := 8388608

/-- One sample period in phase units (R97). -/
def Engine.periodUnits (e : Engine) : Int := if e.on TICK_CFG_RATE then 6553600 else 13107200

/-- ⌊x / y + 1/2⌋ for a positive divisor: RND of a quotient (R14). -/
def rndDiv (x y : Int) : Int := (2 * x + y).fdiv (2 * y)

/-- The whole pending phase in fine units. -/
def RefSt.pend (r : RefSt) : Int := r.pendSw + r.pendStep

/-- The part of the pull in progress that removes pending phase of a switch, which goes
first. -/
def RefSt.movingSw (r : RefSt) : Int :=
  if 0 ≤ r.moving then max 0 (min r.moving r.pendSw) else min 0 (max r.moving r.pendSw)

/-- The pending phase of an earlier switch gives way to `ph`; what the pull in progress moves
of it is taken as moved (R96, R107). -/
def RefSt.setSw (r : RefSt) (ph : Int) : RefSt :=
  { r with pendSw := ph, outOfs := r.outOfs - r.movingSw, moving := r.moving - r.movingSw }

/-- Pending phase and output offset as the registers show them; PULL_DONE when the pending
phase becomes zero (R96 to R98, R107). -/
def Engine.refShow (e : Engine) : Engine :=
  let e := e.wr REF_PHASE_PEND (wordOfInt (rndDiv e.ref.pend fine))
  let done := e.on REF_STATUS_PULL && decide (e.ref.pend = 0)
  let e := e.putB REF_STATUS_PULL (decide (e.ref.pend ≠ 0))
  let e := if done then e.raise (refEvt 0x06 .note 0xFF 0 0) else e
  let e := e.wr REF_OUT_OFFSET (wordOfInt (rndDiv e.ref.outOfs fine))
  let mis := decide (e.ref.outOfs ≠ 0)
  let rise := mis && !e.on REF_STATUS_OUT_MISALIGNED
  let e := e.putB REF_STATUS_OUT_MISALIGNED mis
  if rise then e.raise (refEvt 0x07 .note 0xFF (e.rd REF_OUT_OFFSET).toNat 0) else e

/-- Source `n` is eligible: QUALIFIED and its priority is not 7. -/
def Engine.refEligible (e : Engine) (n : Nat) : Bool :=
  e.get (REF_SRC_STATE_STATE n) == 2 && bitsOf (e.cpVal REF_PRIO) (3 * n) 3 != 7

/-- The best eligible source: lowest priority value, ties to the lower number. -/
def Engine.refBest (e : Engine) : Option Nat :=
  (List.range 7).foldl (fun best n =>
    if e.refEligible n then
      match best with
      | none => some n
      | some m =>
        if bitsOf (e.cpVal REF_PRIO) (3 * n) 3 < bitsOf (e.cpVal REF_PRIO) (3 * m) 3
        then some n else best
    else best) none

/-- The history entries that ended 1 s or more ago. -/
def RefSt.oldEntries (r : RefSt) : List (Nat × Nat) :=
  if r.histNew then r.history.drop 1 else r.history

/-- The mean of R100 over the last `2^AVG_LOG2` entries that ended 1 s or more
ago, with RND; with no entry, the pull-free word. -/
def RefSt.holdMean (r : RefSt) (avg : Nat) : Nat :=
  let h := r.oldEntries.take (2 ^ avg)
  if h.isEmpty then r.freeWord
  else
    let q : Rat := (h.map fun p => (p.1 : Rat) / (p.2 : Rat)).sum / (h.length : Rat)
    (q + 1 / 2).floor.toNat

/-- A word shown in a LO/HI register pair. -/
def Engine.refHoldShow (e : Engine) (w : Nat) : Engine :=
  ((e.put REF_HOLD_WORD_LO_FRAC (w % 2 ^ 32)).put REF_HOLD_WORD_HI_FRAC_HI (w / 2 ^ 32 % 2 ^ 8)).put
    REF_HOLD_WORD_HI_INT (w / 2 ^ 40)

/-- Entering holdover: SEL 7, the holdover word of R100, switch-derived pending
phase discarded, written steps kept (R89, R100 to R102). -/
def Engine.refHoldover (e : Engine) (forced : Bool) : Engine :=
  let old := e.get REF_STATUS_SEL
  let avg := e.get REF_HOLD_CFG_AVG_LOG2
  let w := e.ref.holdMean avg
  let short := decide (e.ref.oldEntries.length < 2 ^ avg)
  let e := ((e.put REF_STATUS_SEL 7).putB REF_STATUS_HOLD true).putB REF_STATUS_HOLD_SHORT short
  let e := if forced then e.putB REF_STATUS_FORCED true else e
  let e := e.updRef fun r => { r.setSw 0 with holdWord := w, secPart := true }
  let e := (e.refHoldShow w).refShow
  let e := if old ≠ 7 then e.raise (refEvt 0x03 .note 0xFF (old + 7 * 16) 0) else e
  e.raise (refEvt 0x04 .warn 0xFF (if forced then 1 else 0) 0)

/-- The pending phase a switch to source `n` sets (R96). -/
def Engine.refSwitchPend (e : Engine) (n : Nat) : Int :=
  if 1 ≤ n ∧ n ≤ 5 then sval (e.rd (REF_SRC_PHASE n)) * fine else 0

/-- A switch to source `n` (R89, R96). -/
def Engine.refSwitch (e : Engine) (n : Nat) : Engine :=
  let old := e.get REF_STATUS_SEL
  let ph := e.refSwitchPend n
  let e := (e.put REF_STATUS_SEL n).putB REF_STATUS_HOLD false
  let e := e.updRef fun r => r.setSw ph
  let e := e.refShow
  let e := e.raise (refEvt 0x03 .note 0xFF (old + n * 16) (wordOfInt (ph / fine)).toNat)
  if old = 7 then e.raise (refEvt 0x05 .note 0xFF n 0) else e

/-- The choice of R87 (AUTO = 1) or R88 (AUTO = 0); none is holdover. -/
def Engine.refChoice (e : Engine) : Option Nat :=
  let cur := e.get REF_STATUS_SEL
  if e.cpOn REF_CTRL_AUTO then
    if cur ≠ 7 ∧ e.refEligible cur ∧ e.cpOn REF_CTRL_REVERT = false then some cur
    else e.refBest
  else
    let m := e.cp REF_CTRL_MAN_SRC
    if m < 7 ∧ e.get (REF_SRC_STATE_STATE m) = 2 then some m else none

/-- Selection re-evaluated after any change of source state, REF_CTRL or REF_PRIO;
while lock loss forces holdover nothing is selected (R87, R88, R102). -/
def Engine.refSelect (e : Engine) : Engine :=
  if e.on REF_STATUS_FORCED then e
  else
    let e := e.updRef fun r => { r with resel := false }
    match e.refChoice with
    | some n => if n = e.get REF_STATUS_SEL then e else e.refSwitch n
    | none => if e.get REF_STATUS_SEL = 7 then e else e.refHoldover false

/-- Lock loss forces holdover whatever REF's state; a holdover in force goes on with its
word (R69, R101, R102). -/
def Engine.refForced (e : Engine) : Engine :=
  if e.get REF_STATUS_SEL = 7 then e.putB REF_STATUS_FORCED true else e.refHoldover true

/-- LOCK_REGAINED or RELOCK_DONE ends forced holdover; REF selects at its next update (R102,
Corners "Lock loss in the middle of a pull"). -/
def Engine.refUnforced (e : Engine) : Engine :=
  if e.on REF_STATUS_FORCED then
    (e.putB REF_STATUS_FORCED false).updRef fun r => { r with resel := true }
  else e

/-- What a change of the clock from `e` to `t` means for REF: LOCK falling to 0 forces
holdover, and a relock that is done ends it (R102). -/
def Engine.refWatch (e t : Engine) : Engine :=
  if e.on CLK_STATUS_LOCK && !t.on CLK_STATUS_LOCK then t.refForced
  else if e.on CLK_STATUS_RELOCK && !t.on CLK_STATUS_RELOCK && t.get CLK_STATUS_STATE == 2 then t.refUnforced
  else t

/-- The state of source `n` becomes `st`; REF_STATUS.QUAL follows (R83). -/
def Engine.refSetState (e : Engine) (n st : Nat) : Engine :=
  let e := e.put (REF_SRC_STATE_STATE n) st
  let q := e.get REF_STATUS_QUAL
  let q := q - (if q / 2 ^ n % 2 = 1 then 2 ^ n else 0) + (if st = 2 then 2 ^ n else 0)
  let e := e.put REF_STATUS_QUAL q
  let r := { Tbl.get {} e.ref.src n with good := 0, holdoff := 0 }
  e.updRef fun x => { x with src := Tbl.set {} x.src n r }

/-- Source `n` is disqualified (R83). -/
def Engine.refDisqualify (e : Engine) (n : Nat) : Engine :=
  if e.get (REF_SRC_STATE_STATE n) = 2 then
    ((e.refSetState n 3).raise (refEvt 0x02 .warn 0xFF n (e.rd (REF_SRC_FREQ n)).toNat)).refSelect
  else e

/-- The measurement state of source `n` changed. -/
def Engine.refSrcUpd (e : Engine) (n : Nat) (f : RefSrc → RefSrc) : Engine :=
  { e with ref := { e.ref with src := Tbl.set {} e.ref.src n (f (Tbl.get {} e.ref.src n)) } }

/-- What a gate's verdict does to source `n` (R83, R84, R86): `dt` is the gate's
length in 0.1 s units. -/
def Engine.refGate (e : Engine) (n dt : Nat) (good : Bool) : Engine :=
  let st := e.get (REF_SRC_STATE_STATE n)
  let r := Tbl.get {} e.ref.src n
  let e := e.refSrcUpd n fun r =>
    { r with losGate := e.on (REF_SRC_STATE_LOS n), okFell := !e.on REF_PTP_QUAL_OK,
             good := if good ∧ st = 1 then r.good + dt else 0,
             holdoff := if good ∧ st = 3 then r.holdoff + dt else 0 }
  match st with
  | 1 =>
    if good ∧ e.get (REF_SRC_CFG_QUAL_TIME n) ≤ r.good + dt then
      ((e.refSetState n 2).raise (refEvt 0x01 .note 0xFF n 0)).refSelect
    else e
  | 2 => if good then e else e.refDisqualify n
  | 3 =>
    if good ∧ e.get REF_HOLDOFF_SEC * 10 ≤ r.holdoff + dt then e.refSetState n 1 else e
  | _ => e

/-- REF_GATE_END: at the end of a gate of source `n` (0 to 5), the measured offset
is recorded and the source's state advances; source 0 is judged on REF_FREQ_PPT
(R82 to R85). The gate of PPS_IN is 1 s, every other 0.1 s. -/
def Engine.refGateEnd (e : Engine) (n : Nat) (present : Bool) (ppt : Int) : Engine :=
  if 6 ≤ n ∨ e.get (REF_SRC_STATE_STATE n) = 0 then e
  else
    let win : Int := e.get (REF_SRC_CFG_WIN n) * 1000000
    let r := Tbl.get {} e.ref.src n
    if n = 0 then
      let p := sval (e.rd REF_FREQ_PPT)
      e.refGate 0 1 (e.on REF_PTP_QUAL_OK && !r.okFell && decide (-win ≤ p) && decide (p ≤ win))
    else
      let e := e.wr (REF_SRC_FREQ n) (wordOfInt ppt)
      e.refGate n (if n = 3 then 10 else 1)
        (present && !r.losGate && !e.on (REF_SRC_STATE_LOS n) && decide (-win ≤ ppt) && decide (ppt ≤ win))

def execRefGateEnd (n : Nat) (present : Bool) (ppt : Int) (s : State) : Out :=
  s.eff fun e => e.refGateEnd n present ppt

/-- REF_LOS: no reference event of hardware source `n` for its LOS time (R82). -/
def Engine.refLos (e : Engine) (n : Nat) : Engine :=
  if 1 ≤ n ∧ n ≤ 5 ∧ e.get (REF_SRC_STATE_STATE n) ≠ 0 then
    ((e.putB (REF_SRC_STATE_LOS n) true).refSrcUpd n fun r => { r with losGate := true }).refDisqualify n
  else e

def execRefLos (n : Nat) (s : State) : Out := s.eff fun e => e.refLos n

/-- A phase hit: treated as a switch to the same source (R99). -/
def Engine.refPhaseHit (e : Engine) (n : Nat) (ph : Int) : Engine :=
  let e := e.raise (refEvt 0x09 .warn 0xFF n (wordOfInt ph).toNat)
  (e.updRef fun r => r.setSw (ph * fine)).refShow

/-- The wrap of e into [-T/2, T/2) (R92). -/
def wrapPhase (t ph : Int) : Int := (ph + t / 2).fmod t - t / 2

/-- REF_EVENT: a reference event of hardware source `n`, `ph` phase units from the
sample edge. It ends a loss of signal, is recorded, and while the source is
selected either is a phase hit or feeds the tracking loop, of which the manual
gives the bandwidth only: the frequency it settles to is a free value (R92, R99). A MADI
receiver gives events in LOCKED only (R458). -/
def Engine.refEvent (e : Engine) (n : Nat) (ph : Int) : Engine :=
  if 1 ≤ n ∧ n ≤ 5 ∧ e.get (REF_SRC_STATE_STATE n) ≠ 0 ∧ (4 ≤ n → e.get (MADI_RX_STATUS_STATE (n - 4)) = 2) then
    let t := e.periodUnits
    let ph := wrapPhase t ph
    let e := (e.putB (REF_SRC_STATE_LOS n) false).wr (REF_SRC_PHASE n) (wordOfInt ph)
    if e.get REF_STATUS_SEL = n then
      if t < 4 * ph ∨ 4 * ph < -t then e.refPhaseHit n ph
      else { e with ref := { e.ref with
        loopPpt := Config.trackLoop (e.cp REF_CTRL_BW) e.ref.loopPpt ph } }
    else e
  else e

def execRefEvent (n : Nat) (ph : Int) (s : State) : Out := s.eff fun e => e.refEvent n ph

/-- VREF_FRAME_START: a VREF_F edge, `off` samples from the frame start the
sequence predicts. It advances the five-frame position, or takes a written one;
more than 2 samples off, the sequence restarts with the written position, with
VSEQ_ERROR and a phase hit (R103 to R105). -/
def Engine.vrefFrame (e : Engine) (off ph : Int) : Engine :=
  if e.get (REF_SRC_STATE_STATE 2) = 0 then e
  else
    let next := match e.ref.vseqWrite with
      | some p => p
      | none => (e.get REF_VSEQ_PHASE + 1) % 5
    let esc := e.tick.esc
    let e := (e.wr REF_VSEQ_ESC_LO (BitVec.ofNat 32 esc)).wr REF_VSEQ_ESC_HI (BitVec.ofNat 32 (esc / 2 ^ 32))
    if off < -2 ∨ 2 < off then
      let e := e.raise (refEvt 0x0D .warn 0xFF (wordOfInt off).toNat 0)
      let e := { e with ref := { e.ref with vseqWrite := none } }
      if e.get REF_STATUS_SEL = 2 then e.refPhaseHit 2 (wrapPhase e.periodUnits ph) else e
    else
      { e.put REF_VSEQ_PHASE next with ref := { e.ref with vseqWrite := none } }

def execVrefFrameStart (off ph : Int) (s : State) : Out := s.eff fun e => e.vrefFrame off ph

/-- The source frequency in ppt: REF_FREQ_PPT for sources 0 and 6, the tracking
loop's for 1 to 5 (R92). -/
def Engine.refSrcPpt (e : Engine) : Int :=
  let s := e.get REF_STATUS_SEL
  if s = 0 ∨ s = 6 then sval (e.rd REF_FREQ_PPT) else e.ref.loopPpt

/-- The word for a frequency of `f` fine units per update interval:
W_NOM + RND(W_NOM × p / 10^12) (R91). -/
def refWordOf (f : Int) : Nat :=
  ((wNom : Int) + rndDiv ((wNom : Int) * f) (10 ^ 12 * updUnits)).toNat

/-- The largest pull in fine units per interval (R98). -/
def Engine.pullLimit (e : Engine) : Int :=
  if e.cpOn REF_CTRL_SWITCH_MODE then (e.get REF_ANNEAL_SLOPE : Int) * 100000 * updUnits
  else 100000000 * updUnits

/-- The phase the pull of the last interval moved is taken off the pending phase,
that of switches first; the generator does not follow it (R98, R107). -/
def Engine.refMoved (e : Engine) : Engine :=
  (e.updRef fun r => { r with
    pendSw := r.pendSw - r.movingSw, pendStep := r.pendStep - (r.moving - r.movingSw),
    moving := 0, outOfs := r.outOfs - r.moving }).refShow

/-- The word a commit carries for the needed word `w`: outside the band in use the nearest
at least one band unit inside it, unless a relock is allowed (R95), and at most 100 ppm from
the applied word (R94). -/
def Engine.refCommitWord (e : Engine) (w : Nat) : Nat :=
  let cur := e.clkWord
  let lo := e.clk.bandLo
  let hi := e.clk.bandHi
  let w := if hi = 0 ∨ inBand w lo hi ∨ (e.cpOn REF_CTRL_RELOCK_OK ∧ e.lockstep = false) then w
    else min (max w ((lo + 1) * 2 ^ 30)) ((hi - 1) * 2 ^ 30)
  min (max w (cur - 10995116277)) (cur + 10995116277)

/-- BANDEDGE and its event, once per episode (R95). -/
def Engine.refBandEdge (e : Engine) (w : Nat) : Engine :=
  let out := decide (e.clk.bandHi ≠ 0) && !inBand w e.clk.bandLo e.clk.bandHi
  let rise := out && !e.on REF_STATUS_BANDEDGE
  let e := e.putB REF_STATUS_BANDEDGE out
  if rise then e.raise (refEvt 0x0A .warn 0xFF (w * 1024 / 2 ^ 40) 0) else e

/-- The word is shown (R90). -/
def Engine.refWordShow (e : Engine) (w : Nat) : Engine :=
  (e.put REF_WORD_LO_FRAC (w % 2 ^ 32)).put REF_WORD_HI_WORD (w / 2 ^ 32)

/-- The word is committed while REFDRV is 1 (R90, R94, R95). -/
def Engine.refCommit (e : Engine) (w : Nat) : Engine :=
  if e.cpOn CLK_SEL_REFDRV then
    let e := e.refBandEdge w
    let c := e.refCommitWord w
    if c = e.clkWord then e else e.clkCommit 0xFF c
  else e

/-- The part of `pull`, in fine units per interval, that the word committed for the needed
word `w` carries: a limit of R94 or R95 cuts the pull first (R91, R98). -/
def Engine.refPullKept (e : Engine) (w : Nat) (pull : Int) : Int :=
  if e.cpOn CLK_SEL_REFDRV then
    let cut := rndDiv (((w : Int) - e.refCommitWord w) * (10 ^ 12 * updUnits)) wNom
    if 0 ≤ pull then min pull (max 0 (pull - cut)) else max pull (min 0 (pull - cut))
  else pull

/-- REF_UPDATE: every 8,192 FABRIC cycles REF takes off what the pull moved, forms
the word of R91 with the pull of R98 (the clamp reduces the pull first) and
commits it; after a forced holdover it selects first (R102); in holdover the word is the holdover word with zero pull (R101). -/
def Engine.refUpdate (e : Engine) : Engine :=
  let e := (if e.ref.resel then e.refSelect else e).refMoved
  if e.get REF_STATUS_SEL = 7 then (e.refWordShow e.ref.holdWord).refCommit e.ref.holdWord
  else
    let lim : Int := 1200000000 * updUnits
    let src := clampInt (-lim) lim (e.refSrcPpt * updUnits)
    let pull := clampInt (-e.pullLimit) e.pullLimit e.ref.pend
    let pull := if 0 ≤ pull then min pull (lim - src) else max pull (-lim - src)
    let free := refWordOf src
    let w := refWordOf (src + pull)
    let e := e.updRef fun r => { r with
      moving := e.refPullKept w pull, freeWord := free, secSum := r.secSum + free, secCnt := r.secCnt + 1 }
    (e.refWordShow w).refCommit w

def execRefUpdate (s : State) : Out := s.eff fun e => e.refWatch e.refUpdate

/-- REF_HISTORY_SAMPLE: the average of the pull-free word over a second in which REF tracked
throughout is stored (R100). -/
def execRefHistorySample (s : State) : Out :=
  s.eff fun e => e.updRef fun r =>
    let r := if r.secCnt = 0 ∨ r.secPart then { r with histNew := false }
      else { r with history := ((r.secSum, r.secCnt) :: r.history).take 1024, histNew := true }
    { r with secSum := 0, secCnt := 0, secPart := decide (e.get REF_STATUS_SEL = 7) }

/-- REF_PTP_QUAL_WRITE: clearing OK disqualifies source 0 at once (R85). -/
def Engine.refPtpQual (e : Engine) (v : Word) : Engine :=
  let e := e.put REF_PTP_QUAL_OK (bitsOf v 0 1)
  if bitOf v 0 then e
  else (e.refSrcUpd 0 fun r => { r with okFell := true }).refDisqualify 0

def execRefPtpQualWrite (v : Word) (s : State) : Out := s.eff fun e => e.refPtpQual v

/-- REF_FREQ_WRITE: stored at once, or refused beyond ±1,200,000,000 ppt (R93). -/
def Engine.refFreqWrite (e : Engine) (by_ : Sender) (v : Word) : Engine :=
  if sval v < -1200000000 ∨ 1200000000 < sval v then e.raise (refEvt 0x0C .warn by_.hm v.toNat 0)
  else e.wr REF_FREQ_PPT v

def execRefFreqWrite (by_ : Sender) (v : Word) (s : State) : Out :=
  s.eff fun e => e.refFreqWrite by_ v

/-- REF_PHASE_STEP_WRITE: added to the pending phase, or refused outside ±1 sample
period or when the pending phase would pass 2 sample periods (R97). -/
def Engine.refStepWrite (e : Engine) (by_ : Sender) (v : Word) : Engine :=
  let t := e.periodUnits
  let p := e.ref.pend + sval v * fine
  if sval v < -t ∨ t < sval v ∨ p < -(2 * t * fine) ∨ 2 * t * fine < p then
    e.raise (refEvt 0x0B .warn by_.hm v.toNat 0)
  else { e with ref := { e.ref with pendStep := e.ref.pendStep + sval v * fine } }.refShow

def execRefPhaseStepWrite (by_ : Sender) (v : Word) (s : State) : Out :=
  s.eff fun e => e.refStepWrite by_ v

/-- REALIGN_COMMAND: a REALIGN at the first sample of the next block (R108). -/
def Engine.realignReq (e : Engine) (v : Word) : Engine :=
  if bitOf v 0 then { e with ref := { e.ref with realign := true } } else e

def execRealignCommand (v : Word) (s : State) : Out := s.eff fun e => e.realignReq v

/-- Samples from network time `t` (2^-32 ns) to the first sample at or after the
next whole second, at `fs` samples a second (R108). -/
def ppsCount (fs : Nat) (t : Int) : Nat :=
  let sec : Int := 1000000000 * 2 ^ 32
  let left := (sec - t.fmod sec).fmod sec
  ((left * fs + (sec - 1)).fdiv sec).toNat

/-- The frame rate of REF_VIDEO_CFG.RATE as a fraction of frames per second (R103). -/
def videoRate (r : Nat) : Nat × Nat :=
  match r with
  | 0 => (24000, 1001) | 1 => (24, 1) | 2 => (25, 1) | 3 => (30000, 1001)
  | 4 => (30, 1) | 5 => (50, 1) | 6 => (60000, 1001) | _ => (60, 1)

/-- Samples to the next whole frame period from the PTP epoch (R108, ST 2059-1). -/
def frameCount (fs rate : Nat) (t : Int) : Nat :=
  let (num, den) := videoRate rate
  let per : Int := den * 1000000000 * 2 ^ 32
  let ph := (t * num).fmod per
  let left := (per - ph).fmod per
  ((left * fs + (num * (1000000000 * 2 ^ 32) - 1)).fdiv (num * (1000000000 * 2 ^ 32))).toNat

/-- The first sample of frame `k` of the five-frame sequence of `s5` samples is
⌈k × S / 5⌉ (chapter text before R103). -/
def seqStart (s5 k : Nat) : Nat := (k * s5 + 4) / 5

/-- Samples of the five-frame sequence: 5 frame periods, exact for every rate (R103). -/
def seqLen (fs rate : Nat) : Nat := 5 * fs * (videoRate rate).2 / (videoRate rate).1

/-- Samples to the next frame start of REF_VSEQ (R104, R108). -/
def Engine.vseqCount (e : Engine) : Nat :=
  let s5 := seqLen e.fs (e.get REF_VIDEO_CFG_RATE)
  let k := e.get REF_VSEQ_PHASE
  let len := seqStart s5 (k + 1) - seqStart s5 k
  let last := (e.rd REF_VSEQ_ESC_LO).toNat + (e.rd REF_VSEQ_ESC_HI).toNat * 2 ^ 32
  let since := e.tick.esc - last
  if len = 0 then 0 else (len - since % len) % len

/-- A REALIGN takes effect at the edge of ESC `s`: the generator takes the engine's phase,
the pulse counts are set, and REALIGNED carries the offset removed; a second REALIGN at
the same sample joins the first (R108, R109). -/
def Engine.realignNow (e : Engine) (s : Nat) : Engine :=
  let e := e.updRef fun r => { r with
    realign := r.realign && s != e.tick.esc, realignDue := r.realignDue.filter (· != s) }
  if e.ref.realigned = some s then e
  else
    let removed := e.rd REF_OUT_OFFSET
    let inPull := decide (e.ref.pend ≠ 0)
    let frame := if e.get (REF_SRC_STATE_STATE 2) = 2 then e.vseqCount
      else frameCount e.fs (e.get REF_VIDEO_CFG_RATE) e.time.t
    let e := e.updRef fun r => { r with
      outOfs := 0, realigned := some s, ppsCnt := ppsCount e.fs e.time.t, frameCnt := frame }
    let e := (e.refShow).putB REF_STATUS_ALIGN_IN_PULL inPull
    e.raise (refEvt 0x08 .note 0xFF removed.toNat (if inPull then 1 else 0))

/-- REALIGN_APPLY: a requested REALIGN at the first sample of a block, or a fired REALIGN
action of the TAQ at its sample (R108, R136). -/
def execRealignApply (s : State) : Out :=
  s.eff fun e =>
    match e.ref.realignDue with
    | k :: _ => e.realignNow k
    | [] => if e.ref.realign ∧ e.tick.esc % e.nSamp = 0 then e.realignNow e.tick.esc else e

/-- One generator sample passes: the pulse counters run down and start again at
fs samples and at the frame's length (R106). -/
def Engine.refSample (e : Engine) : Engine :=
  let s5 := seqLen e.fs (e.get REF_VIDEO_CFG_RATE)
  let pps := if e.ref.ppsCnt = 0 then e.fs - 1 else e.ref.ppsCnt - 1
  let fr := if e.ref.frameCnt = 0 then s5 / 5 - 1 else e.ref.frameCnt - 1
  { e with ref := { e.ref with ppsCnt := pps, frameCnt := fr, genCnt := e.ref.genCnt + 1 } }

/-- A write of a REF register that has behaviour of its own (R87, R104, R111). -/
def Engine.refRegWrite (e : Engine) (by_ : Sender) (a : Nat) (v : Word) : Engine :=
  if a = REF_FREQ_PPT then e.refFreqWrite by_ v
  else if a = REF_PHASE_STEP then e.refStepWrite by_ v
  else if a = REF_CMD then e.realignReq v
  else if a = REF_PTP_QUAL then e.refPtpQual v
  else if a = REF_HOLD_CFG then
    if bitsOf v 0 4 ≤ 10 then e.put REF_HOLD_CFG_AVG_LOG2 (bitsOf v 0 4) else e
  else if a = REF_HOLDOFF then
    if bitsOf v 0 8 = 0 then e else e.put REF_HOLDOFF_SEC (bitsOf v 0 8)
  else if a = REF_ANNEAL then
    if 1 ≤ bitsOf v 0 10 ∧ bitsOf v 0 10 ≤ 1000 then e.put REF_ANNEAL_SLOPE (bitsOf v 0 10) else e
  else if a = REF_VSEQ then
    if bitsOf v 0 3 ≤ 4 then
      { e.put REF_VSEQ_PHASE (bitsOf v 0 3) with ref := { e.ref with vseqWrite := some (bitsOf v 0 3) } }
    else e
  else if REF_SRC_CFG 0 ≤ a ∧ a ≤ REF_SRC_CFG 6 ∧ (a - REF_SRC_CFG 0) % 16 = 0 then
    let n := (a - REF_SRC_CFG 0) / 16
    let win := bitsOf v 2 11
    let qt := bitsOf v 16 8
    let was := e.on (REF_SRC_CFG_EN n)
    let e := if 10 ≤ win ∧ win ≤ 1500 then e.put (REF_SRC_CFG_WIN n) win else e
    let e := if qt = 0 then e else e.put (REF_SRC_CFG_QUAL_TIME n) qt
    let e := (e.put (REF_SRC_CFG_EN n) (bitsOf v 0 1)).put (REF_SRC_CFG_DIV2 n) (bitsOf v 1 1)
    if bitOf v 0 then
      if was then e
      else if n = 6 then ((e.refSetState 6 2).raise (refEvt 0x01 .note 0xFF 6 0)).refSelect
      else (e.refSetState n 1).refSrcUpd n fun r =>
        { r with losGate := e.on (REF_SRC_STATE_LOS n), okFell := !e.on REF_PTP_QUAL_OK }
    else if was then ((e.refSetState n 0).putB (REF_SRC_STATE_LOS n) false).refSelect
    else e
  else e

end Sys2Proof.Machine
end

