-- ==== Sys2Proof/Machine/Time.lean ====
section
/-!
DEFINITION. TIME: the network time counter, its steering and steps, the tick latch
and the media clock, and the egress time-stamp FIFO (chapter "Network Time,
Time-Stamps and Timed Actions").
-/
namespace Sys2Proof.Machine

/-- A TIME event (R149). -/
def timeEvt (code : Nat) (sev : Sev) (hm w2 w3 : Nat) : Evt :=
  { block := 0x03, code := code, sev := sev, hm := hm, w2 := w2, w3 := w3 }

/-- One second in units of 2^-32 ns. -/
def oneSec : Int := 1000000000 * 2 ^ 32

/-- Network time wraps with its 48-bit seconds (R13). -/
def wrapTime (t : Int) : Int := t.fmod (2 ^ 48 * oneSec)

/-- Seconds, nanoseconds and the 24 readable fraction bits of a time (R113). -/
def timeSec (t : Int) : Nat := (t / oneSec).toNat
def timeNs (t : Int) : Nat := (t % oneSec / 2 ^ 32).toNat
def timeFrac (t : Int) : Nat := (t % 2 ^ 32 / 2 ^ 8).toNat

/-- The applied increment in units of 2^-32 ns (R113). -/
def Engine.timeIncr (e : Engine) : Int :=
  (e.get TIME_INCR_CUR_NS_NS : Int) * 2 ^ 32 + e.get TIME_INCR_CUR_FRAC_FRAC

/-- The clocks run from the crystal (R63): bypass, acquisition, and a relock until
the block boundary at which it switches back. -/
def Engine.inBypass (e : Engine) : Bool :=
  let st := e.get CLK_STATUS_STATE
  st == 0 || st == 1 || st == 4 ||
    (st == 5 && (match e.clk.relock with | some r => r.step == 4 | none => false))

/-- Network time advances by one FABRIC cycle: by the increment, or in bypass by
12.5 times the increment (R61, R113); in LISTEN FABRIC runs at an eighth, and eight increments
are added (R611). -/
def Engine.timeRun (e : Engine) : Engine :=
  let d := if e.inBypass then 25 * e.timeIncr else 2 * e.timeIncr
  let d := (if e.get PWR_STATUS_MODE = 2 then 8 * d else d) + (if e.time.half then 1 else 0)
  e.updTime fun x => { x with t := wrapTime (x.t + d / 2), half := d % 2 == 1, prior := none }

/-- A step takes effect: network time moves, the MCC is derived afresh at a later latch, and
the signed amount is reported, to TIME_STEP_LARGE beyond the limit (R118, R120, R132; a limit of
0 takes in every step). -/
def Engine.timeMove (e : Engine) (p : AdjStep) : Engine :=
  let t := e.time.t
  let new := if p.set then p.amt else wrapTime (t + p.amt)
  let d := if p.set then new - t else p.amt
  let ns := d.tdiv (2 ^ 32)
  let w2 := (wordOfInt (ns.tdiv 1000000000)).toNat
  let w3 := (wordOfInt (ns.tmod 1000000000)).toNat
  let e := e.updTime fun x => { x with
    t := new, half := x.half && !p.set, rederive := true, prior := some (x.prior.getD (t, x.rederive)) }
  let e := e.raise (timeEvt 0x01 .note p.hm w2 w3)
  let lim := (e.rd TIME_STEP_LIMIT).toNat
  if lim = 0 ∨ lim * 2 ^ 32 < d.natAbs then e.raise (timeEvt 0x02 .warn p.hm w2 w3) else e

/-- One FABRIC cycle of network time: the increment, then the steps commanded in the last cycle
(R113, R118). -/
def Engine.timeCycle (e : Engine) : Engine :=
  let e := e.timeRun
  let l := e.time.steps
  l.foldl (fun e p => e.timeMove p) (e.updTime fun x => { x with steps := [] })

/-- The TIME_INCR pair takes effect: the staged fraction is taken with it, unless
the increment lies outside 625/384 ns ± 2,000 ppm: such a write changes nothing (R114,
R115). -/
def Engine.timeIncrSet (e : Engine) (by_ : Sender) (v : Word) : Engine :=
  let ns := bitsOf v 0 8
  let fr := e.get TIME_INCR_FRAC_FRAC
  let d : Int := ((ns : Int) * 2 ^ 32 + fr) * 384 - 625 * 2 ^ 32
  if d * 500 ≤ 625 * 2 ^ 32 ∧ -(625 * 2 ^ 32) ≤ d * 500 then
    ((e.wrCp TIME_INCR (v &&& 0xFF#32)).put TIME_INCR_CUR_NS_NS ns).put TIME_INCR_CUR_FRAC_FRAC fr
  else e.raise (timeEvt 0x03 .warn by_.hm ns fr)

/-- TIME_INCR_COMMIT. -/
def execTimeIncrCommit (by_ : Sender) (v : Word) (s : State) : Out :=
  s.eff fun e => e.rowWrite by_ [(TIME_INCR, v)] fun e =>
    e.timeIncrSet by_ v

/-- The amount a TIME_ADJ_CTRL pair commands in units of 2^-32 ns, or none when TIME_ADJ_NS is
out of range (R118, R119). -/
def Engine.timeStepAmt (e : Engine) (set : Bool) : Option Int :=
  if set then
    let ns := (e.rd TIME_ADJ_NS).toNat
    if ns ≤ 999999999 then
      some (((e.get TIME_ADJ_SEC_HI_SEC : Int) * 2 ^ 32 + (e.rd TIME_ADJ_SEC).toNat) * oneSec
        + ns * 2 ^ 32)
    else none
  else
    let ns := sval (e.rd TIME_ADJ_NS)
    if -999999999 ≤ ns ∧ ns ≤ 999999999 then
      some (sval (e.rd TIME_ADJ_SEC) * oneSec + ns * 2 ^ 32)
    else none

/-- The TIME_ADJ_CTRL pair takes effect: GO, read back as 0, commands a step for the next FABRIC
cycle (R118); a refused step changes nothing, the register included (R119). -/
def Engine.timeStep (e : Engine) (by_ : Sender) (v : Word) : Engine :=
  if bitOf v 1 = false then e.wrCp TIME_ADJ_CTRL (v &&& 1#32)
  else match e.timeStepAmt (bitOf v 0) with
    | none => e.raise (timeEvt 0x06 .warn by_.hm (e.rd TIME_ADJ_NS).toNat 0)
    | some d =>
      (e.wrCp TIME_ADJ_CTRL (v &&& 1#32)).updTime fun t => { t with
        steps := t.steps ++ [{ set := bitOf v 0, amt := d, hm := by_.hm }] }

/-- TIME_STEP. -/
def execTimeStep (by_ : Sender) (v : Word) (s : State) : Out :=
  s.eff fun e => e.rowWrite by_ [(TIME_ADJ_CTRL, v)] fun e =>
    e.timeStep by_ v

/-- A read of TIME_NOW_NS captures the rest for the reader (R117). -/
def Engine.timeNowRead (e : Engine) (by_ : Sender) : Word × Engine :=
  let t := e.time.t
  (BitVec.ofNat 32 (timeNs t),
   e.capture TIME_NOW_NS by_.hm
     [timeSec t % 2 ^ 32, timeSec t / 2 ^ 32, timeFrac t, e.tick.esc % 2 ^ 32])

/-- TIME_NOW_CAPTURE. -/
def execTimeNowCapture (by_ : Sender) (s : State) : Out :=
  s.eff fun e => Engine.answer (e.timeNowRead by_)

/-- L_b − MCC_b × T_s in units of 2^-32 ns times fs (R132). -/
def Engine.tickPhase (e : Engine) : Int := e.time.latch * e.fs - e.time.mcc * oneSec

/-- The tick phase as TIME_TICK_PHASE shows it: signed, units of 2^-16 ns (R132). -/
def Engine.tickPhaseWord (e : Engine) : Word :=
  wordOfInt (rndDiv e.tickPhase (e.fs * 2 ^ 16))

/-- The latch set as the TIME_LATCH registers show it (R130). -/
def Engine.latchSet (e : Engine) : List Nat :=
  let l := e.time.latch
  let m := (e.time.mcc % 2 ^ 64).toNat
  [ e.time.latchEsc % 2 ^ 32, e.time.latchEsc / 2 ^ 32 % 2 ^ 32, timeNs l, timeSec l % 2 ^ 32,
    timeSec l / 2 ^ 32, timeFrac l, m % 2 ^ 32, m / 2 ^ 32, e.tickPhaseWord.toNat ]

/-- A read of TIME_LATCH_ESC_LO captures the set for the reader (R130). -/
def Engine.latchRead (e : Engine) (by_ : Sender) : Word × Engine :=
  (BitVec.ofNat 32 e.time.latchEsc, e.capture TIME_LATCH_ESC_LO by_.hm e.latchSet)

/-- TIME_LATCH_CAPTURE. -/
def execTimeLatchCapture (by_ : Sender) (s : State) : Out :=
  s.eff fun e => Engine.answer (e.latchRead by_)

/-- What a read of another register of a captured set answers: item `i` of the
reader's capture, else of the live set. -/
def Engine.capturedItem (e : Engine) (a hm : Nat) (live : List Nat) (i : Nat) : Word :=
  match e.captured a hm with
  | [] => BitVec.ofNat 32 (live.getD i 0)
  | c => BitVec.ofNat 32 (c.getD i 0)

/-- The tick latch of block `b` and the media clock count (R130 to R133); in the FABRIC cycle of
a step it takes network time from before the step. -/
def Engine.timeLatch (e : Engine) (b : Nat) : Engine :=
  let (t, fresh) := e.time.prior.getD (e.time.t, e.time.rederive)
  let derived := rndDiv (t * e.fs) oneSec
  let mcc := if fresh then derived else e.time.mcc + e.nSamp
  let e := { e with time := { e.time with
    latch := t, latchBlk := some b, latchEsc := e.tick.esc, mcc := mcc,
    rederive := e.time.prior.isSome } }
  let e := e.putB TIME_STATUS_MCC_VALID true
  if fresh ∨ (2 * e.tickPhase).natAbs < oneSec.natAbs then e
  else
    let e := { e with time := { e.time with mcc := derived } }
    e.raise (timeEvt 0x04 .warn 0xFF (wordOfInt (derived - mcc)).toNat e.tickPhaseWord.toNat)

/-- The nominal network time of sample `j` of the latched block (R131). -/
def Engine.nominal (e : Engine) (l : Int) (j : Nat) : Int :=
  l + rndDiv ((j : Int) * 1000000000 * 2 ^ 24) e.fs * 2 ^ 8

/-- TIME_STATUS follows the egress FIFO. -/
def Engine.txtsShow (e : Engine) : Engine :=
  (e.putB TIME_STATUS_TXTS_NE (!e.time.txts.isEmpty)).put TIME_STATUS_TXTS_LEVEL e.time.txts.length

/-- An egress time-stamp enters the FIFO, or is discarded when it holds 64 (R128, R129). -/
def Engine.txtsPush (e : Engine) (x : Txts) : Engine :=
  if e.time.txts.length < 64 then
    { e with time := { e.time with txts := e.time.txts ++ [x] } }.txtsShow
  else e.raise (timeEvt 0x05 .warn 0xFF x.port 0)

/-- A read of TIME_TXTS_INFO: the head's identity, its time loaded into the time
registers, and the FIFO popped; an empty FIFO answers zero and leaves them (R128). -/
def Engine.txtsRead (e : Engine) : Word × Engine :=
  match e.time.txts with
  | [] => (0#32, e)
  | x :: xs =>
    let e := (((e.wr TIME_TXTS_SEC_LO (BitVec.ofNat 32 (timeSec x.time))).wr TIME_TXTS_SEC_HI
      (BitVec.ofNat 32 (timeSec x.time / 2 ^ 32 % 2 ^ 16))).wr TIME_TXTS_NS
      (BitVec.ofNat 32 (timeNs x.time))).wr TIME_TXTS_FRAC (BitVec.ofNat 32 (timeFrac x.time))
    (BitVec.ofNat 32 (1 + x.port % 2 * 2 + x.mtype % 16 * 16 + x.seq % 2 ^ 16 * 2 ^ 16),
     { e with time := { e.time with txts := xs } }.txtsShow)

/-- TXTS_POP. -/
def execTxtsPop (s : State) : Out := s.eff fun e => Engine.answer e.txtsRead

/-- Corrections of port time-stamps in units of 2^-32 ns (R124): ingress and egress,
`asym` for the PTP messages that carry the asymmetry. -/
def Engine.ingressTime (e : Engine) (p : Nat) (asym : Bool) (raw : Int) : Int :=
  raw - sval (e.rd (TIME_NET_INGRESS_LAT p)) * 2 ^ 16
    - (if asym then sval (e.rd (TIME_NET_ASYM p)) * 2 ^ 16 else 0)
def Engine.egressTime (e : Engine) (p : Nat) (asym : Bool) (raw : Int) : Int :=
  raw + sval (e.rd (TIME_NET_EGRESS_LAT p)) * 2 ^ 16
    - (if asym then sval (e.rd (TIME_NET_ASYM p)) * 2 ^ 16 else 0)

end Sys2Proof.Machine
end

