-- ==== Sys2Proof/Machine/Net.lean ====
section
/-!
DEFINITION. NET: the two ports, the frames they accept, control receive and transmit rings,
rate limits, PTP time-stamps and the ports' registers (chapter "Network Media Ports and
Flows", R464 to R466, R492 to R495; "Network Time", R123 to R129). Media packets are in
Machine/Media.lean.
-/
namespace Sys2Proof.Machine

/-- A NET event (R497). -/
def netEvt (code : Nat) (sev : Sev) (hm w2 w3 : Nat) : Evt :=
  { block := 0x10, code := code, sev := sev, hm := hm, w2 := w2, w3 := w3 }

/-! ### Frames -/

/-- Byte `i`, and `n` bytes big-endian from `i`, of a frame. -/
def frB (f : List Byte) (i : Nat) : Nat := (f.getD i 0#8).toNat
def frN (f : List Byte) (i : Nat) : Nat → Nat
  | 0 => 0
  | n + 1 => frN f i n * 256 + frB f (i + n)

/-- Bytes replaced from index `i`. -/
def frPut (f : List Byte) (i : Nat) (l : List Nat) : List Byte :=
  f.take i ++ (l.map fun x => BitVec.ofNat 8 x) ++ f.drop (i + l.length)

/-- A number as `n` bytes big-endian. -/
def beBytes : Nat → Nat → List Nat
  | 0, _ => []
  | n + 1, v => v / 256 ^ n % 256 :: beBytes n v

/-- The VLAN of a frame, and where its network header lies (R465). -/
def frVlan (f : List Byte) : Option Nat := if frN f 12 2 = 0x8100 then some (frN f 14 2 % 4096) else none
def frL3 (f : List Byte) : Nat := if frN f 12 2 = 0x8100 then 18 else 14
def frType (f : List Byte) : Nat := frN f (frL3 f - 2) 2

def frV4 (f : List Byte) : Bool := frType f == 0x0800 && frB f (frL3 f) / 16 == 4
def frV6 (f : List Byte) : Bool := frType f == 0x86DD && frB f (frL3 f) / 16 == 6

/-- The protocol of an IP frame and where its payload lies. -/
def frProto (f : List Byte) : Nat :=
  if frV4 f then frB f (frL3 f + 9) else if frV6 f then frB f (frL3 f + 6) else 256
def frL4 (f : List Byte) : Nat :=
  if frV4 f then frL3 f + 4 * (frB f (frL3 f) % 16) else frL3 f + 40

/-- The UDP destination port. -/
def frUdp (f : List Byte) : Option Nat := if frProto f = 17 then some (frN f (frL4 f + 2) 2) else none

/-- The one's complement sum of bytes taken as 16-bit words. -/
def onesSum : List Nat → Nat
  | a :: b :: l => onesSum l + a * 256 + b
  | [a] => a * 256
  | [] => 0
def fold16 (v : Nat) : Nat := if v = 0 then 0 else (v - 1) % 65535 + 1

/-- The UDP checksum of an IPv4 frame is absent or right (R470). -/
def udpSumOk (f : List Byte) : Bool :=
  let l4 := frL4 f
  let len := frN f (l4 + 4) 2
  let body := (List.range len).map fun i => frB f (l4 + i)
  let addrs := (List.range 8).map fun i => frB f (frL3 f + 12 + i)
  frN f (l4 + 6) 2 == 0 || fold16 (onesSum body + onesSum addrs + 17 + len) == 65535

/-- A PTP event message: its messageType, in UDP to port 319 (R125). -/
def ptpEvent (f : List Byte) : Option Nat :=
  if frUdp f = some 319 ∧ frB f (frL4 f + 8) % 16 < 4 then some (frB f (frL4 f + 8) % 16) else none

/-- The class of a control frame (R493). -/
def frClass (f : List Byte) : Nat :=
  if frUdp f = some 319 ∨ frUdp f = some 320 then 0
  else if frType f = 0x0806 then 1
  else if frV6 f ∧ frProto f = 58 then
    let t := frB f (frL4 f)
    if 133 ≤ t ∧ t ≤ 137 then 1 else if (130 ≤ t ∧ t ≤ 132) ∨ t = 143 then 2 else 3
  else if frV4 f ∧ frProto f = 2 then 2
  else 3

/-! ### Ports -/

/-- The MAC of port `p`. -/
def Engine.portMac (e : Engine) (p : Nat) : Nat :=
  (e.rd (NET_MAC_LO p)).toNat + e.get (NET_MAC_HI_MAC p) * 2 ^ 32

/-- Port `p` is up. -/
def Engine.portUp (e : Engine) (p : Nat) : Bool := e.on (NET_CFG_EN p) && e.on (NET_STATUS_LINK p)

/-- The multicast MAC of an IPv4 group (R465). -/
def mcastMac (ip : Nat) : Nat := 0x01005E000000 + ip % 2 ^ 23
def isMcast (ip : Nat) : Bool := ip / 2 ^ 28 == 14

/-- The address of word `w` of receive or transmit flow `f` (R471, R472). -/
def flowAddr (tx : Bool) (f w : Nat) : Nat := 0x50300000 + (if tx then 0x10000 else 0) + 64 * f + 4 * w
/-- The address of status word `w` of a flow. -/
def flowStat (tx : Bool) (f w : Nat) : Nat := 0x50320000 + (if tx then 0x10000 else 0) + 32 * f + 4 * w

/-- A flow is enabled, by the value its CTRL pair is used with. -/
def Engine.flowEn (e : Engine) (tx : Bool) (f : Nat) : Bool := bitOf (e.cpVal (flowAddr tx f 14)) 0

/-- The enabled flows. -/
def Engine.flowsOn (e : Engine) (tx : Bool) : List Nat :=
  (e.listedIdx (flowAddr tx 0 0) 64 1024).filter (e.flowEn tx)

/-- Flow `f` has an enabled leg on port `p`. -/
def Engine.hasLeg (e : Engine) (tx : Bool) (f p : Nat) : Bool := bitOf (e.rd (flowAddr tx f 0)) (22 + p)

/-- The DST, PORT, VID and TAGGED of a receive leg. -/
def Engine.legDst (e : Engine) (f p : Nat) : Nat := (e.rd (flowAddr false f (4 + 3 * p))).toNat
def Engine.legKey (e : Engine) (f p : Nat) : Nat × Nat × Option Nat :=
  let w := e.rd (flowAddr false f (6 + 3 * p))
  (e.legDst f p, bitsOf w 0 16, if bitOf w 28 then some (bitsOf w 16 12) else none)

/-- Port `p` accepts the destination MAC of a frame (R465). -/
def Engine.macOk (e : Engine) (p mac : Nat) : Bool :=
  mac == e.portMac p || mac == 0xFFFFFFFFFFFF
    || (e.flowsOn false).any (fun f => e.hasLeg false f p && isMcast (e.legDst f p) && mac == mcastMac (e.legDst f p))
    || (List.range 16).any fun i =>
        e.on (NET_MCAST_HI_V p i)
          && mac == (e.rd (NET_MCAST_LO p i)).toNat + e.get (NET_MCAST_HI_MAC p i) * 2 ^ 32

/-- The receive flow a frame on port `p` is a media packet of (R466). -/
def Engine.mediaFlow (e : Engine) (p : Nat) (f : List Byte) : Option Nat :=
  if frV4 f && frB f (frL3 f) % 16 == 5 && frN f (frL3 f + 6) 2 % 16384 == 0 && frProto f == 17 then
    let key := (frN f (frL3 f + 16) 4, frN f (frL4 f + 2) 2, frVlan f)
    (e.flowsOn false).find? fun k => e.hasLeg false k p && e.legKey k p == key
  else none

/-! ### Control receive -/

/-- The token bucket of class `k` of port `p`, in tokens of 614,400 units: refilled at RATE a
millisecond up to BURST, and full at first (R493). -/
def Engine.bucketNow (e : Engine) (p k : Nat) : Nat :=
  let cap := e.get (NET_RATE_BURST p k) * oneMsCyc
  match Tbl.get none e.net.bucket (4 * p + k) with
  | some (lvl, at_) => min cap (lvl + (e.now - at_) * e.get (NET_RATE_RATE p k))
  | none => cap

/-- A frame of class `k` takes a token; false when there is none. -/
def Engine.takeToken (e : Engine) (p k : Nat) : Engine × Bool :=
  if e.get (NET_RATE_RATE p k) = 0 then (e, true)
  else
    let l := e.bucketNow p k
    let set (v : Nat) : Engine :=
      e.updNet fun x => { x with bucket := Tbl.set none x.bucket (4 * p + k) (some (v, e.now)) }
    if oneMsCyc ≤ l then (set (l - oneMsCyc), true) else (set l, false)

/-- A control ring lies inside one ingot owned by CC (R492). -/
def Engine.ctlRingOk (e : Engine) (base log : Nat) : Bool :=
  match ingotOf base with
  | some n => e.ingotOwner n == 0x20 && ingotOf (base + 2048 * 2 ^ log - 1) == some n
      && e.get (retState (n / 8)) == 0
  | none => false

/-- Bytes stored in memory. -/
def Engine.stBytes (e : Engine) (a : Nat) : List Byte → Engine
  | [] => e
  | v :: vs => (e.stB a v).stBytes (a + 1) vs

def Engine.ldBytes (e : Engine) (a : Nat) : Nat → List Byte
  | 0 => []
  | n + 1 => e.ldB a :: e.ldBytes (a + 1) n

/-- An accepted control frame of port `p` with raw ingress time `t` goes to the receive ring
(R492), unless its class has no token (R493) or the ring is full. -/
def Engine.ctlReceive (e : Engine) (p : Nat) (f : List Byte) (t : Int) : Engine :=
  if 2016 < f.length then e.count (NET_RX_ERR_COUNT p)
  else
    let k := frClass f
    let (e, ok) := e.takeToken p k
    if ok = false then
      let e := e.count (NET_RX_RATE_COUNT p)
      if e.net.rateEp.contains (4 * p + k) then e
      else (e.updNet fun x => { x with rateEp := x.rateEp ++ [4 * p + k] }).raise (netEvt 0x04 .warn 0xFF p k)
    else
      let e := e.updNet fun x => { x with rateEp := x.rateEp.filter (· != 4 * p + k) }
      let base := (e.rd (NET_CRX_BASE p)).toNat
      let log := e.get (NET_CRX_LEN_LOG2 p)
      let wr := e.get (NET_CRX_WR_IDX p)
      let full := (wr + 1) % 2 ^ log == e.get (NET_CRX_RD_IDX p) % 2 ^ log
      if full || !e.ctlRingOk base log then
        let e := e.count (NET_RX_RING_COUNT p)
        if e.net.fullEp.contains p then e
        else (e.updNet fun x => { x with fullEp := x.fullEp ++ [p] }).raise (netEvt 0x03 .warn 0xFF p 0)
      else
        let e := e.updNet fun x => { x with fullEp := x.fullEp.filter (· != p) }
        let a := base + 2048 * wr
        let ptp := ptpEvent f
        let ts := e.ingressTime p (ptp == some 0 || ptp == some 3) t
        let e := e.stWs a [BitVec.ofNat 32 (f.length + 2 ^ 16 * k + 2 ^ 20 * ptp.isSome.toNat),
          BitVec.ofNat 32 (timeSec ts), BitVec.ofNat 32 (timeSec ts / 2 ^ 32 % 2 ^ 16),
          BitVec.ofNat 32 (timeNs ts), BitVec.ofNat 32 (timeFrac ts)]
        (e.stBytes (a + 32) f).put (NET_CRX_WR_IDX p) ((wr + 1) % 2 ^ log)

/-! ### Control transmit -/

/-- A frame with one-step insertion by egress time `t` (R127): Sync takes the time in its
originTimestamp, Pdelay_Resp the residence time, which the manual gives no way to compute
(free value), added to its correctionField; then the UDP checksum is set. -/
def Engine.oneStep (e : Engine) (f : List Byte) (mtype : Nat) (t : Int) : List Byte × Engine :=
  let q := frL4 f + 8
  let (res, e') := e.fresh
  let (g, e) := if mtype = 0 then
      (frPut f (q + 34) (beBytes 6 (timeSec t) ++ beBytes 4 (timeNs t)), e)
    else (frPut f (q + 8) (beBytes 8 (frN f (q + 8) 8 + res.toNat * 2 ^ 16)), e')
  if frV4 f then (frPut g (frL4 f + 6) [0, 0], e)
  else
    let len := frN f (frL4 f + 4) 2
    let sum (f : List Byte) : Nat := fold16 (onesSum ((List.range (len - 8)).map fun i => frB f (q + i)))
    let last := frL4 f + len - 2
    let v := fold16 (frN g last 2 + sum f + 65535 - sum g)
    (frPut g last (beBytes 2 v), e)

/-- A control frame leaves port `p`: PTP event messages get their time-stamp (R127, R128). -/
def Engine.ctlSend (e : Engine) (p : Nat) (f : List Byte) (onestep : Bool) : Engine :=
  let e := e.count (NET_TX_OK_COUNT p)
  let put (e : Engine) (f : List Byte) : Engine := e.updNet fun x => { x with ctl := Tbl.set [] x.ctl p f }
  match ptpEvent f with
  | some m =>
    let t := e.egressTime p (m == 1 || m == 2) e.time.t
    if onestep && e.on (TIME_NET_TS_CFG_ONESTEP_EN p) && (m == 0 || m == 3) then
      let (g, e) := e.oneStep f m t
      put e g
    else (put e f).txtsPush { port := p, mtype := m, seq := frN f (frL4 f + 38) 2, time := t }
  | none => put e f

/-- CONTROL_FRAME_TRANSMIT: the next entry of port `p`'s transmit ring (R494). -/
def Engine.ctlTransmit (e : Engine) (p : Nat) : Engine :=
  let base := (e.rd (NET_CTX_BASE p)).toNat
  let log := e.get (NET_CTX_LEN_LOG2 p)
  let rd := e.get (NET_CTX_RD_IDX p) % 2 ^ log
  if e.portUp p = false ∨ rd = e.get (NET_CTX_WR_IDX p) % 2 ^ log ∨ e.ctlRingOk base log = false then e
  else
    let a := base + 2048 * rd
    let w := e.ldW a
    let len := bitsOf w 0 14
    let e := e.put (NET_CTX_RD_IDX p) ((rd + 1) % 2 ^ log)
    if len < 60 ∨ 2016 < len then e.raise (netEvt 0x05 .warn 0xFF (0x13C + 0x100 * p) 0)
    else e.ctlSend p (e.ldBytes (a + 32) len) (bitOf w 16)

def execControlFrameTransmit (p : Nat) (s : State) : Out := s.eff fun e => e.ctlTransmit (p % 2)

/-! ### Links and registers -/

/-- LINK_UP: block lock gained. -/
def execLinkUp (p : Nat) (s : State) : Out :=
  s.eff fun e =>
    let p := p % 2
    if e.on (NET_STATUS_LINK p) then e
    else (e.put (NET_STATUS_LINK p) 1).raise (netEvt 0x01 .note 0xFF p 0)

/-- LINK_DOWN: block lock lost. -/
def execLinkDown (p : Nat) (s : State) : Out :=
  s.eff fun e =>
    let p := p % 2
    if e.on (NET_STATUS_LINK p) then (e.put (NET_STATUS_LINK p) 0).raise (netEvt 0x02 .warn 0xFF p 0) else e

/-- A write of a NET register (R495). -/
def Engine.netRegWrite (e : Engine) (by_ : Sender) (off : Nat) (v : Word) : Engine :=
  let a := 0x40100000 + off
  let refuse := e.raise (netEvt 0x05 .warn by_.hm off 0)
  if by_.isCC = false then refuse
  else if off = 0 then e.wr a (e.rd a &&& ~~~ v)
  else if off < 0x100 ∨ 0x300 ≤ off then e
  else
    let p := (off - 0x100) / 0x100
    match off % 0x100 with
    | 0x00 => e.wr a (v &&& 3#32)
    | 0x08 | 0x10 => e.wr a v
    | 0x0C => e.wr a (v &&& 0xFFFF#32)
    | 0x20 => ((e.wr a (v &&& 0xFFFFF000#32)).put (NET_CRX_WR_IDX p) 0).put (NET_CRX_RD_IDX p) 0
    | 0x30 => ((e.wr a (v &&& 0xFFFFF000#32)).put (NET_CTX_WR_IDX p) 0).put (NET_CTX_RD_IDX p) 0
    | 0x24 =>
      if 4 ≤ bitsOf v 0 4 ∧ bitsOf v 0 4 ≤ 8 then
        ((e.wr a (v &&& 0xF#32)).put (NET_CRX_WR_IDX p) 0).put (NET_CRX_RD_IDX p) 0
      else refuse
    | 0x34 =>
      if 4 ≤ bitsOf v 0 4 ∧ bitsOf v 0 4 ≤ 8 then
        ((e.wr a (v &&& 0xF#32)).put (NET_CTX_WR_IDX p) 0).put (NET_CTX_RD_IDX p) 0
      else refuse
    | 0x2C | 0x38 => e.wr a (v &&& 0xFF#32)
    | r =>
      if 0x40 ≤ r ∧ r < 0x50 then e.wr a v
      else if 0x80 ≤ r then
        (if r % 8 = 0 then e.wr a v else if r % 8 = 4 then e.wr a (v &&& 0x8000FFFF#32) else e)
      else e

end Sys2Proof.Machine
end

