-- ==== Sys2Proof/Machine/Media.lean ====
section
/-!
DEFINITION. FLOW: the flow tables and their checks, media packets received, merged and
played out, packets transmitted, losses, and received frames as a whole (chapter "Network
Media Ports and Flows", R466 to R491, R496, R497).
-/
namespace Sys2Proof.Machine

/-- The owner of flow entry `f` (R473). -/
def Engine.flowOwner (e : Engine) (tx : Bool) (f : Nat) : Option Nat :=
  (List.range 16).find? fun t =>
    let a := if tx then FLOW_TX_RANGE t else FLOW_RX_RANGE t
    let v := e.cpVal a
    decide (bitsOf v 0 10 ≤ f ∧ f < bitsOf v 0 10 + bitsOf v 16 11)

/-- A FLOW event about flow `f`, to its owner (R497). -/
def Engine.flowEvt (e : Engine) (tx : Bool) (f code : Nat) (sev : Sev) (hm w3 : Nat) : Engine :=
  let v : Evt := { block := 0x11, code := code, sev := sev, hm := hm, w2 := f + (if tx then 1024 else 0), w3 := w3 }
  match e.flowOwner tx f with | some t => e.raiseT t v | none => e.raise v

/-- Fields of a flow's words (R471, R472). -/
def Engine.fw (e : Engine) (tx : Bool) (f w : Nat) : Word := e.rd (flowAddr tx f w)
def Engine.fL24 (e : Engine) (tx : Bool) (f : Nat) : Bool := bitOf (e.fw tx f 0) 0
def Engine.fRate (e : Engine) (tx : Bool) (f : Nat) : Nat := bitsOf (e.fw tx f 0) 1 1
def Engine.fCh (e : Engine) (tx : Bool) (f : Nat) : Nat := bitsOf (e.fw tx f 0) 5 6 + 1
def Engine.fFirst (e : Engine) (tx : Bool) (f : Nat) : Nat := bitsOf (e.fw tx f 0) 11 11
def Engine.fBuf (e : Engine) (tx : Bool) (f : Nat) : Nat := (e.fw tx f 13).toNat / 64 * 64

/-- Samples per packet by PTIME and rate (R469). -/
def ptimeK (ptime rate : Nat) : Nat :=
  (match ptime with | 0 => 6 | 1 => 12 | 2 => 16 | 3 => 48 | _ => 192) * (rate + 1)
def Engine.fK (e : Engine) (tx : Bool) (f : Nat) : Nat := ptimeK (bitsOf (e.fw tx f 0) 2 3) (e.fRate tx f)

/-- Payload bytes (R470). -/
def Engine.fBytes (e : Engine) (tx : Bool) (f : Nat) : Nat :=
  e.fK tx f * e.fCh tx f * (if e.fL24 tx f then 3 else 2)

/-- LINKOFS, BUFLEN, LATE, EARLY and LOSS_MS of a receive flow. -/
def Engine.fLo (e : Engine) (f : Nat) : Nat := bitsOf (e.fw false f 10) 0 16
def Engine.fLen (e : Engine) (f : Nat) : Nat := bitsOf (e.fw false f 10) 16 16
def Engine.fLate (e : Engine) (f : Nat) : Nat := (e.fw false f 11).toNat
def Engine.fEarly (e : Engine) (f : Nat) : Nat := (e.fw false f 12).toNat
def Engine.fLoss (e : Engine) (f : Nat) : Nat := bitsOf (e.fw false f 1) 16 16

/-- Network channels at the current rate. -/
def Engine.netChans (e : Engine) : Nat := if e.on TICK_CFG_RATE then 1024 else 2048

/-- Line bits a packet of a transmit leg takes, times packets a second (R487). -/
def Engine.legLoad (e : Engine) (f p : Nat) : Nat :=
  let tag := if bitOf (e.fw true f (7 + 4 * p)) 28 then 4 else 0
  let fs := if e.fRate true f = 1 then 96000 else 48000
  if e.hasLeg true f p then 8 * (e.fBytes true f + 78 + tag) * fs / e.fK true f else 0

/-- The committed load of port `p` with flows `l` (R487). -/
def Engine.portLoad (e : Engine) (l : List Nat) (p : Nat) : Nat := (l.map fun f => e.legLoad f p).sum

/-- FLOW_LOAD shows the committed load in Mb/s. -/
def Engine.loadShow (e : Engine) : Engine :=
  let l := e.flowsOn true
  (e.put (FLOW_LOAD_MBPS 0) (e.portLoad l 0 / 1000000)).put (FLOW_LOAD_MBPS 1) (e.portLoad l 1 / 1000000)

/-! ### Enabling -/

/-- The bits of word `w` of a flow's entry that are kept: the fields of R471 and R472 and
those marked zero; the others are reserved (R6). -/
def flowMask (tx : Bool) (w : Nat) : Word :=
  match tx, w with
  | false, 1 => 0xFFFF007F#32 | false, 6 => 0x1FFFFFFF#32 | false, 9 => 0x1FFFFFFF#32
  | true, 1 => 0x00FF3F7F#32 | true, 13 => 0xFFFFFFC0#32
  | _, _ => 0xFFFFFFFF#32

/-- Reason 1 FIELD: a reserved PTIME, a field marked zero that is not, no leg, LOSS_MS or TTL
out of range (R471, R472, R474). -/
def Engine.flowField (e : Engine) (tx : Bool) (f : Nat) : Bool :=
  let w := fun k => e.fw tx f k
  let zero (k lo n : Nat) : Bool := bitsOf (w k) lo n == 0
  let common := decide (bitsOf (w 0) 2 3 < 5) && zero 0 28 4 && bitsOf (w 0) 22 2 != 0 && zero 13 0 6
    && decide ((e.cpVal (flowAddr tx f 14)).toNat < 2)
  !(common && if tx then
      zero 0 25 3 && bitsOf (w 1) 16 8 != 0
    else
      decide (1 ≤ e.fLoss f ∧ e.fLoss f ≤ 10000))

/-- Reason 3 SIZE: the payload limit of a port (R470). -/
def Engine.flowSize (e : Engine) (tx : Bool) (f : Nat) : Bool :=
  (List.range 2).any fun p =>
    e.hasLeg tx f p && decide ((if e.on (NET_CFG_JUMBO p) then 8960 else 1440) < e.fBytes tx f)

/-- Reason 4 CHANNELS. -/
def Engine.flowChans (e : Engine) (tx : Bool) (f : Nat) : Bool :=
  let lo := e.fFirst tx f
  let hi := lo + e.fCh tx f
  decide (e.netChans < hi)
    || (!tx && (e.flowsOn false).any fun k =>
        k != f && decide (e.fFirst false k < hi ∧ lo < e.fFirst false k + e.fCh false k))

/-- Reason 5 GRANT. -/
def Engine.flowGrant (e : Engine) (tx : Bool) (f : Nat) : Bool :=
  match e.flowOwner tx f with
  | none => false
  | some t => (List.range (e.fCh tx f)).any fun c =>
      let i := e.fFirst tx f + c
      if tx then e.destOwner i != some t else !e.granted i t

/-- Reason 6 TIMING. -/
def Engine.flowTiming (e : Engine) (f : Nat) : Bool :=
  let fs := e.fs
  let ns (samples : Nat) : Nat := samples * 1000000000
  let late := e.fLate f
  let early := e.fEarly f
  decide (ns (e.fLo f + 1) < (late + 2000) * fs)
    || decide (20000000 < late + early)
    || decide (e.fLen f < e.fLo f + e.fK false f + (early * fs + 999999999) / 1000000000)
    || decide (20 * fs < e.fLen f * 1000) || decide (e.fLen f * 4000 < fs)
    || decide (e.fLoss f * 1000000 * fs ≤ (late + early) * fs + ns (e.fK false f))

/-- Reason 8 KEY. -/
def Engine.flowKey (e : Engine) (f : Nat) : Bool :=
  (List.range 2).any fun p => e.hasLeg false f p && (e.flowsOn false).any fun k =>
    k != f && e.hasLeg false k p && e.legKey k p == e.legKey f p

/-- Words of a flow's buffer (R475). -/
def Engine.fBufWords (e : Engine) (tx : Bool) (f : Nat) : Nat :=
  (if tx then 2 * e.fK true f else e.fLen f) * e.fCh tx f

/-- Reason 9 BUFFER. -/
def Engine.flowBuf (e : Engine) (tx : Bool) (f : Nat) : Bool :=
  !e.portBuf 0x43 (e.fBuf tx f) (4 * e.fBufWords tx f)

/-- The first reason of R474 that refuses an enable. -/
def Engine.flowRefusal (e : Engine) (tx : Bool) (f : Nat) : Option Nat :=
  if e.flowField tx f then some 1
  else if e.fRate tx f ≠ e.get TICK_CFG_RATE then some 2
  else if e.flowSize tx f then some 3
  else if e.flowChans tx f then some 4
  else if e.flowGrant tx f then some 5
  else if !tx && e.flowTiming f then some 6
  else if tx && (List.range 2).any (fun p =>
      decide (9000000000 < e.portLoad (f :: (e.flowsOn true).filter (· != f)) p) && e.hasLeg true f p) then some 7
  else if !tx && e.flowKey f then some 8
  else if e.flowBuf tx f then some 9
  else none

/-- The status words of a flow cleared. -/
def Engine.flowClear (e : Engine) (tx : Bool) (f : Nat) : Engine :=
  (List.range 8).foldl (fun e k => e.wr (flowStat tx f k) 0#32) e

/-- A flow stops (R474): a receive flow's channels read zero at once; its state is OFF. -/
def Engine.flowStop (e : Engine) (tx : Bool) (f : Nat) : Engine :=
  if tx then (e.put ⟨flowStat true f 0, 0, 1⟩ 0).updNet fun x => { x with txNext := Tbl.set none x.txNext f none }
  else (e.put ⟨flowStat false f 0, 0, 2⟩ 0).updNet fun x => { x with rx := Tbl.set {} x.rx f {} }

/-- The CTRL pair of flow `f` takes effect (R473, R474). -/
def Engine.flowCtrl (e : Engine) (by_ : Sender) (tx : Bool) (f : Nat) (v : Word) : Engine :=
  let a := flowAddr tx f 14
  let may := by_.isCC || (match e.flowOwner tx f with | some t => by_.isTenant t | none => false)
  if may = false then e.ownFault by_ a true
  else if bitOf v 0 = false then
    let was := e.flowEn tx f
    let e := e.wrCp a v
    if was then (e.flowStop tx f).loadShow else e
  else
    let e' := e.wrCp a v
    match e'.flowRefusal tx f with
    | some r => e.flowEvt tx f 0x01 .warn by_.hm r
    | none =>
      let e := e'.flowClear tx f
      if tx then (e.put ⟨flowStat true f 0, 0, 1⟩ 1).loadShow
      else (e.put ⟨flowStat false f 0, 0, 2⟩ 1).updNet fun x => { x with rx := Tbl.set {} x.rx f {} }

/-- FLOW_ENABLE: the pair with EN = 1. -/
def execFlowEnable (by_ : Sender) (tx : Bool) (f : Nat) (s : State) : Out :=
  s.eff fun e => e.rowWrite by_ [(flowAddr tx (f % 1024) 14, 1#32)] fun e =>
    e.flowCtrl by_ tx (f % 1024) 1#32

/-- FLOW_DISABLE: the pair with EN = 0. -/
def execFlowDisable (by_ : Sender) (tx : Bool) (f : Nat) (s : State) : Out :=
  s.eff fun e => e.rowWrite by_ [(flowAddr tx (f % 1024) 14, 0#32)] fun e =>
    e.flowCtrl by_ tx (f % 1024) 0#32

/-- A write of another word of a flow entry (R473). -/
def Engine.flowWordWrite (e : Engine) (by_ : Sender) (tx : Bool) (f w : Nat) (v : Word) : Engine :=
  let a := flowAddr tx f w
  let may := by_.isCC || (match e.flowOwner tx f with | some t => by_.isTenant t | none => false)
  if may = false then e.ownFault by_ a true
  else if e.flowEn tx f then e.flowEvt tx f 0x01 .warn by_.hm 10
  else e.wr a (v &&& flowMask tx w)

/-- RUN is set: flows that no longer fit the rate are disabled (R476). -/
def Engine.flowCapacity (e : Engine) : Engine :=
  let stop (tx : Bool) (e : Engine) (f : Nat) : Engine :=
    let r := if e.fRate tx f ≠ e.get TICK_CFG_RATE then 2 else if e.flowChans tx f then 4 else 0
    if r = 0 then e
    else ((e.wrCp (flowAddr tx f 14) 0#32).flowStop tx f).flowEvt tx f 0x01 .warn 0xFF r
  let e := (e.flowsOn false).foldl (stop false) e
  ((e.flowsOn true).foldl (stop true) e).loadShow

/-! ### Receive -/

def Engine.rxFlow (e : Engine) (f : Nat) : RxFlow := Tbl.get {} e.net.rx f
def Engine.updRx (e : Engine) (f : Nat) (g : RxFlow → RxFlow) : Engine :=
  e.updNet fun x => { x with rx := Tbl.set {} x.rx f (g (Tbl.get {} x.rx f)) }

/-- The counters of a receive flow's status words. -/
def rxCnt (f w lo n : Nat) : Fld := ⟨flowStat false f w, lo, n⟩
def rxState (f : Nat) : Fld := rxCnt f 0 0 2
def rxLegUp (f p : Nat) : Fld := rxCnt f 0 (4 + p) 1
def rxFault (f : Nat) : Fld := rxCnt f 0 8 1

/-- The alignment A of a flow. -/
def Engine.fA (e : Engine) (f : Nat) : Int := (e.rd (flowStat false f 1)).toInt

/-- The number congruent to `v` modulo 2^k nearest to `near`. -/
def nearMod (k : Nat) (near : Int) (v : Nat) : Int :=
  let d := ((v : Int) - near) % 2 ^ k
  near + if 2 ^ (k - 1) ≤ d then d - 2 ^ k else d

/-- An RTP packet (R470). -/
structure Rtp where
  pt   : Nat
  seq  : Nat
  ts   : Nat
  ssrc : Nat
  src  : Nat
  off  : Nat
  len  : Nat
  good : Bool

/-- The RTP header of a media packet, CSRC entries and extension skipped and padding
removed (R470). -/
def rtpOf (f : List Byte) : Rtp :=
  let l4 := frL4 f
  let q := l4 + 8
  let b0 := frB f q
  let h := 12 + 4 * (b0 % 16)
  let h := if b0.testBit 4 then h + 4 + 4 * frN f (q + h + 2) 2 else h
  let udp := frN f (l4 + 4) 2
  let body := udp - 8 - h
  let pad := if b0.testBit 5 then frB f (l4 + udp - 1) else 0
  { pt := frB f (q + 1) % 128, seq := frN f (q + 2) 2, ts := frN f (q + 4) 4, ssrc := frN f (q + 8) 4,
    src := frN f (frL3 f + 12) 4, off := q + h, len := body - pad, good := b0 / 64 == 2 && udpSumOk f }

/-- A channel's samples of a payload, placed in s.31 (R468). -/
def payloadWord (f : List Byte) (off : Nat) (l24 : Bool) (i : Nat) : Word :=
  if l24 then BitVec.ofNat 32 (frN f (off + 3 * i) 3 * 2 ^ 8)
  else BitVec.ofNat 32 (frN f (off + 2 * i) 2 * 2 ^ 16)

/-- The slot of media clock `m`. -/
def Engine.slotOf (e : Engine) (f : Nat) (m : Int) : Nat := (m % (e.fLen f : Int)).toNat

/-- An accepted packet's samples written and tagged (R479). -/
def Engine.rxWrite (e : Engine) (f : Nat) (fr : List Byte) (r : Rtp) (m : Int) : Engine :=
  let k := e.fK false f
  let ch := e.fCh false f
  let buf := e.fBuf false f
  let l24 := e.fL24 false f
  (List.range k).foldl (fun e (i : Nat) =>
    let s := e.slotOf f (m + (i : Int))
    let ws := (List.range ch).map fun c => payloadWord fr r.off l24 (i * ch + c)
    (e.memWrite none (buf + 4 * (s * ch)) ws).updRx f fun x => { x with
      tag := Tbl.set none x.tag s (some (m + (i : Int))) }) e

/-- The slots a packet of media clock `m` wrote are made invalid (R483). -/
def Engine.rxUnwrite (e : Engine) (f : Nat) (m : Int) : Engine :=
  (List.range (e.fK false f)).foldl (fun e (i : Nat) =>
    let s := e.slotOf f (m + (i : Int))
    if Tbl.get none (e.rxFlow f).tag s = some (m + (i : Int)) then
      e.updRx f fun x => { x with tag := Tbl.set none x.tag s none }
    else e) e

/-- MERGE_CONFLICT once per episode, which ends after 1 s without one (R483). -/
def Engine.mergeConflict (e : Engine) (f seq : Nat) : Engine :=
  let e := e.count (rxCnt f 7 0 16)
  let again := match (e.rxFlow f).conflict with | some c => decide (e.now < c + oneSecCyc) | none => false
  let e := e.updRx f fun x => { x with conflict := some e.now }
  if again then e else e.flowEvt false f 0x07 .warn 0xFF seq

/-- A leg is up and the flow PLAYING at an accepted packet (R484, R485). -/
def Engine.rxAlive (e : Engine) (f p : Nat) : Engine :=
  let x := e.rxFlow f
  let e := e.put (rxLegUp f p) 1
  let e := if (if p = 0 then x.down0 else x.down1) then e.flowEvt false f 0x03 .note 0xFF p else e
  let e := e.updRx f fun x => if p = 0 then { x with down0 := false, un0 := 0 } else { x with down1 := false, un1 := 0 }
  let st := e.get (rxState f)
  let e := e.put (rxState f) 2
  if st = 3 then (e.updRx f fun x => { x with inval := 0 }).flowEvt false f 0x05 .note 0xFF 0 else e

/-- A packet inside its window (R482, R483): DUP on the same leg; the NET0 copy governs. -/
def Engine.rxAccept (e : Engine) (f p : Nat) (fr : List Byte) (r : Rtp) (m : Int) : Engine :=
  let x := e.rxFlow f
  let ref := if p = 0 then x.last0.orElse (fun _ => x.last1) else x.last1.orElse (fun _ => x.last0)
  let seq : Int := match ref with | some n => nearMod 16 n r.seq | none => r.seq
  let old := x.pkts.find? fun q => q.seq == seq
  let leg (q : RxPkt) : Bool := if p = 0 then q.leg0 else q.leg1
  if (old.map leg).getD false then e.count (rxCnt f 5 0 16)
  else
    let e := (e.count (rxCnt f (2 + p) 0 32)).rxAlive f p
    let e := e.updRx f fun x => { (if p = 0 then { x with last0 := some seq } else { x with last1 := some seq }) with
      refused := 0, verd := some (x.verd.getD seq) }
    match old with
    | none =>
      (e.rxWrite f fr r m).updRx f fun x => { x with
        pkts := x.pkts ++ [{ seq := seq, m := m, leg0 := p == 0, leg1 := p == 1 }] }
    | some q =>
      let e := e.updRx f fun x => { x with pkts := x.pkts.map fun y =>
        if y.seq == seq then { y with leg0 := true, leg1 := true, m := if p = 0 then m else y.m } else y }
      let e := if q.m = m then e else e.mergeConflict f r.seq
      if p = 1 then e
      else (if q.m = m then e else e.rxUnwrite f q.m).rxWrite f fr r m

/-- Re-centring at the eighth consecutive refusal (R486): A moves by the packet's distance
from the middle of the window, every slot is invalid, and the packet is accepted. -/
def Engine.rxRecentre (e : Engine) (f p : Nat) (fr : List Byte) (r : Rtp) (m ta : Int) : Engine :=
  let fs : Int := e.fs
  let np := (m + e.fA f) * oneSec
  let mid := ((e.fLate f : Int) - e.fEarly f) * 2 ^ 31 * fs
  let a := e.fA f + rndDiv (ta * fs - np - mid) oneSec
  let e := e.wr (flowStat false f 1) (wordOfInt a)
  let e := e.updRx f fun x => { x with tag := [], pkts := [], verd := none, refused := 0 }
  (e.flowEvt false f 0x06 .warn 0xFF (wordOfInt a).toNat).rxAccept f p fr r m

/-- NET may access the buffer of receive flow `f` (R303). -/
def Engine.rxBuf (e : Engine) (f : Nat) : Bool := e.blockAccess 0x43 (e.fBuf false f)

/-- An access to that buffer noted: a refused one sets FAULT and raises BUF_FAULT once, a
served one ends the fault (R475). -/
def Engine.rxBufNote (e : Engine) (f : Nat) : Engine :=
  if e.rxBuf f then (if e.on (rxFault f) then e.put (rxFault f) 0 else e)
  else if e.on (rxFault f) then e
  else (e.put (rxFault f) 1).flowEvt false f 0x08 .fault 0xFF 0

/-- A media packet of flow `f` on port `p` with corrected ingress time `ta` (R470, R475,
R477, R478). -/
def Engine.rxPacket (e : Engine) (f p : Nat) (fr : List Byte) (ta : Int) : Engine :=
  let r := rtpOf fr
  let cfg := e.fw false f 0
  if r.good = false ∨ r.len ≠ e.fBytes false f then e.count (rxCnt f 6 0 16)
  else if (bitOf cfg 26 && r.src != (e.fw false f (5 + 3 * p)).toNat)
      || (bitOf cfg 24 && r.pt != bitsOf (e.fw false f 1) 0 7)
      || (bitOf cfg 25 && r.ssrc != (e.fw false f 2).toNat) then e.count (rxCnt f 5 16 16)
  else if e.rxBuf f = false then e.rxBufNote f
  else
    let e := e.rxBufNote f
    let m := nearMod 32 e.time.mcc ((r.ts + 2 ^ 32 - (e.fw false f 3).toNat) % 2 ^ 32)
    let fs : Int := e.fs
    let np := (m + e.fA f) * oneSec
    let ns (v : Nat) : Int := (v : Int) * 2 ^ 32
    let late := decide (np < (ta - ns (e.fLate f)) * fs)
    let early := decide ((ta + ns (e.fEarly f)) * fs ≤ np)
    if late || early then
      let e := e.count (if late then rxCnt f 4 0 16 else rxCnt f 4 16 16)
      let n := (e.rxFlow f).refused + 1
      if n = 8 ∧ bitOf cfg 27 = true then e.rxRecentre f p fr r m ta
      else e.updRx f fun x => { x with refused := min n 8 }
    else e.rxAccept f p fr r m

/-- NET_FRAME_RECEIVE: a frame of port `p`, without its FCS, whose start-of-frame delimiter
passes the PCS now (R123, R464 to R466). DUO observes a network heartbeat before the class
limits; what its payload says comes as `hb` (R510). -/
def Engine.netReceive (e : Engine) (p : Nat) (fr : List Byte) (fcsOk : Bool) : Engine :=
  let max := if e.on (NET_CFG_JUMBO p) then 9018 else 1518
  if e.portUp p = false then e
  else if fcsOk = false ∨ fr.length < 60 ∨ max < fr.length then e.count (NET_RX_ERR_COUNT p)
  else if frType fr = 0x8808 then e
  else if e.macOk p (frN fr 0 6) = false then e.count (NET_RX_FILTER_COUNT p)
  else
    let e := e.count (NET_RX_OK_COUNT p)
    match e.mediaFlow p fr with
    | some f => e.rxPacket f p fr (e.ingressTime p false e.time.t)
    | none => e.ctlReceive p fr e.time.t

/-- Numbers whose window has closed and that neither leg delivered are MISSING (R482). -/
def Engine.rxVerdict (f : Nat) : Nat → Engine → Engine
  | 0, e => e
  | fuel + 1, e =>
    let x := e.rxFlow f
    match x.verd, x.pkts.getLast? with
    | some v, some q =>
      let top := x.pkts.foldl (fun m y => if m.seq < y.seq then y else m) q
      let m := top.m - (top.seq - v) * e.fK false f
      let closed := decide ((m + e.fA f) * oneSec < (e.time.t - (e.fLate f : Int) * 2 ^ 32) * e.fs)
      if v ≤ top.seq ∧ closed = true then
        let e := if x.pkts.any fun y => y.seq == v then e else e.count (rxCnt f 6 16 16)
        Engine.rxVerdict f fuel (e.updRx f fun x => { x with verd := some (v + 1) })
      else e
    | _, _ => e

/-- Receive flow `f` plays out ESC `s`, whose media clock is `mcc` (R480, R481, R484, R485). -/
def Engine.rxPlay (e : Engine) (f s : Nat) (mcc : Int) : Engine :=
  let pos := mcc - e.fLo f - e.fA f
  let x := e.rxFlow f
  let k := e.fK false f
  let ch := e.fCh false f
  let slot := e.slotOf f pos
  let cover (leg : RxPkt → Bool) : Bool := x.pkts.any fun q => leg q && decide (q.m ≤ pos ∧ pos < q.m + k)
  let valid := Tbl.get none x.tag slot == some pos && e.rxBuf f
  let e := e.rxBufNote f
  let vals := (List.range ch).map fun c => (e.ldW (e.fBuf false f + 4 * (slot * ch + c))).toInt
  let out := (List.range ch).map fun c =>
    if valid then
      let v := vals.getD c 0
      if x.good < 16 then weigh v (planish 16 x.good) else v
    else if x.bad < 16 then weigh (x.last.getD c 0) (one20 - planish 16 x.bad) else 0
  let e := out.zipIdx.foldl (fun e q => e.setSmps (s / e.nSamp) (e.fFirst false f + q.2) (s % e.nSamp) [q.1]) e
  e.updRx f fun x => { x with
    last := if valid then vals else x.last,
    bad := if valid then 0 else min 16 (x.bad + 1),
    good := if valid then min 16 (x.good + 1) else 0,
    inval := if valid then 0 else x.inval + 1,
    un0 := if cover RxPkt.leg0 then 0 else x.un0 + 1,
    un1 := if cover RxPkt.leg1 then 0 else x.un1 + 1,
    pkts := x.pkts.filter fun q => decide (pos < q.m + k) || decide (x.verd.getD q.seq ≤ q.seq) }

/-- The MCC of ESC `s`, by the latch of its block. -/
def Engine.mccOf (e : Engine) (s : Nat) : Int :=
  match e.net.mccs.find? fun q => q.1 == s / e.nSamp with
  | some q => q.2 + (s % e.nSamp : Nat)
  | none => e.time.mcc + ((s : Int) - e.time.latchEsc)

/-- Play-out of every receive flow at the edge that ends ESC `s`. -/
def Engine.mediaPlay (e : Engine) (s : Nat) : Engine :=
  (e.flowsOn false).foldl (fun e f => (Engine.rxVerdict f 64 e).rxPlay f s (e.mccOf s)) e

/-- Samples of LOSS_MS of flow `f`. -/
def Engine.lossSamples (e : Engine) (f : Nat) : Nat := e.fLoss f * e.fs / 1000

/-- LEG_LOSS of leg `p` of flow `f` (R484). -/
def execLegLoss (f p : Nat) (s : State) : Out :=
  s.eff fun e =>
    let f := f % 1024
    let p := p % 2
    let x := e.rxFlow f
    let un := if p = 0 then x.un0 else x.un1
    let down := if p = 0 then x.down0 else x.down1
    if e.flowEn false f && e.hasLeg false f p && !down && decide (e.lossSamples f ≤ un) then
      let e := (e.put (rxLegUp f p) 0).updRx f fun x =>
        if p = 0 then { x with down0 := true } else { x with down1 := true }
      e.flowEvt false f 0x02 .warn 0xFF p
    else e

/-- FLOW_LOSS of flow `f` (R485). -/
def execFlowLoss (f : Nat) (s : State) : Out :=
  s.eff fun e =>
    let f := f % 1024
    if e.flowEn false f ∧ e.get (rxState f) ≠ 3 ∧ e.lossSamples f ≤ (e.rxFlow f).inval then
      ((e.put (rxState f) 3).count (rxCnt f 7 16 16)).flowEvt false f 0x04 .fault 0xFF 0
    else e

/-! ### Transmit -/

def txCnt (f w : Nat) : Fld := ⟨flowStat true f w, 0, 32⟩

/-- The buffer word of media clock `m`, channel `c`, of transmit flow `f`. -/
def Engine.txSlot (e : Engine) (f : Nat) (m : Int) (c : Nat) : Nat :=
  e.fBuf true f + 4 * ((m % (2 * e.fK true f : Nat)).toNat * e.fCh true f + c)

/-- SCATTER fills the transmit buffers with block `b`; a flow's first packet is the first
whole one (R475, R488). -/
def Engine.mediaScatter (e : Engine) (b : Nat) : Engine :=
  let n := e.nSamp
  (e.flowsOn true).foldl (fun e f =>
    let fault : Fld := ⟨flowStat true f 0, 8, 1⟩
    if e.blockAccess 0x43 (e.fBuf true f) then
      let e := e.put fault 0
      let k : Int := e.fK true f
      let m0 := e.mccOf (b * n)
      let e := if Tbl.get none e.net.txNext f = none then
          e.updNet fun x => { x with txNext := Tbl.set none x.txNext f (some ((m0 + k - 1) / k * k)) }
        else e
      (List.range n).foldl (fun e j => (List.range (e.fCh true f)).foldl (fun e c =>
        e.memWrite none (e.txSlot f (e.mccOf (b * n + j)) c) [e.outSmp b (e.fFirst true f + c) j]) e) e
    else if e.on fault then e
    else (e.put fault 1).flowEvt true f 0x08 .fault 0xFF 0) e

/-- The nominal network time of the sample `d` after the latched one (R131). -/
def Engine.nominalAt (e : Engine) (d : Int) : Int :=
  e.time.latch + rndDiv (d * 1000000000 * 2 ^ 24) e.fs * 2 ^ 8

/-- When the packet of flow `f` whose first sample has media clock `m` is due (R489). -/
def Engine.txDue (e : Engine) (f : Nat) (m : Int) : Int :=
  let s0 := (e.time.latchEsc : Int) + (m - e.time.mcc)
  e.nominalAt (s0 + e.fK true f + 2 * e.nSamp - e.time.latchEsc)
    + (bitsOf (e.fw true f 12) 0 16 : Int) * 100 * 2 ^ 32

/-- TXEN of port `p` for a packet whose first sample is ESC `s` (R490, R501). -/
def Engine.txenAt (e : Engine) (p : Nat) (s : Int) : Bool :=
  let l := e.duo.txen.filter fun q => decide ((q.1 * e.nSamp : Nat) ≤ s)
  match l.getLast? with
  | some q => (if p = 0 then q.2.1 else q.2.2) == 1
  | none => e.on (NET_STATUS_TXEN p)

/-- The packet of flow `f` at media clock `m` on port `p` (R472, R488). -/
def Engine.txPacket (e : Engine) (f p : Nat) (m : Int) (data : List Nat) : MediaPkt :=
  let w := fun k => e.fw true f k
  let o := 4 * p
  let dst := (w (4 + o)).toNat
  let vw := w (7 + o)
  { port := p, flow := f,
    dmac := if isMcast dst then mcastMac dst else (w (5 + o)).toNat + bitsOf (w (6 + o)) 0 16 * 2 ^ 32,
    smac := e.portMac p, vlan := if bitOf vw 28 then some (bitsOf vw 16 12, bitsOf vw 29 3) else none,
    src := (e.rd (NET_IPV4 p)).toNat, dst := dst, sport := bitsOf vw 0 16, dport := bitsOf (w (6 + o)) 16 16,
    dscp := bitsOf (w 1) 8 6, ttl := bitsOf (w 1) 16 8, pt := bitsOf (w 1) 0 7, ssrc := (w 2).toNat,
    seq := (((bitsOf (w 12) 16 16 : Nat) + m / (e.fK true f : Int)) % 65536).toNat,
    ts := ((m + (w 3).toNat) % 2 ^ 32).toNat, data := data }

/-- One leg of a packet: sent, or discarded and counted with TX_DROP once per episode (R490). -/
def Engine.txLeg (e : Engine) (f p : Nat) (m : Int) (data : List Nat) : Engine :=
  let s0 := (e.time.latchEsc : Int) + (m - e.time.mcc)
  if e.hasLeg true f p = false then e
  else if e.portUp p && e.txenAt p s0 then
    let e := ((e.count (txCnt f (1 + p))).count (NET_TX_OK_COUNT p)).updNet fun x => { x with
      media := Tbl.set none x.media p (some (e.txPacket f p m data)), dropEp := x.dropEp.filter (· != p) }
    e
  else
    let e := e.count (txCnt f 3)
    if e.net.dropEp.contains p then e
    else (e.updNet fun x => { x with dropEp := x.dropEp ++ [p] }).raise (netEvt 0x06 .warn 0xFF p f)

/-- A packet of another flow on a port of flow `f`'s is due before the packet at `m`, or at
the same instant with a lower index (R489). -/
def Engine.txBehind (e : Engine) (f : Nat) (m : Int) : Bool :=
  let d := e.txDue f m
  (e.flowsOn true).any fun g =>
    g != f && !e.on ⟨flowStat true g 0, 8, 1⟩
      && (List.range 2).any (fun p => e.hasLeg true f p && e.hasLeg true g p)
      && match Tbl.get none e.net.txNext g with
        | some n => decide (e.txDue g n < d ∨ (e.txDue g n = d ∧ g < f))
        | none => false

/-- MEDIA_PACKET_LAUNCH: the next packet of flow `f` once it is due and its turn has come
(R488 to R490). -/
def Engine.mediaLaunch (e : Engine) (f : Nat) : Engine :=
  match Tbl.get none e.net.txNext f with
  | none => e
  | some m =>
    if e.flowEn true f = false ∨ e.stopped = true ∨ e.time.t < e.txDue f m ∨ e.txBehind f m = true then e
    else
      let k := e.fK true f
      let ch := e.fCh true f
      let trn := bitOf (e.fw true f 0) 24
      let dw := if e.fL24 true f then 24 else 16
      let delay := ((e.time.t - e.txDue f m) / 2 ^ 32).toNat
      let e := e.updNet fun x => { x with txNext := Tbl.set none x.txNext f (some (m + k)) }
      if e.on ⟨flowStat true f 0, 8, 1⟩ then e
      else
        let vs := (List.range (k * ch)).map fun i =>
          narrowTo dw trn (if e.tick.muted then 0 else (e.ldW (e.txSlot f (m + (i / ch : Nat)) (i % ch))).toInt)
        let e := if vs.any Prod.snd then e.put ⟨flowStat true f 0, 4, 1⟩ 1 else e
        let e := e.put (txCnt f 4) (max (e.get (txCnt f 4)) (min delay (2 ^ 32 - 1)))
        let data := vs.map fun v => (v.1 % 2 ^ dw).toNat
        (e.txLeg f 0 m data).txLeg f 1 m data

def execMediaPacketLaunch (f : Nat) (s : State) : Out := s.eff fun e => e.mediaLaunch (f % 1024)

/-- Block `b` is latched with its MCC. -/
def Engine.mediaLatch (e : Engine) (b : Nat) : Engine :=
  e.updNet fun x => { x with mccs := (x.mccs ++ [(b, e.time.mcc)]).drop (x.mccs.length - 7) }

/-! ### Ranges -/

/-- The range pair of tenant `t` takes effect (R496). -/
def Engine.flowRange (e : Engine) (by_ : Sender) (tx : Bool) (t : Nat) (v : Word) : Engine :=
  let a := fun t => if tx then FLOW_TX_RANGE t else FLOW_RX_RANGE t
  let lo := bitsOf v 0 10
  let hi := lo + bitsOf v 16 11
  let meets (u : Nat) : Bool :=
    let w := e.cpVal (a u)
    u != t && decide (bitsOf w 0 10 < hi ∧ lo < bitsOf w 0 10 + bitsOf w 16 11)
  let leaves := (e.flowsOn tx).any fun f => e.flowOwner tx f == some t && !decide (lo ≤ f ∧ f < hi)
  if by_.isCC = false ∨ 1024 < hi ∨ (List.range 16).any meets = true ∨ leaves = true then
    e.raise { block := 0x11, code := 0x09, sev := .warn, hm := by_.hm, w2 := v.toNat }
  else e.wrCp (a t) (v &&& 0x07FF03FF#32)

end Sys2Proof.Machine
end

