-- ==== Sys2Proof/Machine/Sumx.lean ====
section
/-!
DEFINITION. SUMX: contributions and bus lists, the SUM and FINISH jobs, the limiter,
meter taps and loudness meters (chapter "Router, Summing Matrix, Limiters and Meters",
R393 to R404).
-/
namespace Sys2Proof.Machine

/-- A SUMX event, to the owning tenant when there is one (R404). -/
def Engine.sumxEvt (e : Engine) (owner : Option Nat) (code : Nat) (sev : Sev) (hm w2 w3 : Nat) :
    Engine :=
  let v : Evt := { block := 0x0B, code := code, sev := sev, hm := hm, w2 := w2, w3 := w3 }
  match owner with | some t => e.raiseT t v | none => e.raise v

/-- CFG_REFUSED (R403). -/
def Engine.sumxRefuse (e : Engine) (by_ : Sender) (off : Nat) : Engine :=
  e.sumxEvt (senderTenant by_) 0x07 .warn by_.hm off 0

/-! ### Contributions -/

/-- Word `i` of contribution `c` of bank `k` (R393). -/
def conAddr (k c i : Nat) : Nat := 0x50100000 + 0x80000 * k + 8 * c + 4 * i

/-- The tenant whose range holds contribution `c` (R394). -/
def Engine.conOwner (e : Engine) (c : Nat) : Option Nat :=
  (List.range 16).find? fun t =>
    let b := e.cp (SUMX_RANGE_BASE t)
    decide (16 * b ≤ c ∧ c < 16 * (b + e.cp (SUMX_RANGE_COUNT t)))

/-- A contribution after a change at ESC `s` (R392, R394, R672): a change of SRC
crossfades and one of GAIN ramps when RAMP is 1; a change of EN is a step. -/
def ConSt.apply (x : ConSt) (s : Nat) : ConChg → ConSt
  | .entry w0 w1 len =>
    let src := w0 % 2 ^ 13
    let ramp := if w0.testBit 13 then len else 0
    let x := if src = x.src then x
      else { x with src := src, oldSrc := x.src, xAt := s, xLen := ramp }
    { x with en := w0.testBit 14, gain := x.gain.retarget (BitVec.ofNat 24 w1).toInt s ramp,
             quar := x.quar.retarget one20 s ramp }
  | .quar len => { x with quar := x.quar.retarget 0 s len }

def ConHist.at (h : ConHist) (s : Nat) : ConSt :=
  h.chg.foldl (fun x c => if c.1 ≤ s then x.apply c.1 c.2 else x) h.base

def ConHist.prune (h : ConHist) (s : Nat) : ConHist :=
  { base := h.at (s - 1), chg := h.chg.filter fun c => s ≤ c.1 }

/-- A change of contribution `c` from ESC `s` on. -/
def Engine.conChange (e : Engine) (c s : Nat) (g : ConChg) : Engine :=
  let h := Tbl.get {} e.sumx.con c
  e.updSumx fun x => { x with con := Tbl.set {} x.con c { h with chg := insAt s g h.chg } }

/-- The ramp length of tenant `t`, T0's without an owner (R389). -/
def Engine.sumxLen (e : Engine) (t : Option Nat) : Nat := e.get (SUMX_TRAMP_LEN (t.getD 0)) + 1

/-- The change that the stored words of contribution `c` of bank `k` make. -/
def Engine.conEntry (e : Engine) (k c : Nat) : ConChg :=
  .entry (bitsOf (e.rd (conAddr k c 0)) 0 16) (bitsOf (e.rd (conAddr k c 1)) 0 24)
    (e.sumxLen (e.conOwner c))

/-- Why words of a contribution are refused (R394, R404). A one in the zero bit 15 of word
0 is a reserved value. -/
def Engine.conRefusal (e : Engine) (by_ : Sender) (w0 w1 : Option Word) : Option Nat :=
  if (w0.map halfOk).getD true = false ∨ (w1.map gchkOk).getD true = false then some 1
  else match w0 with
    | some w => if bitOf w 15 then some 2 else e.srcRefusal (bitsOf w 0 13) (senderTenant by_)
    | none => none

/-- Words stored into contribution `c` of bank `k`. -/
def Engine.conStore (e : Engine) (k c : Nat) (w0 w1 : Option Word) : Engine :=
  let st (e : Engine) (i : Nat) (w : Option Word) : Engine :=
    match w with
    | some v => (e.wr (conAddr k c i) v).keepCopy (conAddr k c i)
    | none => e
  st (st e 0 w0) 1 w1

/-- A write of contribution `c` of bank `k`: word 0, word 1 or both as one change (R394,
R420, R423). -/
def Engine.conWrite (e : Engine) (by_ : Sender) (k c : Nat) (w0 w1 : Option Word) : Engine :=
  let a := conAddr k c (if w0.isSome then 0 else 1)
  let owner := e.conOwner c
  let act := e.get SUMX_STATUS_BANK
  let may := by_.isCC || (match owner with | some t => by_.isTenant t | none => false)
  if may = false then e.ownFault by_ a true
  else match e.conRefusal by_ w0 w1 with
    | some r =>
      let e := if r = 1 then e.count ASSAY_WRITE_CNT_COUNT else e
      e.sumxEvt owner 0x03 .warn by_.hm a r
    | none =>
      let o := 1 - k
      if k = act then
        let follow := e.on SAFE_CTRL_SHADOW && e.rd (conAddr k c 0) == e.rd (conAddr o c 0)
          && e.rd (conAddr k c 1) == e.rd (conAddr o c 1)
        let e := (e.conStore k c w0 w1).quarLift (conAddr k c 0) by_.hm (e.conOwner c)
        let e := e.conChange c e.bStarEsc (e.conEntry k c)
        if follow then e.conStore o c w0 w1 else e
      else match e.armedSumx with
        | some g => e.writeArmed by_ a g
        | none => (e.conStore k c w0 w1).quarLift (conAddr k c 0) by_.hm (e.conOwner c)

/-- The words of a write of contribution `c` in bank `k`. -/
def conWords (k c : Nat) (w0 w1 : Option Word) : List (Nat × Word) :=
  (w0.map fun v => (conAddr k c 0, v)).toList ++ (w1.map fun v => (conAddr k c 1, v)).toList

/-- CONTRIBUTION_WRITE. -/
def execContributionWrite (by_ : Sender) (k c : Nat) (w0 w1 : Option Word) (s : State) : Out :=
  s.eff fun e => e.rowWrite by_ (conWords (k % 2) (c % 65536) w0 w1) fun e =>
    e.conWrite by_ (k % 2) (c % 65536) w0 w1

/-! ### Bus lists -/

/-- The list register of bus `n` in bank `k`. -/
def listAddr (k n : Nat) : Nat := if k = 0 then SUMX_LIST_A n else SUMX_LIST_B n

/-- Contributions in use per sample at the rate (R41). -/
def Engine.conCap (e : Engine) : Nat := if e.on TICK_CFG_RATE then 32768 else 65536
/-- Buses at the rate (R41). -/
def Engine.busCap (e : Engine) : Nat := if e.on TICK_CFG_RATE then 128 else 256

/-- Enabled buses. -/
def Engine.busesOn (e : Engine) : List Nat :=
  (e.listedIdx (SUMX_BUS_CFG 0) 4 256).filter fun n => e.on (SUMX_BUS_CFG_EN n)

def Engine.busOwner (e : Engine) (n : Nat) : Nat := e.get (SUMX_BUS_CFG_TENANT n)

/-- The sum of COUNT of bank `k` over the enabled buses but `not`. -/
def Engine.listTotal (e : Engine) (k : Nat) (but : Nat → Bool) : Nat :=
  ((e.busesOn.filter fun n => !but n).map fun n => bitsOf (e.cpVal (listAddr k n)) 16 16).sum

/-- A list lies within the table and its bus owner's range (R395); an empty one does. -/
def Engine.listInRange (e : Engine) (n : Nat) (v : Word) : Bool :=
  let (b, c) := (bitsOf v 0 16, bitsOf v 16 16)
  let t := e.busOwner n
  let r := e.cp (SUMX_RANGE_BASE t)
  decide (b + c ≤ 65536) && (c == 0 || decide (16 * r ≤ b ∧ b + c ≤ 16 * (r + e.cp (SUMX_RANGE_COUNT t))))

/-- The lists of bank `k` pass R395 (reason 7 of R419). -/
def Engine.listsFit (e : Engine) (k : Nat) : Bool :=
  (List.range 256).all (fun n => e.listInRange n (e.cpVal (listAddr k n)))
    && decide (e.listTotal k (fun _ => false) ≤ e.conCap)

/-- The list word of bus `n` in bank `k` from ESC `s` on. -/
def Engine.listChange (e : Engine) (k n s : Nat) (v : Word) : Engine :=
  e.updSumx fun x => { x with
    list := Tbl.set [] x.list (256 * k + n) (insAt s v (Tbl.get [] x.list (256 * k + n))) }

/-- A fade history retargeted at ESC `s`. -/
def retargetAt (l : List (Nat × Ramp)) (g : Int) (s len : Nat) : List (Nat × Ramp) :=
  insAt s ((lastAt {} s l).retarget g s len) l

/-- A list pair takes effect: checked, stored, from sample 0 of b*, and shadowed; a good
pair written by the control core lifts a quarantine (R395, R420, R423, R672). -/
def Engine.listWrite (e : Engine) (by_ : Sender) (k n : Nat) (v : Word) : Engine :=
  let a := listAddr k n
  let act := e.get SUMX_STATUS_BANK
  let owner := e.busOwner n
  if (by_.isCC || by_.isTenant owner) = false then e.sumxRefuse by_ (a - 0x400B0000)
  else if k ≠ act ∧ e.armedSumx.isSome = true then e.writeArmed by_ a (e.armedSumx.getD 0)
  else
    let tooBig := k == act && e.on (SUMX_BUS_CFG_EN n)
      && decide (e.conCap < e.listTotal k (· == n) + bitsOf v 16 16)
    if e.listInRange n v = false ∨ tooBig = true then e.sumxEvt (some owner) 0x04 .warn by_.hm n k
    else
      let o := 1 - k
      let s := e.bStarEsc
      let follow := k == act && e.on SAFE_CTRL_SHADOW && e.cpVal (listAddr o n) == e.cpVal a
      let e := (e.wrCp a v).listChange k n s v
      let e := if by_.isCC ∧ e.isQuar a = true then
          (e.quarLift a by_.hm (some owner)).updSumx fun x => { x with
            listQ := Tbl.set [] x.listQ n (retargetAt (Tbl.get [] x.listQ n) one20 s 0) }
        else e
      if follow then (e.wrCp (listAddr o n) v).listChange o n s v else e

/-- SUMX_LIST_WRITE. -/
def execSumxListWrite (by_ : Sender) (k n : Nat) (v : Word) (s : State) : Out :=
  s.eff fun e => e.rowWrite by_ [(listAddr (k % 2) (n % 256), v)] fun e =>
    e.listWrite by_ (k % 2) (n % 256) v

/-- SAFE flips the contribution bank and the bus lists at ESC `s` (R422). -/
def Engine.conFlip (e : Engine) (s : Nat) : Engine :=
  let k := 1 - e.get SUMX_STATUS_BANK
  let cs := e.listedIdx (conAddr 0 0 0) 8 65536 ++ e.listedIdx (conAddr 1 0 0) 8 65536
  let e := (e.put SUMX_STATUS_BANK k).updSumx fun x => { x with bank := insAt s k x.bank }
  cs.foldl (fun e c =>
    e.conChange c s (if e.isQuar (conAddr k c 0) then .quar e.nSamp else e.conEntry k c)) e

/-! ### SUM -/

/-- The sample SUMX reads: a path or bus output that is not valid for the block is zero
(R23, R396). -/
def Engine.sumSample (e : Engine) (src b j : Nat) : Int :=
  if 0x1000 ≤ src ∧ src < 0x1400 then
    if e.pathValid (src - 0x1000) b then e.pathOut (src - 0x1000) b j else 0
  else if 0x1400 ≤ src ∧ src < 0x1500 then
    if e.outValid 2 (src - 0x1400) b ∧ e.idxIn true src then e.smp b src j else 0
  else e.srcSample src b b j

/-- The term of a contribution at ESC `s`, sample `j` of block `b` (R389, R396). -/
def Engine.conTerm (e : Engine) (h : ConHist) (s b j : Nat) : Int :=
  let x := h.at s
  if x.en = false then 0
  else
    let f := if x.xLen = 0 then one20 else planish x.xLen (s - x.xAt)
    let new := e.sumSample x.src b j
    let v := if f = one20 then new
      else clip31 (clip31 (rndShift (new * f) 20)
        + clip31 (rndShift (e.sumSample x.oldSrc b j * (one20 - f)) 20))
    let t := rndShift (v * x.gain.at s) 20
    let q := x.quar.at s
    if q = one20 then t else rndShift (t * q) 20

/-- The sum of bus `n` at sample `j` of block `b`, and whether it saturated (R395, R396). -/
def Engine.busSum (e : Engine) (n b j : Nat) : Int × Bool :=
  let s := b * e.nSamp + j
  let k := lastAt 0 s e.sumx.bank
  let w := lastAt 0#32 s (Tbl.get [] e.sumx.list (256 * k + n))
  let (lo, c) := (bitsOf w 0 16, bitsOf w 16 16)
  let t := (e.sumx.con.filter fun p => lo ≤ p.1 && p.1 < lo + c).foldl
    (fun a p => a + e.conTerm p.2 s b j) 0
  let v := clip39 t
  let q := (lastAt {} s (Tbl.get [] e.sumx.listQ n)).at s
  (if q = one20 then v else rndShift (v * q) 20, decide (v ≠ t))

/-- The active contributions and the list pair of bus `n`, checked as SUM first reads
them in a block (R667, R668). -/
def Engine.conCheck (e : Engine) (n : Nat) : Engine :=
  let k := e.get SUMX_STATUS_BANK
  let e := e.cpCheck (listAddr k n) (some (e.busOwner n))
  let w := e.cpVal (listAddr k n)
  let (lo, c) := (bitsOf w 0 16, bitsOf w 16 16)
  ((e.listedIdx (conAddr k 0 0) 8 65536).filter fun i => lo ≤ i && i < lo + c).foldl (fun e i =>
    let e := if halfOk (e.rd (conAddr k i 0)) then e
      else e.tabMismatch (conAddr k i 0) (conAddr k i 0) (e.conOwner i)
    if gchkOk (e.rd (conAddr k i 1)) then e
    else e.tabMismatch (conAddr k i 1) (conAddr k i 0) (e.conOwner i)) e

/-- A saturation bit set, and its event once per episode; the episode ends with the first
block without one (R396, R398, R404). -/
def Engine.sumxSat (e : Engine) (acc : Bool) (n : Nat) (sat : Bool) : Engine :=
  let ep := if acc then e.sumx.accEp else e.sumx.busEp
  let setEp (e : Engine) (l : List Nat) : Engine :=
    e.updSumx fun x => if acc then { x with accEp := l } else { x with busEp := l }
  if sat then
    let e := e.put ⟨(if acc then SUMX_ACC_SAT 0 else SUMX_BUS_SAT 0) + 4 * (n / 32), n % 32, 1⟩ 1
    if ep.contains n then e
    else (setEp e (ep ++ [n])).sumxEvt (some (e.busOwner n)) (if acc then 0x01 else 0x02) .warn 0xFF n 0
  else setEp e (ep.filter (· != n))

/-- SUM of bus `n` for block `b` into the bus buffer (R397). -/
def Engine.sumBus (e : Engine) (n b : Nat) : Engine :=
  let e := e.conCheck n
  let l := (List.range e.nSamp).map (e.busSum n b)
  let buf := (l.zipIdx).foldl (fun t p => Tbl.set 0 t (32 * n + p.2) p.1.1) e.sumx.buf
  let e := e.updSumx fun x => { x with buf := buf, bufBlk := Tbl.set 0 x.bufBlk n (b + 1) }
  e.sumxSat true n (l.any Prod.snd)

/-! ### FINISH -/

/-- ⌈…⌉-free division with RND for a positive divisor (R14). -/
def rndQuot (v : Int) (d : Nat) : Int := (2 * v + d).fdiv (2 * d)

/-- 1.0 in units of 2^-30 (R399). -/
def one30 : Int := 1073741824

/-- The largest magnitude of the samples of a window from index `k` on. -/
def peakFrom (w : List Int) (k : Nat) : Int := (w.drop k).foldl (fun m v => max m v.natAbs) 0

/-- One sample of the limiter (R399): the window holds x_n to x_(n+31), and each r_(n+k)
takes its peak over the part of the window from n + k on. -/
def LimSt.step (l : LimSt) (c : Int) (alpha : Nat) (x : Int) : LimSt × Int :=
  let w := List.replicate (32 - l.x.length) 0 ++ l.x
  let cand := (List.range 32).filterMap fun k =>
    let p := peakFrom w k
    let r := if p = 0 then one30 else min one30 ((c * one30).fdiv p)
    if r < l.g then some (l.g - rndQuot (l.g - r) (k + 1)) else none
  let g := match cand with
    | a :: as => as.foldl min a
    | [] => min one30 (l.g + rndShift (alpha * (one30 - l.g)) 30)
  ({ x := (w ++ [x]).drop 1, g := g }, clampInt (-c) c (rndShift (w.headD 0 * g) 30))

/-- The limiter over a block. -/
def LimSt.run (l : LimSt) (c : Int) (alpha : Nat) : List Int → LimSt × List Int
  | [] => (l, [])
  | x :: xs =>
    let (l, y) := l.step c alpha x
    let (l, ys) := l.run c alpha xs
    (l, y :: ys)

/-- The sample of bus `n` after its gain (R397, R398, R672): RMODE rounds the product. -/
def Engine.busGained (e : Engine) (n b j : Nat) : Int :=
  let s := b * e.nSamp + j
  let x := if Tbl.get 0 e.sumx.bufBlk n = b + 1 then Tbl.get 0 e.sumx.buf (32 * n + j) else 0
  let g := (lastAt {} s (Tbl.get [] e.sumx.gain n)).at s
  let p := x * g
  let v := if e.on (SUMX_BUS_CFG_RMODE n) then p.fdiv (2 ^ 20) else rndShift p 20
  let q := (lastAt {} s (Tbl.get [] e.sumx.gainQ n)).at s
  if q = one20 then v else rndShift (v * q) 20

/-- FINISH of bus `n` for block `b` (R397 to R399). -/
def Engine.finishBus (e : Engine) (n b : Nat) : Engine :=
  let e := e.cpCheck (SUMX_BUS_GAIN n) (some (e.busOwner n))
  let xs := (List.range e.nSamp).map (e.busGained n b)
  let l := Tbl.get {} e.sumx.lim n
  let (l, ys) := if e.on (SUMX_BUS_CFG_LIM_EN n) then
      l.run (limCeil (e.get (SUMX_LIM_CEIL n))) (e.get (SUMX_LIM_ALPHA_ALPHA n)) xs
    else (l, xs)
  let e := e.updSumx fun x => { x with lim := Tbl.set {} x.lim n l }
  let saten := e.on (SUMX_BUS_CFG_SATEN n)
  let out := ys.map fun y => if saten then clip31 y else (wordOfInt y).toInt
  (e.setSmps b (0x1400 + n) 0 out).sumxSat false n (saten && ys.any fun y => clip31 y != y)

/-! ### Jobs -/

/-- The jobs of a SUMX task: (FINISH?, bus) in order (R397). -/
def sumxSteps (entry : Word) : List (Bool × Nat) :=
  let lo := bitsOf entry 0 8
  let hi := bitsOf entry 8 8
  let op := bitsOf entry 16 2
  let bs := (List.range (hi + 1 - lo)).map (· + lo)
  (if op = 1 then [] else bs.map fun n => (false, n)) ++ (if op = 0 then [] else bs.map fun n => (true, n))

/-- The next job of the SUMX task, when it is a SUM (`fin` false) or a FINISH: the bus is
processed, or the task ends FAULTED with JOB_FAULT on a bus it may not name (R397). -/
def Engine.sumxJob (e : Engine) (fin : Bool) : Engine :=
  match Tbl.get none e.sched.accel 2 with
  | none => e
  | some d =>
    let k := Tbl.get 0 e.sched.step 2
    match (sumxSteps ((e.img d).getD 0 0#32))[k]? with
    | none => e
    | some (f, n) =>
      if f ≠ fin then e
      else
        let owned := e.descTenant d == some (e.busOwner n)
        if e.on (SUMX_BUS_CFG_EN n) = false ∨ owned = false ∨ e.busCap ≤ n then
          (e.sumxEvt (e.descTenant d) 0x08 .fault 0xFF d n).accelFault 2 1
        else
          let b := (e.desc d).bound / e.nSamp
          let e := if fin then e.finishBus n b else e.sumBus n b
          e.updSched fun s => { s with step := Tbl.set 0 s.step 2 (k + 1) }

/-- SUMX_SUM_JOB. -/
def execSumxSumJob (s : State) : Out := s.eff fun e => e.sumxJob false

/-- SUMX_FINISH_JOB. -/
def execSumxFinishJob (s : State) : Out := s.eff fun e => e.sumxJob true

/-! ### Meters -/

/-- Meter taps of block `b` at its guard start (R400). -/
def Engine.tapUpdate (e : Engine) (b : Nat) : Engine :=
  if e.get ADAPT_STATUS_LEVEL ≠ 0 ∧ b % 4 ≠ 0 then e
  else (e.listedIdx (SUMX_TAP_CFG 0) 4 4096).foldl (fun e k =>
    if e.on (SUMX_TAP_CFG_EN k) then
      let n := e.nSamp
      let xs := (List.range n).map (e.srcSample (e.get (SUMX_TAP_CFG_SRC k)) b b)
      let peak := xs.foldl (fun m v => max m (mag31 v)) 0
      let sq := xs.foldl (fun a v => a + v * v) 0
      let msq := min (2 ^ 32 - 1) (rndQuot sq (n * 2 ^ 30))
      (e.wr (SUMX_TAP_PEAK k) (wordOfInt peak)).wr (SUMX_TAP_MSQ k) (wordOfInt msq)
    else e) e

/-- A read of SUMX_TAP_PEAK captures MSQ for the reader (R400). -/
def Engine.tapPeakRead (e : Engine) (by_ : Sender) (k : Nat) : Word × Engine :=
  (e.rd (SUMX_TAP_PEAK k), e.capture (SUMX_TAP_PEAK k) by_.hm [(e.rd (SUMX_TAP_MSQ k)).toNat])

/-- TAP_PEAK_CAPTURE. -/
def execTapPeakCapture (by_ : Sender) (k : Nat) (s : State) : Out :=
  s.eff fun e => Engine.answer (e.tapPeakRead by_ (k % 4096))

/-- The K-weighted squares of `n` samples added (R401). -/
def loudRun (hi : Bool) : List Int → List Int × Nat → List Int × Nat
  | [], st => st
  | x :: xs, (f, a) =>
    let (f, q) := Config.kStep hi f x
    loudRun hi xs (f, a + q)

/-- Loudness meters take block `b`; an interval starts at an ESC that is a multiple of
fs / 10, which is a block boundary (R401). -/
def Engine.loudBlockIn (e : Engine) (b : Nat) : Engine :=
  (e.listedIdx (SUMX_LOUD_CFG 0) 0x40 16).foldl (fun e m =>
    if e.get (SUMX_LOUD_CFG_CH_EN m) = 0 then e
    else
      let n := e.nSamp
      let l := Tbl.get {} e.sumx.loud m
      let s := b * n
      let l := if s % (e.fs / 10) = 0 then { l with sum := [], cnt := 0, from_ := s } else l
      let l := (List.range 8).foldl (fun l i =>
        if (e.get (SUMX_LOUD_CFG_CH_EN m)).testBit i then
          let xs := (List.range n).map (e.srcSample (e.get (SUMX_LOUD_CH_SRC m i)) b b)
          let (f, q) := loudRun (e.on TICK_CFG_RATE) xs (Tbl.get [] l.filt i, Tbl.get 0 l.sum i)
          { l with filt := Tbl.set [] l.filt i f, sum := Tbl.set 0 l.sum i q }
        else l) l
      e.updSumx fun x => { x with loud := Tbl.set {} x.loud m { l with cnt := l.cnt + n } }) e

/-- LOUD_BLOCK: the interval of meter `m` is complete: VAL is Σ G_i z_i in u4.28, held at
its largest code; ESC, SEQ and the event follow (R401). -/
def Engine.loudBlock (e : Engine) (m : Nat) : Engine :=
  let l := Tbl.get {} e.sumx.loud m
  if l.cnt = 0 ∨ l.cnt ≠ e.fs / 10 then e
  else
    let num := l.sum.foldl (fun a p => a + e.get (SUMX_LOUD_CH_G m p.1) * p.2) 0
    let den := l.cnt * 2 ^ 48
    let up := if num % den ≠ 0 ∧ Config.loudRound m l.from_ then 1 else 0
    let v := min (2 ^ 32 - 1) (num / den + up)
    let e := (e.wr (SUMX_LOUD_VAL m) (BitVec.ofNat 32 v)).wr (SUMX_LOUD_ESC m) (BitVec.ofNat 32 l.from_)
    let e := e.wrap (SUMX_LOUD_SEQ_SEQ m)
    let e := e.updSumx fun x => { x with loud := Tbl.set {} x.loud m { l with cnt := 0, sum := [] } }
    e.sumxEvt none 0x05 .note 0xFF m v

def execLoudBlock (m : Nat) (s : State) : Out := s.eff fun e => e.loudBlock (m % 16)

/-! ### Registers and upkeep -/

/-- The SUMX_BUS_GAIN pair of bus `n` takes effect, with Planish from sample 0 of b*; a
good pair of the control core lifts a quarantine (R397, R403, R672). -/
def Engine.busGainSet (e : Engine) (by_ : Sender) (n : Nat) (v : Word) : Engine :=
  let a := SUMX_BUS_GAIN n
  let owner := e.busOwner n
  if (by_.isCC || by_.isTenant owner) = false then e.sumxRefuse by_ (0x100 + 8 * n)
  else
    let s := e.bStarEsc
    let len := e.sumxLen (some owner)
    let e := (e.wrCp a (v &&& 0xFFFFFF#32)).updSumx fun x => { x with
      gain := Tbl.set [] x.gain n
        (retargetAt (Tbl.get [] x.gain n) (BitVec.ofNat 24 (bitsOf v 0 24)).toInt s len) }
    if by_.isCC ∧ e.isQuar a = true then
      (e.quarLift a by_.hm (some owner)).updSumx fun x => { x with
        gainQ := Tbl.set [] x.gainQ n (retargetAt (Tbl.get [] x.gainQ n) one20 s len) }
    else e

/-- The SUMX_RANGE pair of tenant `t` takes effect: control core only; a range past the
table or over another tenant's is out of range (R394, R403). -/
def Engine.sumxRangeSet (e : Engine) (by_ : Sender) (t : Nat) (v : Word) : Engine :=
  let v := v &&& 0x1FFF0FFF#32
  let (b, n) := (bitsOf v 0 12, bitsOf v 16 13)
  let overlap := (List.range 16).any fun u =>
    let bu := e.cp (SUMX_RANGE_BASE u)
    let nu := e.cp (SUMX_RANGE_COUNT u)
    u != t && decide (n ≠ 0 ∧ nu ≠ 0 ∧ b < bu + nu ∧ bu < b + n)
  if by_.isCC = false ∨ overlap = true ∨ 4096 < b + n then e.sumxRefuse by_ (0x080 + 8 * t)
  else e.wrCp (SUMX_RANGE t) v

/-- A write of SUMX_BUS_CFG (R395, R399, R403). -/
def Engine.busCfgWrite (e : Engine) (by_ : Sender) (n : Nat) (v : Word) : Engine :=
  let a := SUMX_BUS_CFG n
  let v := v &&& 0xF0F#32
  let old := e.rd a
  let k := e.get SUMX_STATUS_BANK
  let on := bitOf v 0 && !bitOf old 0
  if by_.isCC = false ∨ (bitOf old 0 = true ∧ bitOf old 1 ≠ bitOf v 1) ∨ (on = true ∧ e.busCap ≤ n) then
    e.sumxRefuse by_ (0x900 + 4 * n)
  else if on ∧ e.conCap < e.listTotal k (· == n) + bitsOf (e.cpVal (listAddr k n)) 16 16 then
    e.sumxEvt (some (bitsOf v 8 4)) 0x04 .warn by_.hm n k
  else
    let fresh := on || (bitOf v 1 && !bitOf old 1)
    let e := e.wr a v
    if fresh then e.updSumx fun x => { x with lim := Tbl.set {} x.lim n {} } else e

/-- A write of SUMX_LIM by the bus owner or the control core recomputes ALPHA (R399, R403). -/
def Engine.limWrite (e : Engine) (by_ : Sender) (n : Nat) (v : Word) : Engine :=
  let ms := bitsOf v 8 11
  if (by_.isCC || by_.isTenant (e.busOwner n)) = false ∨ 240 < bitsOf v 0 8 ∨ ms = 0 ∨ 2000 < ms then
    e.sumxRefuse by_ (0x1000 + 4 * n)
  else (e.wr (SUMX_LIM n) (v &&& 0x7FFFF#32)).put (SUMX_LIM_ALPHA_ALPHA n) (limAlpha e.fs ms)

/-- A change of rate recomputes every α (notes to R403). -/
def Engine.limRate (e : Engine) : Engine :=
  (List.range 256).foldl (fun e n =>
    e.put (SUMX_LIM_ALPHA_ALPHA n) (limAlpha e.fs (e.get (SUMX_LIM_REL_MS n)))) e

/-- A write of SUMX_TAP_CFG (R403, R404, Corners "Tap on a source not granted"). -/
def Engine.tapCfgWrite (e : Engine) (by_ : Sender) (k : Nat) (v : Word) : Engine :=
  if by_.isCC = false then e.sumxRefuse by_ (0x4000 + 4 * k)
  else if (e.srcRefusal (bitsOf v 0 13) (some (bitsOf v 20 4))).isSome then
    e.sumxEvt (some (bitsOf v 20 4)) 0x06 .warn by_.hm k 0
  else e.wr (SUMX_TAP_CFG k) (v &&& 0xF11FFF#32)

/-- A write of a SUMX register that is not a pair (R403). -/
def Engine.sumxRegWrite (e : Engine) (by_ : Sender) (off : Nat) (v : Word) : Engine :=
  let a := 0x400B0000 + off
  if off = 0x004 then e.wr a (e.rd a &&& ~~~ v)
  else if 0x040 ≤ off ∧ off < 0x080 then
    if by_.isCC || by_.isTenant ((off - 0x040) / 4) then e.wr a (v &&& 0xFFF#32) else e.sumxRefuse by_ off
  else if 0x900 ≤ off ∧ off < 0xD00 then e.busCfgWrite by_ ((off - 0x900) / 4) v
  else if 0x1000 ≤ off ∧ off < 0x1400 then e.limWrite by_ ((off - 0x1000) / 4) v
  else if 0x2400 ≤ off ∧ off < 0x2440 then e.wr a (e.rd a &&& ~~~ v)
  else if 0x2800 ≤ off ∧ off < 0x2C00 then
    let o := off % 0x40
    if o = 0 then e.wr a (v &&& 0xFF#32)
    else if o < 0x24 then
      if (idxRange true (bitsOf v 0 13)).isSome then e.wr a (v &&& 0xFFFF1FFF#32) else e.sumxRefuse by_ off
    else e
  else if 0x4000 ≤ off ∧ off < 0x8000 then e.tapCfgWrite by_ ((off - 0x4000) / 4) v
  else e

/-- A read of a SUMX register with behaviour of its own. -/
def Engine.sumxRegRead (e : Engine) (by_ : Sender) (off : Nat) : Option (Word × Engine) :=
  if 0x8000 ≤ off ∧ off < 0x10000 then
    let k := (off - 0x8000) / 8
    if off % 8 = 0 then some (e.tapPeakRead by_ k)
    else some (match e.captured (SUMX_TAP_PEAK k) by_.hm with
      | c :: _ => BitVec.ofNat 32 c
      | [] => e.rd (SUMX_TAP_MSQ k), e.capture (SUMX_TAP_PEAK k) by_.hm [])
  else none

/-- Items of a list by ESC that no block from ESC `s` on sees are dropped. -/
def pruneHist {α : Type} (s : Nat) : List (Nat × α) → List (Nat × α)
  | a :: b :: l => if b.1 ≤ s then pruneHist s (b :: l) else a :: b :: l
  | l => l

/-- Changes older than every block in flight are folded away. -/
def Engine.sumxPrune (e : Engine) (b : Nat) : Engine :=
  let s := (b - 3) * e.nSamp
  e.updSumx fun x => { x with
    con := x.con.map fun p => (p.1, p.2.prune s), bank := pruneHist s x.bank,
    list := x.list.map fun p => (p.1, pruneHist s p.2), gain := x.gain.map fun p => (p.1, pruneHist s p.2),
    listQ := x.listQ.map fun p => (p.1, pruneHist s p.2),
    gainQ := x.gainQ.map fun p => (p.1, pruneHist s p.2) }

/-- The checks of RUN (R42): buses beyond the range of the rate, then buses from the
highest down until the enabled lists fit. -/
def Engine.sumxCapacity (e : Engine) : Engine :=
  let off (e : Engine) (n : Nat) : Engine :=
    (e.put (SUMX_BUS_CFG_EN n) 0).sumxEvt (some (e.busOwner n)) 0x04 .warn 0xFF n (e.get SUMX_STATUS_BANK)
  e.busesOn.reverse.foldl (fun e n =>
    if e.busCap ≤ n then off e n
    else if e.conCap < e.listTotal (e.get SUMX_STATUS_BANK) (fun _ => false) then off e n
    else e) e

end Sys2Proof.Machine
end

