-- ==== Sys2Proof/Machine/Svl.lean ====
section
/-!
DEFINITION. SVL: training, lanes, sequence numbers, acknowledgement and retransmission of
link frames, and the block's registers (chapter "Engine Pairing, Fail-Over and Return", R502
to R506, R539, R541).
-/
namespace Sys2Proof.Machine

/-- A SVL event (R541). -/
def svlEvt (code : Nat) (sev : Sev) (w2 : Nat) : Evt := { block := 0x12, code := code, sev := sev, w2 := w2 }

/-- 3 µs and 24 µs in FABRIC cycles, rounded up (R505, R530, R535). -/
def retxCyc : Nat := 1844
def annCyc : Nat := 14746

/-- Frames up to ACK `a` are acknowledged; a RECLAIM or SWITCH command among them fixes the
role swap (R505, R535). -/
def Engine.svlAck (e : Engine) (a : Nat) : Engine :=
  let n := ((a + 1) + 4096 - (e.duo.tx.head?.map TxFrame.seq).getD (a + 1)) % 4096
  let gone := if n ≤ e.duo.tx.length then e.duo.tx.take n else []
  let e := e.updDuo fun d => { d with tx := d.tx.drop gone.length }
  gone.foldl (fun e f =>
    match f.frame with
    | .control .reclaim b => e.updDuo fun d => { d with
        plan := { d.plan with swap := some (b, false) }, reclaimAt := none }
    | .control .switch b => e.updDuo fun d => { d with plan := { d.plan with swap := some (b, true) } }
    | _ => e) e

/-- A frame sent again (R505). -/
def Engine.svlResend (e : Engine) (seq : Nat) : Engine :=
  (e.count SVL_RETX_COUNT).updDuo fun d => { d with
    tx := d.tx.map fun f => if f.seq == seq then { f with cyc := e.now, tries := f.tries + 1 } else f }

/-- A NAK answers a bad frame (R505). -/
def Engine.svlNak (e : Engine) : Engine :=
  (e.count SVL_NAK_COUNT).updDuo fun d => { d with nak := true }

/-- A frame that passes its CRC and complement: its acknowledgement is taken, and it is
delivered when it is the pair's and the next in sequence (R505, R506). -/
def Engine.svlAccept (e : Engine) (m : SvlRx) : Engine × Bool :=
  if e.on SVL_STATUS_TRAINED = false ∨ m.pairId ≠ e.cp DUO_CFG_PAIR_ID then (e, false)
  else
    let e := match m.ack with | some a => e.svlAck a | none => e
    let e := if m.nak then
        match e.duo.tx.head? with
        | some f => if f.tries < 3 then e.svlResend f.seq else e
        | none => e
      else e
    if m.seq = e.duo.rxSeq then (e.updDuo fun d => { d with rxSeq := (d.rxSeq + 1) % 4096 }, true)
    else (e.svlNak, false)

/-- SVL_FRAME_ERROR: a frame that fails its CRC or complement or arrives out of sequence is
answered with NAK; an unknown TYPE and a foreign PAIR_ID are discarded (R504 to R506). A
complement failure is a motion mismatch (R667). -/
def execSvlFrameError (k : SvlErr) (s : State) : Out :=
  s.eff fun e =>
    if e.on SVL_STATUS_TRAINED = false then e
    else match k with
      | .crc | .sequence => e.svlNak
      | .complement => e.svlNak.motion 3
      | .type | .pair => e

/-- SVL_RETRANSMIT: the oldest frame not acknowledged, 3 µs after its last send, at most
three times (R505). A NAK retransmits as it arrives. -/
def execSvlRetransmit (s : State) : Out :=
  s.eff fun e =>
    match e.duo.tx.head? with
    | some f => if f.tries < 3 ∧ f.cyc + retxCyc ≤ e.now then e.svlResend f.seq else e
    | none => e

/-- LINK_FAIL: the third retransmission was not acknowledged within 3 µs; the frames are
discarded and the link retrains (R505). -/
def execLinkFail (s : State) : Out :=
  s.eff fun e =>
    match e.duo.tx.head? with
    | some f =>
      if 3 ≤ f.tries ∧ f.cyc + retxCyc ≤ e.now then
        let e := (e.count SVL_FAILS_COUNT).put SVL_STATUS_TRAINED 0
        (e.updDuo fun d => { d with tx := [] }).raise (svlEvt 0x04 .warn f.seq)
      else e
    | none => e

/-- TRAINED: training completes on the lanes of `lanes` that are enabled; numbering starts
anew (R502). -/
def execTrained (lanes : Nat) (s : State) : Out :=
  s.eff fun e =>
    let up := lanes % 4 &&& e.get SVL_CTRL_LANE_EN
    if e.on SVL_CTRL_EN = false ∨ up = 0 then e
    else
      let e := (e.put SVL_STATUS_LANE_UP up).put SVL_STATUS_TRAINED 1
      (e.updDuo fun d => { d with tx := [], txSeq := 0, rxSeq := 0, nak := false }).raise
        (svlEvt 0x01 .note up)

/-- LANE_DOWN: the link continues on the other lane, if that one is up (R502). -/
def execLaneDown (l : Nat) (s : State) : Out :=
  s.eff fun e =>
    let f : Fld := ⟨SVL_STATUS, l % 2, 1⟩
    if e.on f then
      let e := (e.put f 0).raise (svlEvt 0x02 .warn (l % 2))
      if e.get SVL_STATUS_LANE_UP = 0 then e.put SVL_STATUS_TRAINED 0 else e
    else e

/-- LANE_UP (R541). -/
def execLaneUp (l : Nat) (s : State) : Out :=
  s.eff fun e =>
    let f : Fld := ⟨SVL_STATUS, l % 2, 1⟩
    if e.on SVL_CTRL_EN = false ∨ (e.get SVL_CTRL_LANE_EN).testBit (l % 2) = false ∨ e.on f = true then e
    else (e.put f 1).raise (svlEvt 0x03 .note (l % 2))

/-- CFG_REFUSED. -/
def Engine.duoRefuse (e : Engine) (by_ : Sender) (off : Nat) : Engine :=
  e.raise (duoEvt 0x0E .warn by_.hm off 0)

/-- A write of a SVL register, by the control core only (R539). -/
def Engine.svlRegWrite (e : Engine) (by_ : Sender) (off : Nat) (v : Word) : Engine :=
  if by_.isCC = false then e.duoRefuse by_ off
  else if off = 0 then
    let e := e.wr SVL_CTRL (v &&& 7#32)
    let up := e.get SVL_STATUS_LANE_UP &&& (if bitOf v 0 then bitsOf v 1 2 else 0)
    let e := e.put SVL_STATUS_LANE_UP up
    if up = 0 then (e.put SVL_STATUS_TRAINED 0).updDuo fun d => { d with tx := [] } else e
  else if off = 0x14 then e.wr SVL_EVT_STATUS (e.rd SVL_EVT_STATUS &&& ~~~ v)
  else e

end Sys2Proof.Machine
end

