-- ==== Sys2Proof/Machine/Sys.lean ====
section
/-!
DEFINITION. SYS: tick configuration, start and stop, the engine sample count and
its capture, the firmware event ring and the keyed software reset request
(chapter "The Engine, the Tick and the Map"). What a tick start does to every
block is in Machine/Tick.lean.
-/
namespace Sys2Proof.Machine

/-- A SYS event (R45). -/
def sysEvt (code : Nat) (sev : Sev) (hm w2 w3 : Nat) : Evt :=
  { block := 0x00, code := code, sev := sev, hm := hm, w2 := w2, w3 := w3 }

/-- A write of TICK_CFG as far as LEN and RATE go: taken only while the tick is
stopped and never with LEN 6 or 7; a write that would change them otherwise is
refused with TICK_CFG_REJECTED (R19, Corners "Tick configuration written while
running"). -/
def Engine.tickCfgWrite (e : Engine) (by_ : Sender) (v : Word) : Engine :=
  let len := bitsOf v 0 3
  let rate := bitsOf v 4 1
  if len = e.get TICK_CFG_LEN ∧ rate = e.get TICK_CFG_RATE then e
  else if e.stopped ∧ len < 6 then (e.put TICK_CFG_LEN len).put TICK_CFG_RATE rate
  else e.raise (sysEvt 0x02 .warn by_.hm v.toNat 0)

/-- The end of the ESC's run after a stop at G: the first multiple of 32 at or
after G + 2N (R28). -/
def stopHold (g n : Nat) : Nat := (g + 2 * n + 31) / 32 * 32

/-- Clearing RUN while the tick runs requests a stop at the next block boundary
whose ESC is a multiple of 32; a start not yet taken is withdrawn (R28). -/
def Engine.tickStopReq (e : Engine) : Engine :=
  let e := e.put TICK_CFG_RUN 0
  let t := { e.tick with startReq := false, heldRun := false }
  if e.stopped || t.stopG.isSome then { e with tick := t }
  else { e with tick := { t with stopG := some ((e.tick.esc / 32 + 1) * 32) } }

/-- TICK_STOP_REQUEST. -/
def execTickStopRequest (s : State) : Out := s.eff Engine.tickStopReq

/-- DEFERRED_TICK_START: a run request held because the PLL was not LOCKED starts
the tick in the sample period after STATE becomes LOCKED (R74). -/
def Engine.tickDeferred (e : Engine) : Engine :=
  if e.tick.heldRun ∧ e.get CLK_STATUS_STATE = 2 then
    { e with tick := { e.tick with heldRun := false, startReq := true } }
  else e

def execDeferredTickStart (s : State) : Out := s.eff Engine.tickDeferred

/-- SYS_ESC_LO_READ: the whole ESC is captured for the reader's hallmark (R26). -/
def Engine.escLoRead (e : Engine) (by_ : Sender) : Word × Engine :=
  (BitVec.ofNat 32 e.tick.esc, e.capture SYS_ESC_LO by_.hm [e.tick.esc])

def execSysEscLoRead (by_ : Sender) (s : State) : Out :=
  s.eff fun e => Engine.answer (e.escLoRead by_)

/-- What a read of SYS_ESC_HI returns: the capture of the same hallmark, else the
live ESC (R26, Corners "ESC read split across a tick boundary"). -/
def Engine.escHi (e : Engine) (hm : Nat) : Word :=
  match e.captured SYS_ESC_LO hm with
  | c :: _ => BitVec.ofNat 32 (c / 2 ^ 32)
  | [] => BitVec.ofNat 32 (e.tick.esc / 2 ^ 32)

/-- EVR_OVERFLOW: once space frees, the overflow record is written first (R40). -/
def execEvrOverflow (s : State) : Out := s.eff Engine.ringOverflow

/-- A write of SYS_EVR_BASE or SYS_EVR_LEN: a LOG2 of 1 to 5 or above 15 is
refused and the field keeps its value; a taken write resets both indices (R45). -/
def Engine.evrCfgWrite (e : Engine) (len : Bool) (v : Word) : Engine :=
  let l := bitsOf v 0 5
  if len then
    if l = 0 ∨ (6 ≤ l ∧ l ≤ 15) then
      ((e.put SYS_EVR_LEN_LOG2 l).put SYS_EVR_WR_IDX 0).put SYS_EVR_RD_IDX 0
    else e
  else ((e.put SYS_EVR_BASE_ADDR (bitsOf v 12 20)).put SYS_EVR_WR_IDX 0).put SYS_EVR_RD_IDX 0

/-- SYS_EVR_CFG_WRITE. -/
def execSysEvrCfgWrite (len : Bool) (v : Word) (s : State) : Out :=
  s.eff fun e => e.evrCfgWrite len v

/-- SYS_KEY_WRITE: 0xC0DE then 0x3F21 from one hallmark (R44). -/
def Engine.sysKeyWrite (e : Engine) (by_ : Sender) (v : Word) : Engine :=
  { e with tick := { e.tick with key := e.tick.key.write 0xC0DE 0x3F21 by_.hm e.now v } }

def execSysKeyWrite (by_ : Sender) (v : Word) (s : State) : Out :=
  s.eff fun e => e.sysKeyWrite by_ v

/-- The key of SYS_RESET is used up by the write it admits (R44). -/
def Engine.sysKeyUse (e : Engine) : Engine := { e with tick := { e.tick with key := {} } }

/-- UNMAPPED_ACCESS: the event of an access to a reserved address (R33). -/
def Engine.unmapped (e : Engine) (by_ : Sender) (a : Nat) (write : Bool) : Engine :=
  e.raise (sysEvt 0x01 .warn by_.hm a (if write then 1 else 0))

end Sys2Proof.Machine
end

