-- ==== Sys2Proof/Machine/Eqa.lean ====
section
/-!
DEFINITION. EQA: the chain table, coefficient banks, the section arithmetic, crossfades
and the accelerator's jobs (chapter "EQ Accelerator, Safe-Load and Scene Recall", R406
to R416, R427).
-/
namespace Sys2Proof.Machine

/-- An EQA event, to the tenant concerned when there is one (R429). -/
def Engine.eqaEvt (e : Engine) (owner : Option Nat) (code : Nat) (sev : Sev) (hm w2 w3 : Nat) :
    Engine :=
  let v : Evt := { block := 0x0C, code := code, sev := sev, hm := hm, w2 := w2, w3 := w3 }
  match owner with | some t => e.raiseT t v | none => e.raise v

/-! ### The chain table and the coefficient banks -/

/-- Word `i` of chain `c` (R406). -/
def chainAddr (c i : Nat) : Nat := 0x502F0000 + 32 * c + 4 * i

/-- Coefficient word `w` of bank `k`: five to a section (R407). -/
def coefAddr (k w : Nat) : Nat := 0x50200000 + 0x78000 * k + 4 * w

/-- Fields of a chain's CFG word (R406). -/
def chSec (cfg : Word) : Nat := bitsOf cfg 0 15
def chLen (cfg : Word) : Nat := bitsOf cfg 16 5 + 1
def chEn (cfg : Word) : Bool := bitOf cfg 24

/-- The tenants that own chain `c` and section `s` (R408). -/
def Engine.chainOwner (e : Engine) (c : Nat) : Option Nat :=
  (List.range 16).find? fun t =>
    let b := e.cp (EQA_CRANGE_BASE t)
    decide (16 * b ≤ c ∧ c < 16 * (b + e.cp (EQA_CRANGE_COUNT t)))
def Engine.secOwner (e : Engine) (s : Nat) : Option Nat :=
  (List.range 16).find? fun t =>
    let b := e.cp (EQA_SRANGE_BASE t)
    decide (16 * b ≤ s ∧ s < 16 * (b + e.cp (EQA_SRANGE_COUNT t)))

/-- A chain's active bank (R408). -/
def chBank (c : Nat) : Fld := ⟨EQA_BANK 0 + 4 * (c / 32), c % 32, 1⟩

/-- Enabled chains. -/
def Engine.chainsOn (e : Engine) : List Nat :=
  (e.listedIdx (chainAddr 0 0) 32 2048).filter fun c => chEn (e.rd (chainAddr c 0))

/-- The sections of a list of chains. -/
def Engine.sections (e : Engine) (l : List Nat) : Nat := (l.map fun c => chLen (e.rd (chainAddr c 0))).sum

/-- The section capacity of the rate (R41). -/
def Engine.secCap (e : Engine) : Nat := if e.on TICK_CFG_RATE then 12288 else 24576

/-- The enabled chain that uses section `s`. -/
def Engine.secUser (e : Engine) (s : Nat) : Option Nat :=
  e.chainsOn.find? fun c =>
    let w := e.rd (chainAddr c 0)
    decide (chSec w ≤ s ∧ s < chSec w + chLen w)

/-- The coefficient words of a chain with CFG `cfg` in bank `k`. -/
def Engine.coefs (e : Engine) (k : Nat) (cfg : Word) : List Word :=
  (List.range (5 * chLen cfg)).map fun i => e.rd (coefAddr k (5 * chSec cfg + i))

/-- CHK of bank `k` matches (R407). -/
def Engine.chkOk (e : Engine) (c k : Nat) : Bool :=
  e.rd (chainAddr c (3 + k)) == ~~~ ((e.coefs k (e.rd (chainAddr c 0))).foldl (· ^^^ ·) 0#32)

/-! ### Writes -/

def Engine.eqaChain (e : Engine) (c : Nat) : ChainSt := Tbl.get {} e.eqa.chain c

def Engine.updChain (e : Engine) (c : Nat) (f : ChainSt → ChainSt) : Engine :=
  e.updEqa fun x => { x with chain := Tbl.set {} x.chain c (f (Tbl.get {} x.chain c)) }

/-- A change of chain `c` from ESC `s` on (R29). -/
def Engine.chainChange (e : Engine) (c s : Nat) (g : ChainChg) : Engine :=
  e.updChain c fun x => { x with chg := insAt s g x.chg }

/-- A field that the table of R406 marks zero, or does not list, is not zero. -/
def chainZero (i : Nat) (v : Word) : Bool :=
  match i with
  | 0 => v &&& 0x00E08000#32 == 0#32
  | 1 => v &&& 0xFFFF000E#32 == 0#32
  | 2 => v &&& 0xFC00FC00#32 == 0#32
  | 3 | 4 => true
  | _ => v == 0#32

/-- Why a write of word `i` of chain `c` is refused (R414, R429): 1 FIELD, 2 RANGE, 3
OVERLAP, 4 CAPACITY, 5 ARMED. Ranges bind a chain in use. -/
def Engine.chainRefusal (e : Engine) (c i : Nat) (v : Word) : Option Nat :=
  let w (k : Nat) : Word := if k = i then v else e.rd (chainAddr c k)
  let owner := e.chainOwner c
  let cfg := w 0
  let others := e.chainsOn.filter (· != c)
  let inScope := (e.grpFind 1 fun g => (e.grp g).chains.contains c).isSome
  let overlap := others.any fun o =>
    let u := e.rd (chainAddr o 0)
    decide (chSec cfg < chSec u + chLen u ∧ chSec u < chSec cfg + chLen cfg)
  let inRange := (List.range (chLen cfg)).all fun k => e.secOwner (chSec cfg + k) == owner
  if chainZero i v = false then some 1
  else if inScope then some 5
  else if chEn cfg = false then none
  else if inRange = false then some 2
  else if bitOf (w 1) 0 ∧ owner ≠ some (e.busOwner (bitsOf (w 1) 8 8)) then some 2
  else if overlap then some 3
  else if e.secCap < e.sections others + chLen cfg then some 4
  else none

/-- A write of word `i` of chain `c` (R408, R414). -/
def Engine.chainWrite (e : Engine) (by_ : Sender) (c i : Nat) (v : Word) : Engine :=
  let a := chainAddr c i
  let owner := e.chainOwner c
  let may := by_.isCC || (match owner with | some t => by_.isTenant t | none => false)
  if may = false then e.ownFault by_ a true
  else match e.chainRefusal c i v with
    | some r => e.eqaEvt owner 0x02 .warn by_.hm c r
    | none =>
      let e := ((e.wr a v).keepCopy a).quarLift (chainAddr c 0) by_.hm owner
      e.chainChange c e.bStarEsc
        (.entry (e.rd (chainAddr c 0)) (e.rd (chainAddr c 1)) (e.rd (chainAddr c 2)))

/-- CHAIN_WRITE. -/
def execChainWrite (by_ : Sender) (c i : Nat) (v : Word) (s : State) : Out :=
  s.eff fun e => e.rowWrite by_ [(chainAddr (c % 2048) (i % 8), v)] fun e =>
    e.chainWrite by_ (c % 2048) (i % 8) v

/-- A write of coefficient word `w` of bank `k` (R408, R420). -/
def Engine.coefWrite (e : Engine) (by_ : Sender) (k w : Nat) (v : Word) : Engine :=
  let a := coefAddr k w
  let owner := e.secOwner (w / 5)
  let may := by_.isCC || (match owner with | some t => by_.isTenant t | none => false)
  if may = false then e.ownFault by_ a true
  else match e.secUser (w / 5) with
    | none => (e.wr a v).keepCopy a
    | some c =>
      if e.get (chBank c) = k then e.eqaEvt owner 0x03 .warn by_.hm a 0
      else match e.armedChain c with
        | some g => e.writeArmed by_ a g
        | none => (e.wr a v).keepCopy a

/-- COEF_WRITE. -/
def execCoefWrite (by_ : Sender) (k w : Nat) (v : Word) (s : State) : Out :=
  s.eff fun e => e.rowWrite by_ [(coefAddr (k % 2) (w % 122880), v)] fun e =>
    e.coefWrite by_ (k % 2) (w % 122880) v

/-- CFG_REFUSED (R427). -/
def Engine.eqaRefuse (e : Engine) (by_ : Sender) (off : Nat) : Engine :=
  e.eqaEvt (senderTenant by_) 0x05 .warn by_.hm off 0

/-- A write of EQA_CLEAR by the chain's owner or the control core: its states are cleared
at sample 0 of b* (R414). -/
def Engine.eqaClear (e : Engine) (by_ : Sender) (v : Word) : Engine :=
  let c := bitsOf v 0 11
  if by_.isCC || (match e.chainOwner c with | some t => by_.isTenant t | none => false) then
    e.chainChange c e.bStarEsc .clear
  else e.eqaRefuse by_ 0x010

/-- EQA_CLEAR. -/
def execEqaClear (by_ : Sender) (v : Word) (s : State) : Out :=
  s.eff fun e => e.rowWrite by_ [(EQA_CLEAR, v)] fun e =>
    e.eqaClear by_ v

/-- SAFE flips the bank of chain `c` at ESC `s` (R415, R422); a new bank that passes CHK
lifts a quarantine, the output fading in over N samples (R672). -/
def Engine.chainFlip (e : Engine) (c s : Nat) : Engine :=
  let e := (e.put (chBank c) (1 - e.get (chBank c))).chainChange c s .swap
  if e.isQuar (chainAddr c 0) ∧ e.chkOk c (e.get (chBank c)) = true then
    (e.quarLift (chainAddr c 0) 0xFF (e.chainOwner c)).updChain c fun x => { x with
      fade := x.fade.retarget one20 s e.nSamp }
  else e

/-- The EQA_CRANGE or EQA_SRANGE pair of tenant `t` takes effect (R427): refused when it
overlaps another range, passes the table, or leaves out an enabled chain or one of its
sections. -/
def Engine.eqaRangeSet (e : Engine) (by_ : Sender) (sec : Bool) (t : Nat) (v : Word) : Engine :=
  let v := v &&& (if sec then 0x0FFF07FF#32 else 0x00FF007F#32)
  let a (u : Nat) : Nat := if sec then EQA_SRANGE u else EQA_CRANGE u
  let rng (w : Word) : Nat × Nat :=
    if sec then (bitsOf w 0 11, bitsOf w 16 12) else (bitsOf w 0 7, bitsOf w 16 8)
  let (b, n) := rng v
  let max := if sec then 1536 else 128
  let overlap := (List.range 16).any fun u =>
    let (bu, nu) := rng (e.cpVal (a u))
    u != t && decide (n ≠ 0 ∧ nu ≠ 0 ∧ b < bu + nu ∧ bu < b + n)
  let inNew (i : Nat) : Bool := decide (16 * b ≤ i ∧ i < 16 * (b + n))
  let left := e.chainsOn.any fun c =>
    e.chainOwner c == some t &&
      (if sec then
        let w := e.rd (chainAddr c 0)
        !inNew (chSec w) || !inNew (chSec w + chLen w - 1)
      else !inNew c)
  if by_.isCC = false ∨ overlap = true ∨ max < b + n ∨ left = true then
    e.eqaRefuse by_ (a t - 0x400C0000)
  else e.wrCp (a t) v

/-- A write of an EQA register that is not a pair (R427). -/
def Engine.eqaRegWrite (e : Engine) (by_ : Sender) (off : Nat) (v : Word) : Engine :=
  let a := 0x400C0000 + off
  if off = 0x000 then e.wr a (v &&& 1#32)
  else if off = 0x004 then e.wr a (e.rd a &&& ~~~ v)
  else if off = 0x010 then e.eqaClear by_ v
  else if 0x500 ≤ off ∧ off < 0x600 then e.wr a (e.rd a &&& ~~~ v)
  else e

/-- EQA_STATUS (R427). -/
def Engine.eqaStatus (e : Engine) : Word :=
  let xf := e.eqa.chain.any fun p =>
    match p.2.xf with | some (s, l) => decide (e.tick.esc < s + l) | none => false
  BitVec.ofNat 32 (e.sections e.chainsOn % 2 ^ 15 + 2 ^ 16 * xf.toNat)

/-- The checks of RUN: chains are disabled from the highest down until the sections fit
the rate (R42). -/
def Engine.eqaCapacity (e : Engine) : Engine :=
  e.chainsOn.reverse.foldl (fun e c =>
    if e.secCap < e.sections e.chainsOn then
      let a := chainAddr c 0
      let w := setBits (e.rd a) 24 1 0
      let e := ((e.wr a w).keepCopy a).eqaEvt (e.chainOwner c) 0x02 .warn 0xFF c 4
      e.chainChange c e.bStarEsc (.entry w (e.rd (chainAddr c 1)) (e.rd (chainAddr c 2)))
    else e) e

/-! ### Sections -/

/-- A value in reduced precision: held inside s.31 with bits [7:0] cleared (R413). -/
def reduce31 (v : Int) : Int := (clip31 v).fdiv 256 * 256

/-- The value of 40 bits in two's complement. -/
def wrap40 (v : Int) : Int := (BitVec.ofInt 40 v).toInt

/-- One section on one sample (R409, R413): the next states, y, and whether it saturated. -/
def secStep (st : SecSt) (c : List Int) (trn saten red : Bool) (x : Int) : SecSt × Int × Bool :=
  let r (v : Int) : Int := if red then reduce31 v else v
  let k (i : Nat) : Int := let v := c.getD i 0; if red then v.fdiv 256 * 256 else v
  let acc := k 0 * r x + k 1 * r st.x1 + k 2 * r st.x2 - k 3 * r st.y1 - k 4 * r st.y2
  let y := if trn || red then acc.fdiv (2 ^ 30) else rndShift acc 30
  let v := if saten then clip39 y else wrap40 y
  ({ x1 := x, x2 := st.x1, y1 := v, y2 := st.y1 }, v, saten && v != y)

/-- The sections of a chain on one sample, from section `i` on. -/
def chainRun (trn saten red : Bool) : Nat → Nat → Tbl SecSt → List Int → Int → Bool →
    Tbl SecSt × Int × Bool
  | 0, _, st, _, x, sat => (st, x, sat)
  | n + 1, i, st, c, x, sat =>
    let (s, y, t) := secStep (Tbl.get {} st i) c trn saten red x
    chainRun trn saten red n (i + 1) (Tbl.set {} st i s) (c.drop 5) y (sat || t)

/-- Coefficients as values (s1.30). -/
def coefVals (l : List Word) : List Int := l.map (·.toInt)

/-- A change applied to a chain (R414 to R416). -/
def Engine.chainApply (e : Engine) (x : ChainSt) (s : Nat) : ChainChg → ChainSt
  | .entry cfg io buf =>
    let clear := chEn cfg != chEn x.cfg || chSec cfg != chSec x.cfg || chLen cfg != chLen x.cfg
    let x := { x with cfg := cfg, io := io, buf := buf,
                      fade := x.fade.retarget one20 s (if x.fade.to_ = one20 then 1 else e.nSamp) }
    if clear then { x with st := [], xf := none, old := [], oldC := [] } else x
  | .clear => { x with st := [], old := [] }
  | .swap =>
    let x' := { x with bank := 1 - x.bank }
    if bitOf x.cfg 27 then
      { x' with xf := some (s, 64 * (bitsOf x.cfg 28 4 + 1)), old := x.st,
                oldC := coefVals (e.coefs x.bank x.cfg) }
    else { x' with xf := none, old := [], oldC := [] }

/-- The changes due at or before ESC `s` applied. -/
def Engine.chainDue (e : Engine) (x : ChainSt) (s : Nat) : ChainSt :=
  let x := (x.chg.filter fun p => p.1 ≤ s).foldl (fun x p => e.chainApply x p.1 p.2) x
  { x with chg := x.chg.filter fun p => s < p.1 }

/-- The output format of a chain: s8.31 for a bus buffer, else s.31 (R410, R416). -/
def chainClip (bus : Bool) (v : Int) : Int := if bus then clip39 v else clip31 v

/-- One sample of a chain at ESC `s` (R409 to R416, R672): the chain, its output and
whether it saturated. -/
def Engine.chainStep (e : Engine) (x : ChainSt) (red : Bool) (s : Nat) (v : Int) :
    ChainSt × Int × Bool :=
  let x := e.chainDue x s
  let bus := bitOf x.io 0
  let trn := bitOf x.cfg 25
  let saten := bitOf x.cfg 26
  let n := chLen x.cfg
  let (st, y, sat) := chainRun trn saten red n 0 x.st (coefVals (e.coefs x.bank x.cfg)) v false
  let x := { x with st := st }
  let (x, y, sat) := match x.xf with
    | some (k0, len) =>
      let f := planish len (s - k0)
      if f = one20 then ({ x with xf := none, old := [], oldC := [] }, y, sat)
      else
        let (old, yo, so) := chainRun trn saten red n 0 x.old x.oldC v false
        ({ x with old := old },
         chainClip bus (chainClip bus (rndShift (y * f) 20)
           + chainClip bus (rndShift (yo * (one20 - f)) 20)), sat || so)
    | none => (x, y, sat)
  let g := x.fade.at s
  let y := if g = one20 then y else rndShift (y * g) 20
  if bus then (x, y, sat)
  else if saten then (x, clip31 y, sat || clip31 y != y)
  else (x, (wordOfInt y).toInt, sat)

/-- A chain over the samples of a block from ESC `s`. -/
def Engine.chainBlock (e : Engine) (x : ChainSt) (red : Bool) : Nat → List Int → ChainSt × List Int × Bool
  | _, [] => (x, [], false)
  | s, v :: vs =>
    let (x, y, a) := e.chainStep x red s v
    let (x, ys, b) := e.chainBlock x red (s + 1) vs
    (x, y :: ys, a || b)

/-! ### Jobs -/

/-- The chain's coefficients are checked against CHK of the active bank as a job starts;
on a mismatch the working copies are written back (R667, R668). -/
def Engine.chainCheck (e : Engine) (c : Nat) : Engine :=
  let k := e.get (chBank c)
  if e.chkOk c k then e
  else
    let v := e.rd (chainAddr c (3 + k))
    let w := e.rd (chainAddr c 0)
    let as := chainAddr c (3 + k) :: (List.range (5 * chLen w)).map fun i => coefAddr k (5 * chSec w + i)
    if as.any e.assay.badHold.contains then e.holdLost (chainAddr c 0)
    else
      (as.foldl (fun e a => e.wr a (Tbl.getF resetWord e.assay.hold a)) e).held (chainAddr c 0) v
        (e.chainOwner c)

/-- SAT and CHAIN_SAT, once per episode (R409, R429). -/
def Engine.chainSat (e : Engine) (c : Nat) (sat : Bool) : Engine :=
  if sat then
    let e := e.put ⟨EQA_SAT 0 + 4 * (c / 32), c % 32, 1⟩ 1
    if e.eqa.satEp.contains c then e
    else (e.updEqa fun x => { x with satEp := x.satEp ++ [c] }).eqaEvt (e.chainOwner c) 0x04 .warn 0xFF c 0
  else e.updEqa fun x => { x with satEp := x.satEp.filter (· != c) }

/-- Chain `c` on block `b` (R410). -/
def Engine.chainProcess (e : Engine) (c b : Nat) (red : Bool) : Engine :=
  let e := e.chainCheck c
  let n := e.nSamp
  let x := e.chainDue (e.eqaChain c) (b * n)
  let bus := bitOf x.io 0
  let core := bitsOf x.io 4 4
  let k := bitsOf x.io 8 8
  let xs := (List.range n).map fun j =>
    if bus then (if Tbl.get 0 e.sumx.bufBlk k = b + 1 then Tbl.get 0 e.sumx.buf (32 * k + j) else 0)
    else (e.ldW (pathAddr core (bitsOf x.buf 0 10) b j)).toInt
  let (x, ys, sat) := e.chainBlock x red (b * n) xs
  let e := e.updChain c fun _ => x
  let e := if bus then
      e.updSumx fun s => { s with
        buf := (ys.zipIdx).foldl (fun t p => Tbl.set 0 t (32 * k + p.2) p.1) s.buf,
        bufBlk := Tbl.set 0 s.bufBlk k (b + 1) }
    else e.memWrite none (pathAddr core (bitsOf x.buf 16 10) b 0) (ys.map wordOfInt)
  e.chainSat c sat

/-- Why the task's next chain faults it (R411, R412, R429): 1 NOT_OWNED, 2 DISABLED, 3
MISMAP. -/
def Engine.chainFault (e : Engine) (c b : Nat) (t : Option Nat) : Option Nat :=
  let x := e.chainDue (e.eqaChain c) (b * e.nSamp)
  if e.chainOwner c ≠ t then some 1
  else if chEn x.cfg = false then some 2
  else if bitOf x.io 0 then (if t = some (e.busOwner (bitsOf x.io 8 8)) then none else some 1)
  else if t = some (e.coreTenant (bitsOf x.io 4 4)) then none else some 3

/-- The chains of an EQA task in order (R412). -/
def eqaSteps (entry : Word) : List Nat :=
  let lo := bitsOf entry 0 11
  (List.range (bitsOf entry 16 11 + 1 - lo)).map (· + lo)

/-- EQA_CHAIN_JOB: the next chain of the task EQA runs (R411 to R413). -/
def Engine.eqaJob (e : Engine) : Engine :=
  match Tbl.get none e.sched.accel 1 with
  | none => e
  | some d =>
    let m := e.img d
    let k := Tbl.get 0 e.sched.step 1
    match (eqaSteps (m.getD 0 0#32))[k]? with
    | none => e
    | some c =>
      let b := (e.desc d).bound / e.nSamp
      match e.chainFault c b (e.descTenant d) with
      | some r => (e.eqaEvt (e.descTenant d) 0x01 .fault 0xFF d (c + 2 ^ 12 * r)).accelFault 1 r
      | none =>
        let red := decide (2 ≤ e.get ADAPT_STATUS_LEVEL) && imgShed m
        (e.chainProcess c b red).updSched fun s => { s with step := Tbl.set 0 s.step 1 (k + 1) }

def execEqaChainJob (s : State) : Out := s.eff Engine.eqaJob

/-- ACCEL_JOB_COMPLETE: a job boundary of EQA (1) or SUMX (2) passes: the task ends when
its last job is done, or with a pending cancel or miss (R296, R298). -/
def Engine.accelJobDone (e : Engine) (kind : Nat) : Engine :=
  match Tbl.get none e.sched.accel kind with
  | none => e
  | some d =>
    let m := e.img d
    let total := if kind = 1 then (eqaSteps (m.getD 0 0#32)).length else (sumxSteps (m.getD 0 0#32)).length
    e.accelEnd kind (decide (total ≤ Tbl.get 0 e.sched.step kind))

def execAccelJobComplete (kind : Nat) (s : State) : Out := s.eff fun e => e.accelJobDone kind

end Sys2Proof.Machine
end

