-- ==== Sys2Proof/Machine/Safe.lean ====
section
/-!
DEFINITION. SAFE: arming a swap group, its checks, disarming, the swap, SYNC, and the
path-parameter selectors (chapter "EQ Accelerator, Safe-Load and Scene Recall", R417 to
R428). TAQ's side of a timed arm is in Machine/Taq.lean.
-/
namespace Sys2Proof.Machine

/-- A SAFE event about group `g`, to its owner when that is a tenant (R429). -/
def Engine.safeEvt (e : Engine) (g code : Nat) (sev : Sev) (hm w3 : Nat) : Engine :=
  let t := e.cp (SAFE_GRP_CFG_OWNER g)
  let v : Evt := { block := 0x0D, code := code, sev := sev, hm := hm, w2 := g, w3 := w3 }
  if t < 16 then e.raiseT t v else e.raise v

/-- ARM_REFUSED with its reason of R419. -/
def Engine.armRefuse (e : Engine) (g hm reason : Nat) : Engine := e.safeEvt g 0x02 .warn hm reason

/-- The state of group `g` set; TIMED reads 0 in IDLE. -/
def Engine.setGrpState (e : Engine) (g st : Nat) : Engine :=
  let e := e.put (SAFE_GRP_STATE_STATE g) st
  if st = 0 then (e.put (SAFE_GRP_STATE_TIMED g) 0).updGrp g fun _ => {} else e

/-- The hallmarks that may arm or disarm group `g` (R418). -/
def Engine.safeMay (e : Engine) (by_ : Sender) (g : Nat) : Bool :=
  let t := e.cp (SAFE_GRP_CFG_OWNER g)
  by_.isCC || (decide (t < 16) && by_.isTenant t)

/-- The chains in the scope of group `g`: those of its range that are enabled (R417). -/
def Engine.scopeChains (e : Engine) (g : Nat) : List Nat :=
  if e.cpOn (SAFE_GRP_CFG_EQA g) then
    e.chainsOn.filter fun c => e.get (SAFE_GRP_CHAINS_CFIRST g) ≤ c && c ≤ e.get (SAFE_GRP_CHAINS_CLAST g)
  else []

/-- Tenants whose selectors group `g` flips. -/
def Engine.scopeTenants (e : Engine) (g : Nat) : List Nat :=
  (List.range 16).filter fun t => (e.cp (SAFE_GRP_CFG_PMASK g)).testBit t

/-- The scope of group `g` is empty or outside the rules of R417 (reason 3). -/
def Engine.scopeBad (e : Engine) (g : Nat) : Bool :=
  let t := e.cp (SAFE_GRP_CFG_OWNER g)
  let r := e.cpOn (SAFE_GRP_CFG_ROUTE g) || e.cpOn (SAFE_GRP_CFG_SUMX g)
  let cs := e.scopeChains g
  let ts := e.scopeTenants g
  (!r && cs.isEmpty && ts.isEmpty)
    || (decide (t < 16) && (r || cs.any (fun c => e.chainOwner c != some t) || ts.any (· != t)))

/-- The scope of group `g` meets that of a group that is not IDLE (reason 4). -/
def Engine.scopeConflict (e : Engine) (g : Nat) : Bool :=
  (List.range 16).any fun o =>
    o != g && e.grpState o != 0 &&
      ((e.cpOn (SAFE_GRP_CFG_ROUTE g) && e.cpOn (SAFE_GRP_CFG_ROUTE o))
        || (e.cpOn (SAFE_GRP_CFG_SUMX g) && e.cpOn (SAFE_GRP_CFG_SUMX o))
        || (e.scopeChains g).any (e.grp o).chains.contains
        || (e.scopeTenants g).any (e.scopeTenants o).contains)

/-- The physical address of page `p` of parameter region `k` of tenant `t`, when an
ENGINE window with R and W translates it (R419). -/
def Engine.paramPage (e : Engine) (t k p : Nat) : Option Nat :=
  let base := (if k = 0 then e.get (SAFE_PARAM_VA0_VA t) else e.get (SAFE_PARAM_VA1_VA t)) * 4096
  let va := (base + 4096 * p) % 2 ^ 32
  match e.window t va with
  | some i => if i.r && i.w && !i.host then some (i.target va) else none
  | none => none

/-- Physical page `pa` is owned by tenant `t` under R303 and R304 (R419). -/
def Engine.paOwned (e : Engine) (t pa : Nat) : Bool :=
  match ingotOf pa with
  | some n =>
    let o := e.ingotOwner n
    o == 0x30 + t || (decide (0x10 ≤ o ∧ o < 0x20) && e.coreTenant (o - 0x10) == t)
  | none => decide (0x60000000 ≤ pa ∧ pa < 0x61000000) && e.coreTenant ((pa - 0x60000000) / 0x100000) == t

/-- Both parameter regions of tenant `t` are translated and its own (reason 5); PAGES of
0 is no region (R428). -/
def Engine.paramOk (e : Engine) (t : Nat) : Bool :=
  (List.range 2).all fun k => (List.range (e.get (SAFE_PARAM_PAGES_PAGES t))).all fun p =>
    match e.paramPage t k p with | some pa => e.paOwned t pa | none => false

/-- `pa` lies in an inactive parameter region of an ARMED or SYNCING group (R338, R420). -/
def Engine.paramArmed (e : Engine) (pa : Nat) : Bool :=
  (List.range 16).any fun t =>
    (e.armedParam t).isSome && (List.range (e.get (SAFE_PARAM_PAGES_PAGES t))).any fun p =>
      match e.paramPage t (1 - e.get (SAFE_PARAM_SEL_SEL t)) p with
      | some a => a / 4096 == pa / 4096
      | none => false

/-- The inactive entries of group `g` that fail their checks (reason 6). -/
def Engine.scopeMismatch (e : Engine) (g : Nat) : List Nat :=
  let kr := 1 - e.get ROUTE_STATUS_BANK
  let ks := 1 - e.get SUMX_STATUS_BANK
  (if e.cpOn (SAFE_GRP_CFG_ROUTE g) then
    ((e.listedIdx (patchAddr kr 0) 4 8192).map (patchAddr kr)).filter fun a => !halfOk (e.rd a)
   else [])
  ++ (if e.cpOn (SAFE_GRP_CFG_SUMX g) then
    (((e.listedIdx (conAddr ks 0 0) 8 65536).map (conAddr ks · 0)).filter fun a =>
        !halfOk (e.rd a) || !gchkOk (e.rd (a + 4)))
      ++ ((List.range 256).map (listAddr ks)).filter fun a => e.rd (a + 4) != ~~~ (e.rd a)
   else [])
  ++ ((e.grp g).chains.filter fun c => !e.chkOk c (1 - e.get (chBank c))).map (chainAddr · 0)

/-- Sections with crossfading chains of this group, of ARMED groups and of running
crossfades counted twice (reason 7). -/
def Engine.sectionsArmed (e : Engine) (g : Nat) : Nat :=
  let armed := (List.range 16).filter fun o => o != g && e.grpState o == 2
  let twice := e.chainsOn.filter fun c =>
    bitOf (e.rd (chainAddr c 0)) 27
      && ((e.grp g).chains.contains c || armed.any (fun o => (e.grp o).chains.contains c)
        || (e.eqaChain c).xf.isSome)
  e.sections e.chainsOn + e.sections twice

/-- The incomplete-bank marks in the scope of group `g`, of its inactive banks, or of both
banks (R338, R339). -/
def Engine.scopeBanks (e : Engine) (g : Nat) (both : Bool) : List Nat :=
  (if e.cpOn (SAFE_GRP_CFG_ROUTE g) then (if both then [0, 1] else [1 - e.get ROUTE_STATUS_BANK]) else [])
  ++ (if e.cpOn (SAFE_GRP_CFG_SUMX g) then (if both then [2, 3] else [3 - e.get SUMX_STATUS_BANK]) else [])
  ++ (if e.cpOn (SAFE_GRP_CFG_EQA g) then
      (if both then [4, 5] else (e.grp g).chains.map fun c => 5 - e.get (chBank c)) else [])
  ++ (e.scopeTenants g).flatMap fun t =>
      if both then [16 + 2 * t, 17 + 2 * t] else [17 + 2 * t - e.get (SAFE_PARAM_SEL_SEL t)]

/-- Reasons 1 to 4 of R419, and a quarantined group's reason ASSAY (R672). -/
def Engine.armEarly (e : Engine) (by_ : Sender) (g : Nat) : Option Nat :=
  if e.safeMay by_ g = false then some 1
  else if e.grpState g ≠ 0 then some 2
  else if e.scopeBad g then some 3
  else if e.scopeConflict g then some 4
  else if e.isQuar (SAFE_GRP_CFG g) then some 6
  else none

/-- Reasons 5 to 8 of R419. -/
def Engine.armLate (e : Engine) (g : Nat) : Option Nat :=
  if (e.scopeTenants g).any (fun t => !e.paramOk t) then some 5
  else if (e.scopeMismatch g).isEmpty = false then some 6
  else if (e.cpOn (SAFE_GRP_CFG_SUMX g) && !e.listsFit (1 - e.get SUMX_STATUS_BANK))
      || decide (e.secCap < e.sectionsArmed g) then some 7
  else if (e.scopeBanks g false).any e.safe.inc.contains then some 8
  else none

/-- An arm of group `g`, immediate or by TAQ entry `entry`: refused for reasons 1 to 4, or
the group is CHECKING (R418, R419). -/
def Engine.safeArm (e : Engine) (by_ : Sender) (g : Nat) (entry : Option Nat) : Engine × Bool :=
  match e.armEarly by_ g with
  | some r => (e.armRefuse g by_.hm r, false)
  | none =>
    let e := (e.setGrpState g 1).put (SAFE_GRP_STATE_TIMED g) entry.isSome.toNat
    let cs := e.scopeChains g
    (e.updGrp g fun _ => { chains := cs, hm := by_.hm, entry := entry }, true)

/-- The checks of group `g` end (R418, R419): whether it was CHECKING, and accepted. An
immediate arm swaps at sample 0 of b*, or of block `at_` (R422, R426). A mismatch of reason 6 is
counted by ASSAY and only refuses the arm (R667; DEDUCED, log entry 14). -/
def Engine.safeChecked (e : Engine) (g : Nat) (at_ : Option Nat) : Engine × Bool :=
  if e.grpState g ≠ 1 then (e, false)
  else
    let x := e.grp g
    match e.armLate g with
    | some r =>
      let e := if r = 6 then (e.scopeMismatch g).foldl (fun e _ => e.count ASSAY_HELD_CNT_COUNT) e else e
      ((e.armRefuse g x.hm r).setGrpState g 0, false)
    | none =>
      let s := at_.getD e.bStarEsc
      let e := (e.setGrpState g 2).updGrp g fun x => { x with at_ := if x.entry.isSome then none else some s }
      (e.safeEvt g 0x01 .note x.hm x.entry.isSome.toNat, true)

/-- DISARM of group `g`: back to IDLE while the cut-off of its swap block is ahead, else
refused with BUSY (R421). -/
def Engine.safeDisarm (e : Engine) (by_ : Sender) (g : Nat) : Engine :=
  if e.safeMay by_ g = false then e.armRefuse g by_.hm 1
  else if e.grpState g ≠ 2 ∨ (e.grp g).fired = true then e.armRefuse g by_.hm 2
  else (e.setGrpState g 0).safeEvt g 0x06 .note by_.hm 0

/-- CLRINC by the control core: the marks of the group's banks are cleared (R339, R428). -/
def Engine.safeClrinc (e : Engine) (by_ : Sender) (g : Nat) : Engine :=
  if by_.isCC then
    let bs := e.scopeBanks g true
    e.updSafe fun x => { x with inc := x.inc.filter fun b => !bs.contains b }
  else e.armRefuse g by_.hm 1

/-- The immediate arms whose swap block's cut-off passes with block `b` (R421, R422). -/
def Engine.safeCutoff (e : Engine) (b : Nat) : Engine :=
  (List.range 16).foldl (fun e g =>
    match (e.grp g).at_ with
    | some s =>
      if e.grpState g = 2 ∧ (e.grp g).entry = none ∧ s < (b + 1) * e.nSamp then
        e.updGrp g fun x => { x with fired := true }
      else e
    | none => e) e

/-- The swap of group `g` at its sample: banks, chains and selectors flip together, SWAPPED
will be raised at the guard start of its block, and without SYNC the group is IDLE (R422, R424). -/
def Engine.safeSwap (e : Engine) (g : Nat) : Engine :=
  let x := e.grp g
  match x.at_ with
  | none => e
  | some s =>
    if e.grpState g ≠ 2 ∨ x.fired = false ∨ x.sync.isSome = true then e
    else
      let e := if e.cpOn (SAFE_GRP_CFG_ROUTE g) then e.patchFlip s else e
      let e := if e.cpOn (SAFE_GRP_CFG_SUMX g) then e.conFlip s else e
      let e := x.chains.foldl (fun e c => e.chainFlip c s) e
      let e := (e.scopeTenants g).foldl (fun e t =>
        let k := 1 - e.get (SAFE_PARAM_SEL_SEL t)
        (e.put (SAFE_PARAM_SEL_SEL t) k).updSafe fun y => { y with
          sel := Tbl.set [] y.sel t (insAt s k (Tbl.get [] y.sel t)) }) e
      let e := (e.wrap (SAFE_GRP_STATE_SWAPS g)).wr (SAFE_GRP_ESC_LO g)
        (BitVec.ofNat 32 (e.pairEsc s))
      let e := e.wr (SAFE_GRP_ESC_HI g) (BitVec.ofNat 32 (e.pairEsc s / 2 ^ 32))
      let t := e.cp (SAFE_GRP_CFG_OWNER g)
      let e := e.updSafe fun y => { y with told := y.told ++ [{
        group := g, esc := s, hm := x.hm, owner := if t < 16 then some t else none }] }
      if e.cpOn (SAFE_GRP_CFG_SYNC g) then e.updGrp g fun y => { y with sync := some (s / e.nSamp) }
      else e.setGrpState g 0

/-- A swap by a TAQ entry leaves the fired actions that wait for their sample. -/
def Engine.swapGone (e : Engine) (g : Nat) : Engine :=
  e.updTaq fun x => { x with due := x.due.filter fun f => f.act != .swap g }

/-- SAFE_SWAP: a timed group's swap takes its place in the order of R143. -/
def execSafeSwap (g : Nat) (s : State) : Out :=
  s.eff fun e =>
    let g := g % 16
    if (e.grp g).entry.isSome && (e.taq.due.head?.map Fired.act != some (.swap g)) then e
    else (e.safeSwap g).swapGone g

/-- SWAPPED with the ESC of the swap sample (R422). -/
def Engine.swapTell (e : Engine) (x : SwapNote) : Engine :=
  let v : Evt := { block := 0x0D, code := 0x03, sev := .note, hm := x.hm, w2 := x.group, w3 := x.esc % 2 ^ 32 }
  match x.owner with | some t => e.raiseT t v | none => e.raise v

/-- The guard start of block `b`: its swaps are reported in their order, and SYNCING begins
(R422, R424; DEDUCED from the chapter's worked example, log entry 13). -/
def Engine.safeGuard (e : Engine) (b : Nat) : Engine :=
  let n := e.nSamp
  let l := e.safe.told.filter fun x => x.esc / n ≤ b
  let e := e.updSafe fun y => { y with told := y.told.filter fun x => decide (b < x.esc / n) }
  let e := l.foldl Engine.swapTell e
  (List.range 16).foldl (fun e g =>
    match (e.grp g).sync with
    | some k => if e.grpState g = 2 ∧ k ≤ b then e.setGrpState g 3 else e
    | none => e) e

/-- Words copied from one run of addresses to another. -/
def Engine.copyWords (e : Engine) (l : List (Nat × Nat)) : Engine :=
  l.foldl (fun e p => (e.wr p.2 (e.rd p.1)).keepCopy p.2) e

/-- SYNC_DONE: the new active banks in scope have been copied into the inactive ones and
the group is IDLE (R424). -/
def Engine.syncDone (e : Engine) (g : Nat) : Engine :=
  if e.grpState g ≠ 3 then e
  else
    let x := e.grp g
    let kr := e.get ROUTE_STATUS_BANK
    let ks := e.get SUMX_STATUS_BANK
    let e := if e.cpOn (SAFE_GRP_CFG_ROUTE g) then
        e.copyWords (((e.listedIdx (patchAddr 0 0) 4 8192 ++ e.listedIdx (patchAddr 1 0) 4 8192)).map fun d =>
          (patchAddr kr d, patchAddr (1 - kr) d))
      else e
    let e := if e.cpOn (SAFE_GRP_CFG_SUMX g) then
        let e := e.copyWords ((e.listedIdx (conAddr 0 0 0) 8 65536 ++ e.listedIdx (conAddr 1 0 0) 8 65536).flatMap
          fun c => [(conAddr ks c 0, conAddr (1 - ks) c 0), (conAddr ks c 1, conAddr (1 - ks) c 1)])
        (List.range 256).foldl (fun e n =>
          let v := e.cpVal (listAddr ks n)
          if e.cpVal (listAddr (1 - ks) n) = v then e
          else (e.wrCp (listAddr (1 - ks) n) v).listChange (1 - ks) n e.bStarEsc v) e
      else e
    let e := x.chains.foldl (fun e c =>
      let w := e.rd (chainAddr c 0)
      let k := e.get (chBank c)
      let e := e.copyWords ((List.range (5 * chLen w)).map fun i =>
        (coefAddr k (5 * chSec w + i), coefAddr (1 - k) (5 * chSec w + i)))
      e.copyWords [(chainAddr c (3 + k), chainAddr c (4 - k))]) e
    let v : Evt := { block := 0x0D, code := 0x04, sev := .note, hm := x.hm, w2 := g }
    let t := e.cp (SAFE_GRP_CFG_OWNER g)
    (if t < 16 then e.raiseT t v else e.raise v).setGrpState g 0

def execSyncDone (g : Nat) (s : State) : Out := s.eff fun e => e.syncDone (g % 16)

/-- PARAM_BANK of tenant `t` for block `b` (R425): OLD in bit 0, NEW in bit 1. -/
def Engine.paramBank (e : Engine) (t b : Nat) : Nat :=
  let l := Tbl.get [] e.safe.sel t
  let n := e.nSamp
  lastAt 0 (b * n) l + 2 * lastAt 0 (b * n + n - 1) l

/-- The SAFE_GRP_CFG pair of group `g` takes effect: control core only, in IDLE, with an
OWNER up to 16 (R428). -/
def Engine.safeCfgSet (e : Engine) (by_ : Sender) (g : Nat) (v : Word) : Engine :=
  let v := v &&& 0xFFFF171F#32
  if by_.isCC = false then e.armRefuse g by_.hm 1
  else if e.grpState g ≠ 0 then e.writeArmed by_ (SAFE_GRP_CFG g) g
  else if 16 < bitsOf v 0 5 then e.armRefuse g by_.hm 1
  else e.wrCp (SAFE_GRP_CFG g) v

/-- A write of a SAFE register that is neither a pair nor SAFE_CMD (R428). -/
def Engine.safeRegWrite (e : Engine) (by_ : Sender) (off : Nat) (v : Word) : Engine :=
  let a := 0x400D0000 + off
  if off = 0x004 then e.wr a (e.rd a &&& ~~~ v)
  else if off = 0x000 then
    if by_.isCC then e.wr a (v &&& 1#32) else e.armRefuse 0 by_.hm 1
  else if 0x100 ≤ off ∧ off < 0x200 then
    let g := (off - 0x100) / 16
    if off % 16 ≠ 8 then e
    else if by_.isCC = false then e.armRefuse g by_.hm 1
    else if e.grpState g ≠ 0 then e.writeArmed by_ a g
    else e.wr a (v &&& 0x07FF07FF#32)
  else if 0x400 ≤ off ∧ off < 0x500 then
    if by_.isCC = false then e.armRefuse 0 by_.hm 1
    else if off % 16 < 8 then e.wr a (v &&& 0xFFFFF000#32)
    else if off % 16 = 8 then e.wr a (v &&& 0xFFF#32)
    else e
  else e

/-- What no block in flight sees is dropped from the selectors' histories. -/
def Engine.safePrune (e : Engine) (b : Nat) : Engine :=
  let s := (b - 3) * e.nSamp
  e.updSafe fun x => { x with sel := x.sel.map fun p => (p.1, pruneHist s p.2) }

end Sys2Proof.Machine
end

