-- ==== Sys2Proof/Machine/Taq.lean ====
section
/-!
DEFINITION. TAQ: the timed action queue: arming, resolution, firing, cancelling, and the
hand-over of fired actions to their blocks (chapter "Network Time, Time-Stamps and Timed
Actions", R134 to R151), with SAFE's side of a timed arm (R418).
-/
namespace Sys2Proof.Machine

/-- The address of word `w` (0 TGT_LO, 1 TGT_HI, 2 PARAM, 3 CTRL) of entry `i` (R134). -/
def taqAddr (i w : Nat) : Nat := 0x50400000 + 32 * i + 8 * w

def Engine.taqEnt (e : Engine) (i : Nat) : TaqEntry := Tbl.get {} e.taq.ent i

def Engine.updTaqEnt (e : Engine) (i : Nat) (f : TaqEntry → TaqEntry) : Engine :=
  e.updTaq fun x => { x with ent := Tbl.set {} x.ent i (f (Tbl.get {} x.ent i)) }

/-- A TAQ event about entry `i`, with its owning tenant (R151). -/
def Engine.taqEvt (e : Engine) (i code : Nat) (sev : Sev) (hm w3 : Nat) : Engine :=
  e.raiseT (i / 64) { block := 0x04, code := code, sev := sev, hm := hm, w2 := i, w3 := w3 % 2 ^ 32 }

/-- Fields of the CTRL word an entry was armed with (R135). -/
def TaqEntry.action (x : TaqEntry) : Nat := bitsOf x.ctrl 0 4
def TaqEntry.byEsc (x : TaqEntry) : Bool := bitOf x.ctrl 4
def TaqEntry.notify (x : TaqEntry) : Bool := bitOf x.ctrl 5
def TaqEntry.dest (x : TaqEntry) : Nat := bitsOf x.ctrl 16 13

/-- The group of a SWAP entry. -/
def TaqEntry.group (x : TaqEntry) : Nat := bitsOf x.param 0 4

/-- Blocks by which cut-offs lead the tick (R145). -/
def Engine.cutLead (e : Engine) : Nat := if e.lockstep then e.dF else 0

/-- An armed entry is withdrawn: a SWAP entry's group goes back to IDLE (R421). -/
def Engine.taqDrop (e : Engine) (i : Nat) : Engine :=
  let x := e.taqEnt i
  let g := x.group
  if (x.state = .pending ∨ x.state = .resolved) ∧ x.action = 1 ∧ (e.grp g).entry = some i then
    let armed := e.grpState g == 2
    let e := e.setGrpState g 0
    if armed then e.safeEvt g 0x06 .note x.hm 0 else e
  else e

/-- The entry's words are checked against their holds (R667); an entry that comes into
quarantine and has not fired is CANCELLED, and its quarantine is lifted at once (R672). -/
def Engine.taqTouch (e : Engine) (i : Nat) : Engine × Bool :=
  let e := (List.range 4).foldl (fun e w => e.cpCheck (taqAddr i w) (some (i / 64))) e
  let bad := (List.range 4).filter fun w => e.isQuar (taqAddr i w)
  if bad.isEmpty then (e, true)
  else
    let e := bad.foldl (fun e w => e.quarLift (taqAddr i w) 0xFF (some (i / 64))) e
    ((e.taqDrop i).updTaqEnt i fun x => { x with state := .cancelled }, false)

/-- Entry `i` is RESOLVED to ESC `s`; the primary of a pair forwards the resolution
(R139 to R141, R145). -/
def Engine.taqResolve (e : Engine) (i s : Nat) (late : Bool) : Engine :=
  let (e, ok) := e.taqTouch i
  if ok then
    let e := e.updTaqEnt i fun x => { x with state := .resolved, esc := s, late := late }
    if e.isPrimary then
      e.svlSend (e.taqEnt i).hm (.fwdTaq i (e.pairEsc s) (s % e.nSamp))
    else e
  else e

/-- The target of a network-time entry in units of 2^-32 ns (R135). -/
def TaqEntry.target (x : TaqEntry) : Int :=
  (x.tgtHi.toNat : Int) * oneSec + (x.tgtLo.toNat : Int) * 2 ^ 32

/-- TAQ_RESOLVE of a PENDING network-time entry against b*, once its latch exists, which
in lockstep is predicted from the newest one; the standby waits for the primary's
resolution (R140, R145). -/
def Engine.taqTryNt (e : Engine) (i : Nat) : Engine :=
  let lead := e.cutLead
  let b := e.bStar
  if e.stopped ∨ e.isStandby ∨ e.time.latchBlk ≠ some (b - lead) then e
  else
    let n := e.nSamp
    let t := (e.taqEnt i).target
    let nom (j : Nat) : Int := e.nominal e.time.latch (lead * n + j)
    if nom (n - 1) < t then e
    else if oneSec ≤ (nom 0 - t) * e.fs then e.taqResolve i (b * n) true
    else match (List.range n).find? fun j => decide (t ≤ nom j) with
      | some j => e.taqResolve i (b * n + j) false
      | none => e

/-- An ESC entry is resolved where it stands (R139); its target is a pair ESC (R507). -/
def Engine.taqEsc (e : Engine) (i : Nat) : Engine :=
  let x := e.taqEnt i
  let s := x.tgtLo.toNat + x.tgtHi.toNat * 2 ^ 32 - e.escOfs
  if e.bStarEsc ≤ s then e.taqResolve i s false else e.taqResolve i e.bStarEsc true

/-- The arm of entry `i` stands: it is resolved as far as it can be now. -/
def Engine.taqArmed (e : Engine) (i : Nat) : Engine :=
  if (e.taqEnt i).byEsc then e.taqEsc i else e.taqTryNt i

/-- GPIO pin `k` belongs to tenant `t` (R624). -/
def Engine.gpioOwned (e : Engine) (k t : Nat) : Bool :=
  e.on (PWR_GPIO_CFG_V k) && e.get (PWR_GPIO_CFG_TENANT k) == t

/-- Why the arm of an entry is refused (R137, R151): 1 ACTION, 2 HALLMARK, 4 NOT_OWNED,
6 COMPLEMENT. The control core may aim at anything. -/
def Engine.taqRefusal (e : Engine) (by_ : Sender) (i : Nat) (x : TaqEntry) : Option Nat :=
  let t := i / 64
  let cc := by_.isCC
  let other (h : Option Nat) : Bool := match h with | some h => h != by_.hm | none => false
  let a := x.action
  let mine := cc || (e.destOwner x.dest == some t)
  let src := e.srcRefusal (bitsOf x.param 0 13) (if cc then none else some t)
  let pin := bitsOf x.param 0 3
  if a = 0 ∨ 6 < a then some 1
  else if x.byEsc = false ∧ 999999999 < x.tgtLo.toNat then some 1
  else if a = 4 ∧ (5 < pin ∨ bitsOf x.param 4 2 = 3) then some 1
  else if a = 5 ∧ x.param ≠ 0#32 then some 1
  else if (a = 2 ∨ a = 3) ∧ cc = true ∧ idxRange false x.dest = none then some 1
  else if other x.hmLo || other x.hmHi || other x.hmPar then some 2
  else if a = 1 ∧ e.safeMay by_ x.group = false then some 4
  else if (a = 2 ∨ a = 3) ∧ mine = false then some 4
  else if a = 4 ∧ (cc || e.gpioOwned pin t) = false then some 4
  else if a = 6 ∧ (cc || e.descTenant (bitsOf x.param 0 12) == some t) = false then some 4
  else if a = 2 ∧ halfOk x.param = false then some 6
  else if a = 2 then src.map fun r => if r = 3 then 4 else 1
  else none

/-- An arm is refused: the entry is FREE (R137). -/
def Engine.taqRefuse (e : Engine) (i hm reason : Nat) : Engine :=
  (e.updTaqEnt i fun x => { x with state := .free, late := false }).taqEvt i 0x03 .warn hm reason

/-- The CTRL pair of entry `i` with ARM = 1 (R134, R137, R147). -/
def Engine.taqArm (e : Engine) (by_ : Sender) (i : Nat) : Engine :=
  if (e.taqEnt i).state = .resolved then e.taqEvt i 0x03 .warn by_.hm 3
  else
    let (e, ok) := (e.taqDrop i).taqTouch i
    if ok = false then e
    else
      let x := { e.taqEnt i with
        state := .free, late := false, esc := 0, ctrl := e.cpVal (taqAddr i 3),
        param := e.cpVal (taqAddr i 2), tgtLo := e.cpVal (taqAddr i 0), tgtHi := e.cpVal (taqAddr i 1) }
      let e := e.updTaqEnt i fun _ => x
      match e.taqRefusal by_ i x with
      | some r => e.taqRefuse i by_.hm r
      | none =>
        let pend (e : Engine) : Engine :=
          e.updTaqEnt i fun x => { x with state := .pending, hm := by_.hm, dma := by_.dma }
        if x.action = 1 then
          let (e, ok) := e.safeArm by_ x.group (some i)
          if ok then pend e else e.taqRefuse i by_.hm 5
        else (pend e).taqArmed i

/-- The CTRL pair of entry `i` with ARM = 0 (R146). An entry that has fired refuses the
cancel until the guard of its block's COMPUTE. -/
def Engine.taqCancel (e : Engine) (by_ : Sender) (i : Nat) : Engine :=
  let x := e.taqEnt i
  if x.state = .pending ∨ x.state = .resolved then
    (e.taqDrop i).updTaqEnt i fun x => { x with state := .cancelled }
  else if decide (x.state = .done) && (match e.tick.guardBlk with
      | some k => decide (k < x.esc / e.nSamp) | none => true) then
    e.taqEvt i 0x04 .warn by_.hm (e.pairEsc x.esc)
  else e

/-- The pair of word `w` of entry `i` takes effect (R134). -/
def Engine.taqPair (e : Engine) (by_ : Sender) (i w : Nat) (v : Word) : Engine :=
  let e := e.wrCp (taqAddr i w) v
  match w with
  | 0 => e.updTaqEnt i fun x => { x with hmLo := some by_.hm }
  | 1 => e.updTaqEnt i fun x => { x with hmHi := some by_.hm }
  | 2 => e.updTaqEnt i fun x => { x with hmPar := some by_.hm }
  | _ => if bitOf v 6 then e.taqArm by_ i else e.taqCancel by_ i

/-- A sender reaches the entries of tenant `t`: its own hallmarks and the control core. -/
def taqAdmits (by_ : Sender) (t : Nat) : Bool := by_.isCC || by_.isTenant t

/-- The CTRL pair `v` of entry `i` completed by `by_` (R134, R321). -/
def Engine.taqCtrl (e : Engine) (by_ : Sender) (i : Nat) (v : Word) : Engine :=
  if taqAdmits by_ (i / 64) then e.taqPair by_ i 3 v else e.ownFault by_ (taqAddr i 3) true

/-- TAQ_ARM: the pair with ARM set. -/
def execTaqArm (by_ : Sender) (i : Nat) (v : Word) (s : State) : Out :=
  s.eff fun e => e.rowWrite by_ [(taqAddr (i % 1024) 3, v ||| 0x40#32)] fun e =>
    e.taqCtrl by_ (i % 1024) (v ||| 0x40#32)

/-- TAQ_CANCEL: the pair with ARM clear. -/
def execTaqCancel (by_ : Sender) (i : Nat) (v : Word) (s : State) : Out :=
  s.eff fun e => e.rowWrite by_ [(taqAddr (i % 1024) 3, v &&& 0xFFFFFFBF#32)] fun e =>
    e.taqCtrl by_ (i % 1024) (v &&& 0xFFFFFFBF#32)

/-- In lockstep the standby refuses the SAFE_CMD writes of its own side (R426). -/
def Engine.safeOwnSide (e : Engine) (by_ : Sender) (g : Nat) (f : Engine → Engine) : Engine :=
  if e.isStandby ∧ hmOrigin by_.hm ≠ 3 then e.armRefuse g by_.hm 1 else f e

/-- A command of SAFE_CMD that the primary of a pair forwards (R426, R518). -/
def Engine.safeForward (e : Engine) (by_ : Sender) (v : Word) (f : Engine → Engine) : Engine :=
  if by_.forwards && e.forwarding then e.forward by_ (.write SAFE_CMD v) else f e

/-- SAFE_ARM: an immediate or timed arm of group `g`; a refused timed arm leaves its entry
FREE (R137, R418). The primary forwards an arm once it is accepted (R426). -/
def execSafeArm (by_ : Sender) (g : Nat) (s : State) : Out :=
  s.eff fun e => e.safeOwnSide by_ (g % 16) fun e => (e.safeArm by_ (g % 16) none).1

/-- SAFE_ARM_CHECK_DONE: the checks of group `g` end; a timed arm's entry is resolved, or
FREE with TAQ_REFUSED (R418, R419). -/
def Engine.armCheckDone (e : Engine) (g : Nat) : Engine :=
  let was := e.grpState g == 1
  let x := e.grp g
  let (e, ok) := e.safeChecked g none
  match x.entry with
  | some i =>
    if was = false then e
    else if ok then e.taqArmed i else e.taqRefuse i x.hm 5
  | none =>
    if ok ∧ e.isPrimary = true then
      let t := e.bStar + e.dF
      let e := e.updGrp g fun y => { y with at_ := some (t * e.nSamp) }
      e.forward { hm := x.hm } (.write SAFE_CMD (BitVec.ofNat 32 (0x100 + g)))
    else e

def execSafeArmCheckDone (g : Nat) (s : State) : Out := s.eff fun e => e.armCheckDone (g % 16)

/-- DISARM of group `g`: a timed group's entry is CANCELLED with it (R421). -/
def Engine.safeDisarmCmd (e : Engine) (by_ : Sender) (g : Nat) : Engine :=
  let was := e.grpState g
  let ent := (e.grp g).entry
  let e := e.safeDisarm by_ g
  match ent with
  | some i =>
    if was = 2 ∧ e.grpState g = 0 then e.updTaqEnt i fun x => { x with state := .cancelled } else e
  | none => e

/-- SAFE_DISARM. -/
def execSafeDisarm (by_ : Sender) (g : Nat) (s : State) : Out :=
  s.eff fun e => e.safeOwnSide by_ (g % 16) fun e =>
    e.safeForward by_ (BitVec.ofNat 32 (0x200 + g % 16)) fun e => e.safeDisarmCmd by_ (g % 16)

/-- SAFE_CLRINC. -/
def execSafeClrinc (by_ : Sender) (g : Nat) (s : State) : Out :=
  s.eff fun e => e.safeOwnSide by_ (g % 16) fun e =>
    e.safeForward by_ (BitVec.ofNat 32 (0x400 + g % 16)) fun e => e.safeClrinc by_ (g % 16)

/-- The commands of a SAFE_CMD word: CLRINC, DISARM and ARM act in this order (R428). -/
def Engine.safeCmdHere (e : Engine) (by_ : Sender) (v : Word) : Engine :=
  let g := bitsOf v 0 4
  let e := if bitOf v 10 then e.safeClrinc by_ g else e
  let e := if bitOf v 9 then e.safeDisarmCmd by_ g else e
  if bitOf v 8 then (e.safeArm by_ g none).1 else e

/-- A write of SAFE_CMD. -/
def Engine.safeCmd (e : Engine) (by_ : Sender) (v : Word) : Engine :=
  e.safeOwnSide by_ (bitsOf v 0 4) fun e => e.safeCmdHere by_ v

/-! ### Firing -/

/-- `a` comes before `b` in the order of R143. -/
def Fired.before (a b : Fired) : Bool := a.esc < b.esc || (a.esc == b.esc && a.entry ≤ b.entry)

def Fired.insert (f : Fired) : List Fired → List Fired
  | [] => [f]
  | g :: gs => if f.before g then f :: g :: gs else g :: Fired.insert f gs

/-- What an entry does when it fires (R136). -/
def TaqEntry.act (x : TaqEntry) : FiredAct :=
  match x.action with
  | 1 => .swap x.group
  | 2 => .patch x.dest x.param
  | 3 => .mute x.dest (bitOf x.param 16) (bitsOf x.param 0 12 + 1)
  | 6 => .task (bitsOf x.param 0 12)
  | _ => .other

/-- TAQ_FIRE: entry `i` becomes DONE and hands its action to the block concerned (R141,
R144). A GPIO action with ALIGN waits 2 × N samples more (R136). -/
def Engine.taqFire (e : Engine) (i : Nat) : Engine :=
  let (e, ok) := e.taqTouch i
  if ok = false then e
  else
    let x := e.taqEnt i
    let s := x.esc
    let e := e.updTaqEnt i fun x => { x with state := .done }
    let e := if x.notify then e.taqEvt i 0x01 .note x.hm (e.pairEsc s) else e
    let e := if x.late then (e.count TAQ_LATE_COUNT_COUNT).taqEvt i 0x02 .warn x.hm (e.pairEsc s) else e
    let f : Fired := { entry := i, esc := s, act := x.act }
    let e := e.updTaq fun q => { q with fired := q.fired ++ [f] }
    match x.action with
    | 1 => (e.updGrp x.group fun y => { y with at_ := some s, fired := true }).updTaq fun q =>
        { q with due := f.insert q.due }
    | 4 => e.updPwr fun p => { p with gpio := p.gpio ++ [{
        esc := s + (if bitOf x.param 8 then 2 * e.nSamp else 0), pin := bitsOf x.param 0 3,
        op := bitsOf x.param 4 2, taq := true }] }
    | 5 => e.updRef fun r => { r with realignDue := r.realignDue ++ [s] }
    | 6 => e.schedGate (bitsOf x.param 0 12) s i
    | _ => e.updTaq fun q => { q with due := f.insert q.due }

/-- The resolved entries of blocks up to `b` in ascending index. -/
def Engine.taqResolved (e : Engine) (b : Nat) : List Nat :=
  e.taq.ent.filterMap fun c =>
    if c.2.state = .resolved ∧ c.2.esc / e.nSamp ≤ b then some c.1 else none

/-- Blocks that are not gathered have no cut-off: the tick is stopped or draining, or a
safe stop is in progress. -/
def Engine.cutoffAt (e : Engine) : Option Nat :=
  let b := e.block + e.cutLead
  if e.stopped || e.tick.safeStop || decide (b < e.tick.cutNext) then none
  else match e.tick.stopG with
    | some g => if g ≤ e.tick.esc then none else some b
    | none => some b

/-- The cut-off of block `b`: its resolved entries fire (R141, R145), and immediate
swaps of that block can no longer be withdrawn (R421). -/
def Engine.taqCutoffOf (e : Engine) (b : Nat) : Engine :=
  let e := e.updTick fun t => { t with cutNext := b + 1 }
  let e := e.updTaq fun q => { q with fired := q.fired.filter fun f => b ≤ f.esc / e.nSamp + 8 }
  ((e.taqResolved b).foldl Engine.taqFire e).safeCutoff b

/-- TAQ_CUTOFF: the cut-off of b*. -/
def Engine.taqCutoff (e : Engine) : Engine :=
  match e.cutoffAt with
  | none => e
  | some b => e.taqCutoffOf b

/-- One fired action applied at its sample (R136, R143). -/
def Engine.firedApply (e : Engine) (f : Fired) : Engine :=
  let e := e.updTaq fun q => { q with due := q.due.filter (· != f) }
  match f.act with
  | .swap g => e.safeSwap g
  | .patch d v => e.patchTimed d f.esc v
  | .mute d m len => e.destChange d f.esc (.pmute m len)
  | _ => e

/-- Every action of blocks up to `b` that still waits: immediate swaps, which stand at
sample 0, then fired actions in the order of R143. -/
def Engine.taqDrain (e : Engine) (b : Nat) : Engine :=
  let n := e.nSamp
  let e := (List.range 16).foldl (fun e g =>
    match (e.grp g).at_ with
    | some s => if (e.grp g).entry = none ∧ s / n ≤ b then e.safeSwap g else e
    | none => e) e
  (e.taq.due.filter fun f => f.esc / n ≤ b).foldl Engine.firedApply e

/-- TIMED_PATCH_APPLY: the next fired action, when it is a PATCH. -/
def execTimedPatchApply (s : State) : Out :=
  s.eff fun e =>
    match e.taq.due with
    | f :: _ => (match f.act with | .patch _ _ => e.firedApply f | _ => e)
    | [] => e

/-- TIMED_MUTE_START: the next fired action, when it is a MUTE. -/
def execTimedMuteStart (s : State) : Out :=
  s.eff fun e =>
    match e.taq.due with
    | f :: _ => (match f.act with | .mute _ _ _ => e.firedApply f | _ => e)
    | [] => e

/-- TAQ_CUTOFF. -/
def execTaqCutoff (s : State) : Out := s.eff Engine.taqCutoff

/-- The latch of a block: PENDING network-time entries in ascending index (R140); an entry
whose group is still CHECKING waits. -/
def Engine.taqLatch (e : Engine) : Engine :=
  let l := e.taq.ent.filterMap fun c =>
    if c.2.state = .pending ∧ c.2.byEsc = false ∧ (c.2.action = 1 → e.grpState c.2.group ≠ 1)
    then some c.1 else none
  l.foldl Engine.taqTryNt e

/-- The tick has stopped at ESC `hold` (Corners "Tick stopped with entries waiting"): what
was not computed is pending again; an ESC entry before the hold is late at it. -/
def Engine.taqStop (e : Engine) (hold : Nat) : Engine :=
  e.taq.ent.foldl (fun e c =>
    if c.2.state ≠ .resolved then e
    else if c.2.byEsc = false then e.updTaqEnt c.1 fun x => { x with state := .pending, late := false }
    else if c.2.esc < hold then e.taqResolve c.1 hold true
    else e) e

/-- The split index of block `b` for a task with SGMASK `sg` and TASK entry sample `gate`
(R142, R276): the lowest j, or N when nothing concerns it. -/
def Engine.splitIndex (e : Engine) (b sg : Nat) (gate : Option Nat) : Nat :=
  let n := e.nSamp
  let js := (e.taq.fired.filter fun f => f.esc / n == b && (match f.act with
    | .swap g => sg.testBit g | _ => false)).map fun f => f.esc % n
  let js := match gate with | some s => if s / n = b then s % n :: js else js | none => js
  js.foldl min n

/-- What a read of the status words of entry `i` shows (R138, R150). -/
def Engine.taqStatus (e : Engine) (i k : Nat) : Word :=
  let x := e.taqEnt i
  let st := match x.state with
    | .free => 0 | .pending => 1 | .resolved => 2 | .done => 3 | .cancelled => 4
  match k with
  | 0 => BitVec.ofNat 32 (st + 8 * x.late.toNat + 256 * x.hm)
  | 1 => BitVec.ofNat 32 (e.pairEsc x.esc)
  | 2 => BitVec.ofNat 32 (e.pairEsc x.esc / 2 ^ 32)
  | _ => BitVec.ofNat 32 (x.esc % e.nSamp)

/-- TAQ_TENANT_STATUS of tenant `t` (R150). -/
def Engine.taqTenantStatus (e : Engine) (t : Nat) : Word :=
  let count (st : TaqState) : Nat :=
    (e.taq.ent.filter fun c => c.1 / 64 == t && decide (c.2.state = st)).length
  BitVec.ofNat 32 (count .pending + 256 * count .resolved)

end Sys2Proof.Machine
end

