-- ==== Sys2Proof/Machine/Duo.lean ====
section
/-!
DEFINITION. DUO: heartbeats, joining, forwarded items as they arrive, digests and divergence,
fail-over, return and leaving (chapter "Engine Pairing, Fail-Over and Return", R498 to R541).
Applying forwarded writes and entering lockstep, which run other blocks' writes, are in
Machine/DuoApply.lean.
-/
namespace Sys2Proof.Machine

def Engine.standbyRole (e : Engine) : Bool := e.on DUO_CTRL_ROLE

/-- The block of this engine whose first sample has pair ESC `s`. -/
def Engine.ownBlock (e : Engine) (s : Nat) : Nat := (s - e.escOfs) / e.nSamp

/-- TXEN of both ports from block `b` on (R501). -/
def Engine.setTxen (e : Engine) (b n0 n1 : Nat) : Engine :=
  let e := (e.put (NET_STATUS_TXEN 0) n0).put (NET_STATUS_TXEN 1) n1
  e.updDuo fun d => { d with txen := (d.txen ++ [(b, n0, n1)]).drop (d.txen.length - 3) }

/-- The engine is SOLO primary (R499), out of lockstep. Items that it has accepted or received
apply at their targets all the same (R519). -/
def Engine.goSolo (e : Engine) : Engine :=
  let e := (((e.put DUO_CTRL_STATE duoSolo).put DUO_CTRL_ROLE 0).put DUO_CTRL_LOCKSTEP 0).put DUO_STATUS_INSYNC 0
  (e.put DUO_STATUS_AGREE 0).updDuo fun d => { d with plan := {}, snapRegs := [], snapMem := [], reclaimAt := none }

/-- Items not applied are dropped by an engine that stops serving: it starts from a copy when it
joins again (R514). -/
def Engine.dropItems (e : Engine) : Engine :=
  let e := (e.mbx.dirs.map Prod.fst).foldl (fun e i =>
    e.updMbx fun m => { m with dirs := Tbl.set {} m.dirs i { Tbl.get {} m.dirs i with fwd := 0 } }) e
  e.updDuo fun d => { d with items := [] }

/-! ### Pages (R514, R517) -/

/-- Ingot `n` is local: owned by CC, NET, SAP, MADI or CUE (R517). -/
def Engine.localIngot (e : Engine) (n : Nat) : Bool :=
  [0x20, 0x43, 0x44, 0x45, 0x46].contains (e.ingotOwner n)

/-- Memory byte `a` is static paired state: instruction memory, or in an ingot neither marked
dynamic nor local (R514, R517). -/
def Engine.staticByte (e : Engine) (a : Nat) : Bool :=
  match ingotOf a with
  | some n =>
    let k := n - e.get DUO_DYN_BASE
    !e.localIngot n && !(decide (e.get DUO_DYN_BASE ≤ n ∧ k < 16) && (e.get DUO_DYN_INGOT).testBit k)
  | none => decide (0x60000000 ≤ a ∧ a < 0x61000000) && decide (0x40000 ≤ a % 0x100000)

/-- A copy round begins: what is written from now on shows against this. -/
def Engine.snap (e : Engine) : Engine :=
  e.updDuo fun d => { d with snapRegs := e.regs, snapMem := e.mem }

/-- The bits of a register whose access type satisfies `p`. -/
def RegRow.mask (r : RegRow) (p : Acc → Bool) : Word :=
  r.fields.foldl (fun m f => if p f.acc then m ||| BitVec.ofNat 32 ((2 ^ f.width - 1) * 2 ^ f.lo) else m) 0#32

/-- The bits of word `a` that software writes; the rest is status, which the hardware keeps. -/
def softBits (a : Nat) (w : Word) : Word :=
  match rowAt a with
  | some (r, _) => w &&& r.mask fun t => t == .rw || t == .cp
  | none => if 0x50500000 ≤ a ∧ 12 ≤ a / 4 % 16 then 0#32 else w

/-- A static page of paired state has been written since the round began. -/
def Engine.staticDirty (e : Engine) : Bool :=
  let old (a : Nat) : Word := Tbl.getF resetWord e.duo.snapRegs a
  let regs := (e.regs ++ e.duo.snapRegs).any fun c => pairedReg c.1 && softBits c.1 (e.rd c.1) != softBits c.1 (old c.1)
  let m (l : Tbl Byte) : Tbl Byte := l.filter fun c => e.staticByte c.1
  regs || decide (m e.mem ≠ m e.duo.snapMem)

/-! ### Heartbeats -/

/-- The network and link heartbeat of the tick that begins (R504, R510). -/
def Engine.heartbeatNow (e : Engine) : Heartbeat :=
  { esc := e.pairEsc e.tick.esc, state := e.duoState, role := e.get DUO_CTRL_ROLE,
    prop := e.get ADAPT_STATUS_TARGET, count := if e.standbyRole then e.duo.recvd else e.duo.sent,
    phase := sval e.tickPhaseWord, mcc := e.time.mcc - e.pairEsc e.tick.esc }

/-- JOIN_FAILED (R541). -/
def Engine.joinFailed (e : Engine) (hm reason : Nat) : Engine := e.raise (duoEvt 0x03 .warn hm reason 0)

/-- The tick phase difference is above T_s / 32 (R508). -/
def Engine.skewed (e : Engine) (phase : Int) : Bool :=
  decide (1000000000 * 2 ^ 16 < ((sval e.tickPhaseWord - phase).natAbs * (32 * e.fs) : Nat))

/-- DIVERGENCE with a group mask and the block's pair ESC: the standby goes to DIVERGED,
leaves lockstep, stops and will join again; the primary keeps its role (R519, R527). -/
def Engine.duoDiverge (e : Engine) (mask esc : Nat) : Engine :=
  let e := ((e.put DUO_DIVERGE_GROUPS mask).count DUO_COUNT_DIVERGENCES).raise (duoEvt 0x04 .fault 0xFF mask esc)
  let sb := e.standbyRole
  let e := e.setTxen (e.block + 1) (if sb then 0 else 1) (if sb then 0 else 1)
  let e := ((((e.put DUO_CTRL_STATE duoDiverged).put DUO_CTRL_LOCKSTEP 0).put DUO_STATUS_AGREE 0).put
    DUO_STATUS_INSYNC 0).updDuo fun d => { d with plan := {}, rejoin := sb }
  if sb then e.dropItems.tickStopReq else e

/-- EDGE_SKEW after 8 consecutive ticks of skew in lockstep (R508). -/
def Engine.skewTick (e : Engine) (phase : Int) : Engine :=
  if e.lockstep ∧ e.skewed phase = true then
    let n := e.duo.skewTicks + 1
    let e := e.updDuo fun d => { d with skewTicks := n }
    if n = 8 then
      let e := e.raise (duoEvt 0x0D .warn 0xFF (wordOfInt (sval e.tickPhaseWord - phase)).toNat 0)
      if e.standbyRole then
        ((((e.setTxen (e.block + 1) 0 0).put DUO_CTRL_STATE duoDiverged).put DUO_CTRL_LOCKSTEP 0).updDuo
          fun d => { d with rejoin := true, plan := {} }).dropItems.tickStopReq
      else (e.setTxen (e.block + 1) 1 1).put DUO_CTRL_STATE duoDiverged |>.put DUO_CTRL_LOCKSTEP 0
    else e
  else e.updDuo fun d => { d with skewTicks := 0 }

/-- The link heartbeat is back (R529). -/
def Engine.linkRestored (e : Engine) : Engine :=
  if e.duoState = duoLinkDown then
    let e := e.raise (duoEvt 0x07 .note 0xFF 0 0)
    if e.on DUO_STATUS_INSYNC then e.put DUO_CTRL_STATE duoPaired
    else if e.standbyRole then
      (((e.put DUO_CTRL_STATE duoDiverged).put DUO_CTRL_LOCKSTEP 0).updDuo fun d => { d with rejoin := true }).tickStopReq
    else e.goSolo
  else e

/-- A heartbeat received over the link (R508, R511, R524). A peer that has gone back to SOLO
has failed the join. -/
def Engine.heartbeat (e : Engine) (h : Heartbeat) : Engine :=
  let was := (e.duo.peer.map Heartbeat.state).getD 0
  let e := e.put DUO_STATUS_LINK_HB 1
  let e := e.updDuo fun d => { d with
    peer := some h, hbSeen := true, lostEp := false,
    peerProps := (d.peerProps ++ [(e.ownBlock h.esc, h.prop)]).drop (d.peerProps.length - 15),
    seen := { d.seen with state := h.state, phase := h.phase } }
  let e := (e.skewTick h.phase).linkRestored
  if e.standbyRole ∧ (e.duoState = duoCopy ∨ e.duoState = duoEnter) ∧ was ≠ 0 ∧ h.state = 0 then
    e.goSolo.dropItems.joinFailed 0xFF 7
  else e

/-- HEARTBEAT. -/
def execHeartbeat (m : SvlRx) (esc state role prop count : Nat) (phase mcc : Int) (s : State) : Out :=
  s.eff fun e =>
    let (e, ok) := e.svlAccept m
    if ok then e.heartbeat { esc := esc, state := state, role := role, prop := prop, count := count,
                             phase := phase, mcc := mcc } else e

/-- The pair is out of sync while the link is down (R529). -/
def Engine.syncLost (e : Engine) (missed : Nat) : Engine :=
  let e := e.put DUO_STATUS_INSYNC 0
  if e.standbyRole then (e.setTxen (e.block + 1) 0 0).raise (duoEvt 0x0C .warn 0xFF missed 0)
  else e.setTxen (e.block + 1) 1 1

/-- The link heartbeat is lost and the peer is seen on a network: a pair enters LINK_DOWN, in
which a mirrored input takes the standby out of sync (R529). -/
def Engine.pairLinkDown (e : Engine) : Engine :=
  if e.duoState = duoPaired ∧ e.on DUO_STATUS_LINK_HB = false ∧ (e.on DUO_STATUS_NET0_HB || e.on DUO_STATUS_NET1_HB) = true then
    let e := ((e.put DUO_CTRL_STATE duoLinkDown).put DUO_STATUS_AGREE 0).raise (duoEvt 0x06 .warn 0xFF 0 0)
    if (List.range 11).any fun p => e.mirrored p && (decide (p < 8 ∨ p = 10) || e.rxOn (p - 8)) then e.syncLost 0 else e
  else e

/-- LINK_HEARTBEAT_LOST: full ticks without one have passed (R511, R529). -/
def Engine.linkLost (e : Engine) : Engine :=
  if e.on DUO_STATUS_LINK_HB = false ∨ e.duo.hbAge < e.get DUO_TIMEOUT_TICKS then e
  else
    (e.put DUO_STATUS_LINK_HB 0).pairLinkDown

def execLinkHeartbeatLost (s : State) : Out := s.eff Engine.linkLost

/-- NET_HEARTBEAT_ABSENT (R511). -/
def execNetHeartbeatAbsent (s : State) : Out :=
  s.eff fun e =>
    if e.duo.nhbAge < e.get DUO_TIMEOUT_TICKS then e
    else (e.put DUO_STATUS_NET0_HB 0).put DUO_STATUS_NET1_HB 0

/-! ### Joining -/

/-- The engine enters COPY with `role` (R513). -/
def Engine.joinStart (e : Engine) (role hm : Nat) : Engine :=
  let e := ((e.put DUO_CTRL_STATE duoCopy).put DUO_CTRL_ROLE role).put DUO_STATUS_AGREE 0
  let b := e.block + 1
  let e := e.setTxen b (1 - role) (1 - role)
  let e := if role = 1 then e.dropItems else e
  (e.updDuo fun d => { d with plan := {}, rejoin := false, outOff := false, cmp := 0, digs := [], peerDigs := [] }).raise (duoEvt 0x01 .note hm 0 0)

/-- Why a join is refused (R513, R541): 7 STATE, 6 LINK, 1 ID, 2 CONFIG, 3 SKEW. -/
def Engine.joinRefusal (e : Engine) (p : JoinPeer) : Option Nat :=
  let id := e.cp DUO_CFG_PAIR_ID
  if e.stopped = false ∨ (e.duoState ≠ duoSolo ∧ e.duoState ≠ duoDiverged) then some 7
  else if e.on SVL_STATUS_TRAINED = false then some 6
  else if (p.state ≠ duoSolo ∧ p.state ≠ duoDiverged) ∨ p.running = false ∨ p.en = false then some 7
  else if id = 0 ∨ p.pairId ≠ id ∨ e.rd DUO_NHB_ADDR = 0#32 then some 1
  else if p.tick ≠ (e.rd TICK_CFG).toNat % 256 ∨ p.core ≠ (e.rd (CORE_MODE_INIT 0)).toNat
      ∨ p.ref ≠ e.get REF_STATUS_SEL then some 2
  else if e.skewed p.phase then some 3
  else none

/-- A join by this engine as standby (R513); its JOIN frame carries the ESC it holds (R515). -/
def Engine.duoJoin (e : Engine) (hm : Nat) (p : JoinPeer) : Engine :=
  let e := e.updDuo fun d => { d with seen := p }
  match e.joinRefusal p with
  | some r => e.joinFailed hm r
  | none => (e.joinStart 1 hm).svlSend hm (.control .join e.tick.esc)

/-- DUO_JOIN: by the control core, or by a diverged standby that has stopped (R513, R527). -/
def execDuoJoin (by_ : Sender) (p : JoinPeer) (s : State) : Out :=
  s.eff fun e =>
    if by_.isCC then e.duoJoin by_.hm p
    else if e.duo.rejoin && e.stopped then e.duoJoin 0xFF p
    else e.duoRefuse by_ 0

/-- JOIN: the peer is to be standby; this engine becomes the primary in COPY (R513, R514). -/
def Engine.joinAsPrimary (e : Engine) (es : Nat) : Engine :=
  if e.on DUO_CTRL_EN && !e.stopped && !e.standbyRole
      && (e.duoState == duoSolo || e.duoState == duoDiverged) then
    let e := (e.joinStart 0 0xFF).updDuo fun d => { d with peerEs := es }
    ((e.put DUO_SYNC_ROUND 1).put DUO_SYNC_KIB_LEFT 40960).snap
  else e

def execJoin (m : SvlRx) (es : Nat) (s : State) : Out :=
  s.eff fun e => let (e, ok) := e.svlAccept m; if ok then e.joinAsPrimary es else e

/-- The entry block J (R515): at least D_F ticks ahead, J × N − E_s a multiple of fs. -/
def Engine.entryBlock (e : Engine) : Nat :=
  let x := (e.block + e.dF) * e.nSamp
  (x + (((e.duo.peerEs : Int) - x) % (e.fs : Int)).toNat) / e.nSamp

/-- COPY_ROUND_END on the primary (R514): without a static page written since the round
before it, ENTER names J; the eighth round without it fails with CHURN. -/
def Engine.copyRoundEnd (e : Engine) : Engine :=
  if e.duoState ≠ duoCopy ∨ e.standbyRole = true then e
  else
    let r := e.get DUO_SYNC_ROUND
    if e.staticDirty = false then
      let j := e.entryBlock
      let e := ((e.put DUO_CTRL_STATE duoEnter).put DUO_SYNC_KIB_LEFT 0).updDuo fun d => { d with
        plan := { d.plan with join := some j }, sent := 0 }
      e.svlSend 0xFF (.control .enter (e.pairEsc (j * e.nSamp)))
    else if 8 ≤ r then e.goSolo.joinFailed 0xFF 4
    else ((e.put DUO_SYNC_ROUND (r + 1)).put DUO_SYNC_KIB_LEFT 4).snap

def execCopyRoundEnd (s : State) : Out := s.eff Engine.copyRoundEnd

/-- COPY: the standby applies copied words as they arrive (R514); in ENTER they say that the
primary has cancelled the entry (R515). -/
def Engine.copyApply (e : Engine) (a : Nat) (ws : List Word) : Engine :=
  let e := if e.duoState = duoEnter ∧ e.standbyRole = true ∧ e.lockstep = false then
      (e.put DUO_CTRL_STATE duoCopy).updDuo fun d => { d with items := [], plan := { d.plan with join := none } }
    else e
  if e.duoState ≠ duoCopy ∨ e.standbyRole = false then e
  else if 0x40000000 ≤ a ∧ a < 0x58000000 then
    ws.zipIdx.foldl (fun e q =>
      let x := a + 4 * q.2
      if pairedReg x then (e.wr x q.1).keepCopy x else e) e
  else match ingotOf a with
    | some n => if e.localIngot n then e else e.stWs a ws
    | none => if 0x60000000 ≤ a ∧ a < 0x61000000 then e.stWs a ws else e

def execCopy (m : SvlRx) (a round : Nat) (ws : List Word) (s : State) : Out :=
  s.eff fun e =>
    let (e, ok) := e.svlAccept m
    if ok then (e.copyApply a ws).put DUO_SYNC_ROUND round else e

/-- ENTER: names J to a standby in COPY, or H to one in CONVERGE (R515, R516). -/
def execEnter (m : SvlRx) (esc : Nat) (s : State) : Out :=
  s.eff fun e =>
    let (e, ok) := e.svlAccept m
    if ok = false ∨ e.standbyRole = false then e
    else if e.duoState = duoCopy then
      (e.put DUO_CTRL_STATE duoEnter).updDuo fun d => { d with
        plan := { d.plan with join := some (esc / e.nSamp) }, recvd := 0 }
    else if e.duoState = duoConverge then
      e.updDuo fun d => { d with plan := { d.plan with paired := some (e.ownBlock esc) } }
    else e

/-- PAIRED: at block H both engines enter PAIRED (R516). -/
def Engine.pairedNow (e : Engine) : Engine :=
  match e.duo.plan.paired with
  | some h =>
    if e.duoState = duoConverge ∧ h ≤ e.block then
      let e := ((e.put DUO_CTRL_STATE duoPaired).put DUO_STATUS_INSYNC 1).put DUO_STATUS_AGREE 0
      let e := if e.standbyRole then e.setTxen h 0 1 else e.setTxen h 1 0
      (e.updDuo fun d => { d with plan := { d.plan with paired := none } }).raise
        (duoEvt 0x02 .note 0xFF (e.pairEsc (h * e.nSamp) % 2 ^ 32) 0)
    else e
  | none => e

def execPaired (s : State) : Out := s.eff Engine.pairedNow

/-- JOIN_CONVERGE_TIMEOUT: no agreement within DUO_JOIN.LIMIT, in tens of ticks (R516). -/
def execJoinConvergeTimeout (s : State) : Out :=
  s.eff fun e =>
    if e.duoState = duoConverge ∧ e.get DUO_JOIN_LIMIT * 10 ≤ e.duo.convTicks then
      let sb := e.standbyRole
      let e := (e.goSolo.setTxen (e.block + 1) 1 1).joinFailed 0xFF 5
      if sb then e.dropItems.tickStopReq else e
    else e

/-! ### Forwarded items as they arrive -/

/-- The sender of a forwarded request (R348, R506): origin 3 with its tenant and privilege. -/
def fwdSender (hm : Nat) : Sender := { hm := hm / 64 % 4 * 64 + 0x30 + hm % 16 }

/-- A forwarded item has arrived for the block at pair ESC `esc`; one that comes after its
apply point is a divergence (R519). -/
def Engine.fwdArrive (e : Engine) (hm esc : Nat) (act : FwdAct) : Engine :=
  let t := match e.duo.plan.join with
    | some _ => if e.lockstep then e.ownBlock esc else esc / e.nSamp
    | none => e.ownBlock esc
  let e := e.updDuo fun d => { d with recvd := d.recvd + 1 }
  if e.lockstep ∧ t < e.bStar then e.duoDiverge 0 esc
  else e.updDuo fun d => { d with items := d.items ++ [{ blk := t, by_ := fwdSender hm, act := act }] }

/-- FWD_WRITE. -/
def execFwdWrite (m : SvlRx) (a : Nat) (v : Word) (esc : Nat) (s : State) : Out :=
  s.eff fun e =>
    let (e, ok) := e.svlAccept m
    if ok && e.standbyRole then e.fwdArrive m.hm esc (.write a v) else e

/-- FWD_MSG, with all of a message's words. -/
def execFwdMsg (m : SvlRx) (t : Nat) (ws : List Word) (esc : Nat) (s : State) : Out :=
  s.eff fun e =>
    let (e, ok) := e.svlAccept m
    if ok && e.standbyRole then e.fwdArrive m.hm esc (.msg (t % 16) ws) else e

/-- FWD_TAQ: the primary's resolution of entry `i` (R145). -/
def execFwdTaq (m : SvlRx) (i esc : Nat) (s : State) : Out :=
  s.eff fun e =>
    let (e, ok) := e.svlAccept m
    let i := i % 1024
    let st := (e.taqEnt i).state
    if ok && e.standbyRole && (decide (st = .pending) || decide (st = .resolved)) then
      let e := e.updDuo fun d => { d with recvd := d.recvd + 1 }
      e.taqResolve i (esc - e.escOfs) (decide ((e.taqEnt i).byEsc = true ∧ esc
        ≠ (e.taqEnt i).tgtLo.toNat + (e.taqEnt i).tgtHi.toNat * 2 ^ 32))
    else e

/-- MIRROR: a mirrored input's samples of block `esc`, gathered as the block after it (R523). -/
def execMirror (m : SvlRx) (port first esc : Nat) (ws : List Word) (s : State) : Out :=
  s.eff fun e =>
    let (e, ok) := e.svlAccept m
    if ok && e.lockstep then
      let b := e.ownBlock esc
      let n := e.nSamp
      let key := port % 16 * 64
      let tbl := (List.range (ws.length / n)).foldl (fun t i =>
        Tbl.set (0, []) t (key + first + i) (b + 2, (ws.drop (i * n)).take n)) e.duo.mirror
      e.updDuo fun d => { d with mirror := tbl }
    else e

/-- HOSTDATA: bytes the primary's DMA channel read (R521). -/
def execHostdata (m : SvlRx) (k burst : Nat) (ws : List Word) (s : State) : Out :=
  s.eff fun e =>
    let (e, ok) := e.svlAccept m
    if ok && e.isStandby then
      let h := Tbl.get [] e.duo.host (k % 32) ++ [(burst, ws)]
      e.updDuo fun d => { d with host := Tbl.set [] d.host (k % 32) h }
    else e

/-! ### Digests -/

/-- CRC-64 with the polynomial of ECMA-182, one byte (R526). -/
def crcBits : Nat → Nat → Nat
  | 0, c => c
  | k + 1, c => crcBits k (if c.testBit 63 then (c * 2 % 2 ^ 64) ^^^ 0x42F0E1EBA9EA3693 else c * 2)
def crc64 (bytes : List Nat) : Nat :=
  bytes.foldl (fun c b => crcBits 8 (c ^^^ (b % 256 * 2 ^ 56))) (2 ^ 64 - 1) ^^^ (2 ^ 64 - 1)

/-- A word, least significant byte first. -/
def leBytes (w : Word) : List Nat := (List.range 4).map fun k => bitsOf w (8 * k) 8

/-- The words of destinations `lo` to `lo + n - 1` that exist at the rate, channel by channel. -/
def Engine.destWords (e : Engine) (b lo n : Nat) : List Nat :=
  (List.range n).flatMap fun i =>
    if e.idxIn false (lo + i) then
      (List.range e.nSamp).flatMap fun j => leBytes (e.outSmp b (lo + i) j)
    else []

/-- The words of sources `lo` to `lo + n - 1` as taken for block `b`. -/
def Engine.srcWords (e : Engine) (b lo n : Nat) : List Nat :=
  (List.range n).flatMap fun i =>
    if e.idxIn true (lo + i) then
      (List.range e.nSamp).flatMap fun j => leBytes (wordOfInt (e.smp b (lo + i) j))
    else []

/-- Bits as bytes, least significant first. -/
def packBits : List Bool → List Nat
  | a :: b :: c :: d :: p :: q :: r :: s :: l =>
    (a.toNat + 2 * b.toNat + 4 * c.toNat + 8 * d.toNat + 16 * p.toNat + 32 * q.toNat + 64 * r.toNat
      + 128 * s.toNat) :: packBits l
  | _ => []

/-- The bytes of digest group `g` of block `b` (R525). -/
def Engine.groupBytes (e : Engine) (b g : Nat) : List Nat :=
  if g < 8 then e.destWords b (256 * g) 256
  else match g with
    | 8 => e.destWords b 0x800 0x100
    | 9 => e.destWords b 0x900 0x80
    | 10 => e.destWords b 0x980 3 ++ (List.range e.nSamp).map fun _ => e.pwr.pins
    | 11 => e.srcWords b 0x1000 512
    | 12 => e.srcWords b 0x1200 512
    | 13 => e.srcWords b 0x1400 256
    | 14 => (e.listedIdx (SUMX_TAP_CFG 0) 4 4096).flatMap fun k =>
        if e.on (SUMX_TAP_CFG_EN k) then leBytes (e.rd (SUMX_TAP_PEAK k)) ++ leBytes (e.rd (SUMX_TAP_MSQ k)) else []
    | _ => packBits ((List.range 1024).map (e.outValid 1 · b) ++ (List.range 256).map (e.outValid 2 · b))

/-- The groups in which two lists of digests differ. -/
def digestMask (a b : List Nat) : Nat :=
  (List.range 16).foldl (fun m g => if a.getD g 0 = b.getD g 0 then m else m + 2 ^ g) 0

/-- The agreement of one more block (R516, R534): in CONVERGE enough of them make the primary
name H. -/
def Engine.digestAgree (e : Engine) : Engine :=
  let e := e.count DUO_STATUS_AGREE
  if e.duoState = duoConverge ∧ e.standbyRole = false ∧ e.duo.plan.paired = none
      ∧ e.get DUO_JOIN_AGREE ≤ e.get DUO_STATUS_AGREE then
    let h := e.block + e.dF
    let e := e.updDuo fun d => { d with plan := { d.plan with paired := some h } }
    e.svlSend 0xFF (.control .enter (e.pairEsc (h * e.nSamp)))
  else e

/-- Digests of the block at pair ESC `esc` are compared once, when both are present (R527). -/
def Engine.digestCompare (e : Engine) (esc : Nat) : Engine :=
  match e.duo.digs.find? fun d => d.1 == esc, e.duo.peerDigs.find? fun d => d.1 == esc with
  | some a, some b =>
    if b.2.length < 16 ∨ esc < e.duo.cmp then e
    else
      let e := e.updDuo fun d => { d with cmp := esc + 1, peerDigs := d.peerDigs.filter fun x => x.1 != esc }
      let m := digestMask a.2 b.2
      if e.duoState = duoConverge then if m = 0 then e.digestAgree else e.put DUO_STATUS_AGREE 0
      else if e.duoState = duoPaired ∨ e.duoState = duoLinkDown then
        if m = 0 then e.digestAgree else e.duoDiverge m esc
      else e
  | _, _ => e

/-- The digests of block `b`, formed when SCATTER takes its values, and compared when the peer's
are there already (R525, R527). -/
def Engine.digestBlock (e : Engine) (b : Nat) : Engine :=
  if e.lockstep then
    let ds := (List.range 16).map fun g => crc64 (e.groupBytes b g)
    let esc := e.pairEsc (b * e.nSamp)
    (e.updDuo fun d => { d with digs := (d.digs ++ [(esc, ds)]).drop (d.digs.length - 7) }).digestCompare esc
  else e

/-- DIGEST: one of the four frames of a block's digests (R504, R527). -/
def execDigest (m : SvlRx) (esc : Nat) (ds : List Nat) (s : State) : Out :=
  s.eff fun e =>
    let (e, ok) := e.svlAccept m
    if ok = false ∨ e.lockstep = false then e
    else
      let old := ((e.duo.peerDigs.find? fun d => d.1 == esc).map Prod.snd).getD []
      let rest := e.duo.peerDigs.filter fun x => x.1 != esc
      let l := (rest ++ [(esc, old ++ ds.take (16 - old.length))]).drop (rest.length - 7)
      let e := e.updDuo fun d => { d with peerDigs := l }
      e.digestCompare esc

/-- A peer's network heartbeat seen on port `p` (R510, R529): while the link is down it shows
whether the standby is still in sync, and carries the digests. -/
def Engine.netHeartbeat (e : Engine) (p : Nat) (h : NetHb) : Engine :=
  let e := ((e.put ⟨DUO_STATUS, 1 + p, 1⟩ 1).updDuo fun d => { d with nhbSeen := true, lostEp := false }).pairLinkDown
  if e.duoState ≠ duoLinkDown then e
  else
    let e := if e.on DUO_STATUS_INSYNC = false then e
      else if e.standbyRole then
        if h.count ≠ e.duo.recvd ∨ h.level ≠ e.get ADAPT_STATUS_LEVEL then e.syncLost (h.count - e.duo.recvd) else e
      else if h.count ≠ e.duo.sent ∨ h.level ≠ e.get ADAPT_STATUS_LEVEL then e.syncLost (e.duo.sent - h.count) else e
    let esc := h.esc - 3 * e.nSamp
    let rest := e.duo.peerDigs.filter fun x => x.1 != esc
    (e.updDuo fun d => { d with peerDigs := (rest ++ [(esc, h.digs)]).drop (rest.length - 7) }).digestCompare esc

/-- NET_FRAME_RECEIVE: a frame of port `p` without its FCS, and what its payload says when it
is a network heartbeat of the pair, which DUO observes before the class limits (R466, R510). -/
def execNetFrameReceive (p : Nat) (fr : List Byte) (fcsOk : Bool) (hb : Option NetHb) (s : State) : Out :=
  s.eff fun e =>
    let p := p % 2
    let e := match hb with
      | some h =>
        if e.portUp p && fcsOk && e.on DUO_CTRL_EN && frN fr (frL3 fr + 16) 4 == (e.rd DUO_NHB_ADDR).toNat
            && frUdp fr == some (e.get DUO_NHB_PORT_PORT) && h.pairId == e.cp DUO_CFG_PAIR_ID then
          e.netHeartbeat p h
        else e
      | none => e
    e.netReceive p fr fcsOk

/-- What DUO does at a tick start (R509 to R511, R516): ages, heartbeats and the digests of
the block whose SCATTER ended with the previous tick. -/
def Engine.duoTick (e : Engine) : Engine :=
  let e := e.updDuo fun d => { d with
    hbAge := if d.hbSeen then 0 else min 255 (d.hbAge + 1), hbSeen := false,
    nhbAge := if d.nhbSeen then 0 else min 255 (d.nhbAge + 1), nhbSeen := false,
    convTicks := d.convTicks + 1,
    props := (d.props ++ [(e.block, e.get ADAPT_STATUS_TARGET)]).drop (d.props.length - 15) }
  let h := e.heartbeatNow
  let e := e.svlSend 0xFF (.heartbeat h)
  let esc := h.esc - 3 * e.nSamp
  let ds := ((e.duo.digs.find? fun d => d.1 == esc).map Prod.snd).getD []
  let e := if ds.isEmpty then e
    else (List.range 4).foldl (fun e k => e.svlSend 0xFF (.digest esc k ((ds.drop (5 * k)).take 5))) e
  let nh : NetHb := { pairId := e.cp DUO_CFG_PAIR_ID, role := h.role, state := h.state, esc := h.esc, count := h.count, level := e.get ADAPT_STATUS_LEVEL, digs := ds }
  if e.on DUO_CTRL_EN then e.updDuo fun d => { d with nhbOut := some nh } else e

/-! ### Mirrored inputs -/

/-- The channels of input port `p`: their router indices (R438, R450, R567). -/
def Engine.portChans (e : Engine) (p : Nat) : List Nat :=
  if p = 10 then [0x980] else
  let w := if e.on TICK_CFG_RATE then 16 else 32
  if p < 8 then (List.range w).map (0x800 + w * p + ·) else (List.range (2 * w)).map (0x900 + 2 * w * (p - 8) + ·)

/-- Mirrored inputs at the start of COMPUTE of block `b`: what was gathered as block `b − 1`
on the source engine; the source sends block `b` on. A missing block reads as lost, and the
standby diverges (R523). -/
def Engine.mirrorTick (e : Engine) (b : Nat) : Engine :=
  if e.lockstep = false then e
  else
    let n := e.nSamp
    let ports := (List.range 11).filter fun p => e.mirrored p &&
      (if p < 8 then e.on ⟨SAP_IN_CFG p, 0, 1⟩ else p == 10 || e.rxOn (p - 8))
    ports.foldl (fun e p =>
      let chs := e.portChans p
      let key (c : Nat) : Nat := p * 64 + c
      let have_ := chs.zipIdx.all fun q => (Tbl.get (0, []) e.duo.mirror (key q.2)).1 == b + 1
      let e := if have_ then
          chs.zipIdx.foldl (fun e q =>
            e.setSmps b q.1 0 ((Tbl.get (0, []) e.duo.mirror (key q.2)).2.map sval)) e
        else
          let e := chs.foldl (fun e i =>
            e.setSmps b i 0 ((List.range n).map fun j =>
              weigh (e.smp (b - 1) i (n - 1)) (one20 - planish 16 j))) e
          if e.standbyRole then e.duoDiverge 0 (e.pairEsc (b * n)) else e
      if e.mirrorHere p then
        let raw (i : Nat) : List Word := (List.range n).map fun j => wordOfInt (e.smp b (i + 0x1000) j)
        let e := e.updDuo fun d => { d with mirror := chs.zipIdx.foldl (fun t q =>
          Tbl.set (0, []) t (key q.2) (b + 2, raw q.1)) d.mirror }
        e.svlSend 0xFF (.mirror p 0 (e.pairEsc (b * n)) (chs.flatMap raw))
      else e) e

/-! ### Fail-over -/

/-- The peer is gone (R528): both heartbeats, and its ROLE wire reads low when connected. -/
def Engine.peerGone (e : Engine) : Bool :=
  !e.on DUO_STATUS_LINK_HB && !e.on DUO_STATUS_NET0_HB && !e.on DUO_STATUS_NET1_HB
    && !(e.cpOn DUO_CFG_PEER_EN && e.on ⟨PWR_GPIO_IN, e.cp DUO_CFG_PEER_GPIO, 1⟩)

/-- The announced departure of the peer has come: SCATTER of F begins (R530). -/
def Engine.peerLeft (e : Engine) : Bool :=
  match e.duo.plan.peerGo with | some f => decide (f + 2 ≤ e.block) | none => false

/-- The block whose SCATTER begins with the current tick. -/
def Engine.scatterBlock (e : Engine) : Nat := e.block - 2

/-- The standby takes over as SOLO primary (R528, R532). -/
def Engine.takeOver (e : Engine) (cause : Nat) (unsynced : Bool) : Engine :=
  let b := e.scatterBlock
  let e := (e.goSolo.setTxen b 1 1).count DUO_COUNT_FAILOVERS
  (e.updDuo fun d => { d with outOff := false, rejoin := false }).raise
    (duoEvt 0x05 .warn 0xFF (cause + 256 * unsynced.toNat) (e.pairEsc (b * e.nSamp)))

/-- FAILOVER: the conditions of R528 hold, or the peer announced its departure; a standby out
of sync takes over only with TAKE_UNSYNCED, and else raises PEER_LOST (R532). -/
def Engine.failover (e : Engine) : Engine :=
  let cause := if e.peerLeft then 1 else 0
  if e.standbyRole = false ∨ e.duoState = duoSolo ∨ (e.peerGone || e.peerLeft) = false then e
  else
    let sync := e.duoState == duoPaired || (e.duoState == duoLinkDown && e.on DUO_STATUS_INSYNC)
    if sync then e.takeOver cause false
    else if e.cpOn DUO_CFG_TAKE_UNSYNCED then e.takeOver cause true
    else if e.duo.lostEp then e
    else (e.updDuo fun d => { d with lostEp := true }).raise (duoEvt 0x0B .fault 0xFF 0 0)

def execFailover (s : State) : Out := s.eff fun e => e.failover.spkSettle

/-- PRIMARY_GOES_SOLO: the standby is gone, or its announced block F has come (R530, R533). -/
def execPrimaryGoesSolo (s : State) : Out :=
  s.eff fun e =>
    if e.standbyRole = false ∧ e.duoState ≠ duoSolo ∧ (e.peerGone || e.peerLeft) = true then
      e.goSolo.setTxen e.scatterBlock 1 1
    else e

/-- RELINQUISH: the primary will stop serving at block F (R530). -/
def execRelinquish (m : SvlRx) (esc : Nat) (s : State) : Out :=
  s.eff fun e =>
    let (e, ok) := e.svlAccept m
    if ok && e.standbyRole then e.updDuo fun d => { d with plan := { d.plan with peerGo := some (e.ownBlock esc) } } else e

/-- LEAVE: the standby will leave at block F (R530). -/
def execLeave (m : SvlRx) (esc : Nat) (s : State) : Out :=
  s.eff fun e =>
    let (e, ok) := e.svlAccept m
    if ok && !e.standbyRole then e.updDuo fun d => { d with plan := { d.plan with peerGo := some (e.ownBlock esc) } } else e

/-- The engine announces its departure (R530): F is the block whose SCATTER begins at the
first tick start at least 24 µs ahead. -/
def Engine.duoAnnounce (e : Engine) : Engine :=
  if e.duoState = duoSolo ∨ e.duo.plan.leave.isSome = true then e
  else
    let tick := e.nSamp * e.cycPerSample
    let left := e.tick.startCyc + tick - e.now
    let k := 1 + (annCyc - left + tick - 1) / tick
    let f := e.block + k - 2
    let last := if 3 ≤ e.block ∧ e.stopped = false then some (e.block - 3) else none
    let e := e.updDuo fun d => { d with plan := { d.plan with leave := some (f, 1), hold := last } }
    e.svlSend 0xFF (.control (if e.standbyRole then .leave else .relinquish) (e.pairEsc (f * e.nSamp)))

/-- A reset that was requested inside a pair, and not yet announced, is announced (R619, R669). -/
def Engine.resetAnnounce (e : Engine) : Engine :=
  if e.resetReq.isSome && e.lockstep then e.duoAnnounce else e

/-- DEPARTURE_AT_F: SOLO with TXEN 0 on both ports and local outputs disabled; the tick stops
(R537). A relock that waited for it may start (R71). -/
def Engine.departNow (e : Engine) : Engine :=
  match e.duo.plan.leave with
  | some (f, cause) =>
    if e.block < f + 2 then e
    else
      let e := e.goSolo.dropItems.setTxen f 0 0
      ((e.updDuo fun d => { d with outOff := true }).raise (duoEvt 0x09 .note 0xFF cause 0)).tickStopReq
  | none => e

/-- DUO_LEAVE. -/
def execDuoLeave (by_ : Sender) (s : State) : Out :=
  s.eff fun e => if by_.isCC then e.duoAnnounce else e.duoRefuse by_ 0

/-! ### Return and switch -/

/-- REVERT_HOLD_REACHED: the home standby asks for its role back (R534). -/
def Engine.revertHold (e : Engine) : Engine :=
  if e.standbyRole && e.duoState == duoPaired && e.cpOn DUO_CFG_HOME && e.cpOn DUO_CFG_REVERT
      && e.duo.reclaimAt.isNone && e.duo.plan.swap.isNone
      && decide (e.get DUO_REVERT_HOLD_TICKS ≤ e.get DUO_STATUS_AGREE) then
    let s := (e.block + e.dF) * e.nSamp
    (e.updDuo fun d => { d with reclaimAt := some e.now }).svlSend 0xFF (.control .reclaim (e.pairEsc s))
  else e

def execRevertHoldReached (s : State) : Out := s.eff Engine.revertHold

/-- RECLAIM: acknowledged by the link; roles swap at S (R535). -/
def execReclaim (m : SvlRx) (esc : Nat) (s : State) : Out :=
  s.eff fun e =>
    let (e, ok) := e.svlAccept m
    if ok && !e.standbyRole && e.duoState == duoPaired then
      e.updDuo fun d => { d with plan := { d.plan with swap := some (esc, false) } }
    else e

/-- RECLAIM_ACK_TIMEOUT: 24 µs without it; nothing changes and the count restarts (R535). -/
def execReclaimAckTimeout (s : State) : Out :=
  s.eff fun e =>
    match e.duo.reclaimAt with
    | some c =>
      if c + annCyc ≤ e.now then (e.put DUO_STATUS_AGREE 0).updDuo fun d => { d with reclaimAt := none } else e
    | none => e

/-- DUO_SWITCH: only in PAIRED and on the primary (R536). -/
def Engine.duoSwitch (e : Engine) (by_ : Sender) : Engine :=
  if by_.isCC && e.duoState == duoPaired && !e.standbyRole then
    e.svlSend by_.hm (.control .switch (e.pairEsc ((e.block + e.dF) * e.nSamp)))
  else e.duoRefuse by_ 0

def execDuoSwitch (by_ : Sender) (s : State) : Out := s.eff fun e => e.duoSwitch by_

/-- SWITCH: roles swap at S (R535). -/
def execSwitch (m : SvlRx) (esc : Nat) (s : State) : Out :=
  s.eff fun e =>
    let (e, ok) := e.svlAccept m
    if ok && e.standbyRole && e.duoState == duoPaired then
      e.updDuo fun d => { d with plan := { d.plan with swap := some (esc, true) } }
    else e

/-- ROLE_SWAP: SCATTER of S begins; roles and TXEN swap from S on (R535). -/
def Engine.roleSwap (e : Engine) : Engine :=
  match e.duo.plan.swap with
  | some (esc, sw) =>
    let b := e.ownBlock esc
    if e.block < b + 2 ∨ e.duoState ≠ duoPaired then e
    else
      let sb := e.standbyRole
      let e := (e.putB DUO_CTRL_ROLE (!sb)).put DUO_STATUS_AGREE 0
      let e := if sb then e.setTxen b 1 0 else e.setTxen b 0 1
      (e.updDuo fun d => { d with plan := { d.plan with swap := none } }).raise
        (duoEvt 0x08 .note 0xFF sw.toNat esc)
  | none => e

def execRoleSwap (s : State) : Out := s.eff fun e => e.roleSwap.spkSettle

/-! ### Registers -/

/-- A TICKS value of DUO_TIMEOUT passes (R512): at least 3, and 96 µs. -/
def Engine.timeoutOk (e : Engine) (t : Nat) : Bool :=
  decide (3 ≤ t) && decide (96 * e.fs ≤ t * e.nSamp * 1000000)

/-- At a change of TICK_CFG a value that fails is raised to the smallest that passes (R512). -/
def Engine.timeoutCheck (e : Engine) : Engine :=
  if e.timeoutOk (e.get DUO_TIMEOUT_TICKS) then e
  else e.put DUO_TIMEOUT_TICKS (max 3 ((96 * e.fs + e.nSamp * 1000000 - 1) / (e.nSamp * 1000000)))

/-- The DUO_CFG pair takes effect (R540): PEER_GPIO 6 and 7, and any write outside SOLO, are
refused. -/
def Engine.duoCfgSet (e : Engine) (by_ : Sender) (v : Word) : Engine :=
  if by_.isCC = false ∨ 6 ≤ bitsOf v 20 3 ∨ e.duoState ≠ duoSolo then e.duoRefuse by_ 8
  else e.wrCp DUO_CFG (v &&& 0x00FFFFFF#32)

/-- A write of a DUO register (R512, R540). -/
def Engine.duoRegWrite (e : Engine) (by_ : Sender) (off : Nat) (v : Word) : Engine :=
  let a := 0x40130000 + off
  if by_.isCC = false then e.duoRefuse by_ off
  else match off with
    | 0x000 =>
      let e := e.putB DUO_CTRL_EN (bitOf v 0)
      let e := if bitOf v 1 then e.duoJoin by_.hm e.duo.seen else e
      let e := if bitOf v 2 then e.duoAnnounce else e
      if bitOf v 3 then e.duoSwitch by_ else e
    | 0x010 => if e.timeoutOk (bitsOf v 0 8) then e.wr a (v &&& 0xFF#32) else e.duoRefuse by_ off
    | 0x014 => if bitsOf v 0 24 = 0 then e.duoRefuse by_ off else e.wr a (v &&& 0xFFFFFF#32)
    | 0x018 | 0x038 => e.wr a v
    | 0x03C => e.wr a (v &&& 0xFFFF#32)
    | 0x01C => if e.duoState = duoSolo then e.wr a v else e.duoRefuse by_ off
    | 0x030 => if e.duoState = duoSolo then e.wr a (v &&& 0x3FFFF#32) else e.duoRefuse by_ off
    | 0x048 => e.wr a (e.rd a &&& ~~~ v)
    | _ => e

end Sys2Proof.Machine
end

