-- ==== Sys2Proof/Machine/Reset.lean ====
section
/-!
DEFINITION. The resets of R618 with their scopes and causes, the fuses as words (R636), and
the rows that begin a reset (chapter "Power Modes, Reset, Start-Up and Watchdog").
-/
namespace Sys2Proof.Machine

/-- Address `a` holds a register of the always-on domain (R612, R631, R605, R68). -/
def aoReg (a : Nat) : Bool :=
  a == CLK_LPO_TRIM || a == PWR_RESET_CAUSE || a == PWR_WAKE_CAUSE || a == PWR_CFG || a == PWR_KEEP_CFG
    || (decide (PWR_KEEP 0 ≤ a) && decide (a < PWR_KEEP 64))
    || (decide (TWB_ADDR 0 ≤ a) && decide (a < TWB_ADDR 4))

/-- A register of the watchdog (R633). -/
def wdtReg (a : Nat) : Bool := decide (0x401A0000 ≤ a) && decide (a < 0x401B0000)

/-- Everything outside the always-on domain at its reset values; `wdt` says whether the
watchdog is kept, `link` whether the PCIe data link and the PF's configuration are (R618).
What is a level at a ball, and the model's own counters, stay. -/
def Engine.resetAll (e : Engine) (wdt link : Bool) : Engine :=
  let keep (a : Nat) : Bool := aoReg a || (wdt && (wdtReg a || a == CLK_LPO_CAL)) || (link && a == PCIE_STATUS)
  let n : Engine := {
    regs := e.regs.filter fun c => keep c.1
    mem := e.mem
    now := e.now
    free := e.free
    rdata := e.rdata
    cue := { det := e.cue.det, power := e.cue.power }
    dbg := { ir := e.dbg.ir, scan := e.dbg.scan, latch := e.dbg.latch }
    pcie := { boot := { gpio0 := e.pcie.boot.gpio0 }
              pfMem := link && e.pcie.pfMem
              msixEn := if link then e.pcie.msixEn.filter (· == 16) else [] }
    pwr := { dormant := e.pwr.dormant, off := e.pwr.off, rstLow := e.pwr.rstLow, supply := e.pwr.supply
             wake := e.pwr.wake, told := e.pwr.told, wdt := if wdt then e.pwr.wdt else {} }
    twb := { dorm := e.twb.dorm } }
  let n := n.putB TWB_CFG_MASKED (e.on TWB_CFG_MASKED)
  if link then n.put PCIE_STATUS_VF_EN 0 else n

/-- A reset with its cause (R618, R620): 2 RESET_N, 3 WATCHDOG, 4 SOFTWARE, 5 ASSAY, 6 DEBUG,
7 WAKE, 8 SUPPLY. -/
def Engine.resetWith (e : Engine) (cause : Nat) : Engine :=
  let e := e.resetAll (cause == 7) (cause == 4 || cause == 5)
  let e := e.put PWR_RESET_CAUSE_LAST cause
  e.put PWR_RESET_CAUSE_SEEN (e.get PWR_RESET_CAUSE_SEEN ||| 2 ^ (cause - 1))

/-- POWER_ON: everything, the always-on domain included (R618). -/
def Engine.powerOn (e : Engine) : Engine :=
  let n : Engine := { now := e.now, free := e.free, rdata := e.rdata
                      cue := { det := e.cue.det, power := e.cue.power } }
  (n.put PWR_RESET_CAUSE_LAST 1).updPwr fun p => { p with supply := e.pwr.supply, rstLow := e.pwr.rstLow }

/-- POWER_ON_RESET: VAO rises through 1.55 V (`up`), or falls below it (R617). -/
def execPowerOnReset (up : Bool) (s : State) : Out :=
  s.ao fun e => e.powerOn.updPwr fun p => { p with off := !up }

/-- RESET_N_RESET: RESET_N has been low for 1 µs (`low`), or rises; GPIO0 is sampled at the
rising edge (R583, R618, R621). -/
def execResetNReset (low gpio0 : Bool) (s : State) : Out :=
  s.ao fun e =>
    if e.pwr.off then e
    else if low then
      (e.resetWith 2).updPwr fun p => { p with rstLow := true, dormant := false, wake := none }
    else if e.pwr.rstLow then
      (e.updPwr fun p => { p with rstLow := false }).updPcie fun p => { p with boot := { p.boot with gpio0 := gpio0 } }
    else e

/-- SUPPLY_RESET: VDD_IO, VDD_CORE and VDDA_PLL are all in range (`ok`), or not; except in
DORMANT a loss resets with cause SUPPLY and holds the engine (R612, R617). -/
def execSupplyReset (ok : Bool) (s : State) : Out :=
  s.ao fun e =>
    let lost := e.pwr.supply && !ok && !e.pwr.dormant && !e.pwr.off
    let e := if lost then e.resetWith 8 else e
    e.updPwr fun p => { p with supply := ok }

/-- SOFTWARE_RESET: a reset that was requested takes effect; in lockstep its departure is announced
first, and it takes effect once the engine has left the pair (R619). -/
def execSoftwareReset (s : State) : Out :=
  s.eff fun e =>
    match e.resetReq with
    | some c => if e.lockstep then e.resetAnnounce else e.resetWith c
    | none => e

/-- A reset is requested with its cause; in lockstep the departure is announced first (R619). -/
def Engine.resetAsk (e : Engine) (cause : Nat) : Engine :=
  { e with resetReq := some cause }.resetAnnounce

/-- A write of SYS_RESET (R44): keyed by the same hallmark. -/
def Engine.sysResetWrite (e : Engine) (by_ : Sender) (v : Word) : Engine :=
  if e.tick.key.ok by_.hm e.now then
    let e := e.sysKeyUse
    if bitOf v 0 then e.resetAsk 4 else e
  else e.raise (sysEvt 0x06 .warn by_.hm SYS_RESET 0)

/-- SYS_RESET_WRITE. -/
def execSysResetWrite (by_ : Sender) (v : Word) (s : State) : Out := s.eff fun e => e.sysResetWrite by_ v

end Sys2Proof.Machine
end

