-- ==== Sys2Proof/Machine/Pwr.lean ====
section
/-!
DEFINITION. PWR and WDT: power modes and their transitions, wake, GPIO and the watchdog
(chapter "Power Modes, Reset, Start-Up and Watchdog", R607 to R634).
-/
namespace Sys2Proof.Machine

/-- A PWR event (R634). -/
def pwrEvt (code : Nat) (sev : Sev) (hm w2 w3 : Nat) : Evt :=
  { block := 0x1E, code := code, sev := sev, hm := hm, w2 := w2, w3 := w3 }

def Engine.pwrRefuse (e : Engine) (by_ : Sender) (off : Nat) : Engine :=
  e.raise (pwrEvt 0x05 .warn by_.hm off 0)

/-- MODE_REFUSED: 1 PAIR, 2 RING, 3 KEY, 4 STATE. -/
def Engine.modeRefuse (e : Engine) (by_ : Sender) (mode reason : Nat) : Engine :=
  e.raise (pwrEvt 0x02 .warn by_.hm mode reason)

def Engine.mode (e : Engine) : Nat := e.get PWR_STATUS_MODE

/-- A mode becomes force (R609). -/
def Engine.setMode (e : Engine) (m : Nat) : Engine :=
  (e.put PWR_STATUS_MODE m).raise (pwrEvt 0x01 .note 0xFF (e.mode + 16 * m) 0)

/-! ### Requests -/

/-- A write of PWR_CMD by `hm` uses up the complete key sequence of that hallmark (R632). -/
def Engine.pwrKeyUse (e : Engine) (hm : Nat) : Engine :=
  e.updPwr fun p => { p with key := if p.key.step = 2 ∧ p.key.hm = hm then {} else p.key }

/-- PWR_CMD with MODE RUN (R609): RUN is requested from IDLE or LISTEN; in RUN it withdraws a
request that waits, unless that is DORMANT's, whose entry completes (Corners). -/
def Engine.cmdRun (e : Engine) (by_ : Sender) : Engine :=
  if by_.isCC = false then e.pwrRefuse by_ 0x004
  else
    let e := e.pwrKeyUse by_.hm
    if e.mode ≠ 0 then e.requestRun 0
    else e.updPwr fun p => { p with want := if p.want = some 3 then p.want else none }

def execPwrCmdRun (by_ : Sender) (s : State) : Out := s.eff fun e => e.cmdRun by_

/-- PWR_CMD with MODE IDLE (R609, R615); an entry into DORMANT under way is completed (Corners
"A wake request during entry into DORMANT"). -/
def Engine.cmdIdle (e : Engine) (by_ : Sender) : Engine :=
  if by_.isCC = false then e.pwrRefuse by_ 0x004
  else
    let e := e.pwrKeyUse by_.hm
    if e.lockstep then e.modeRefuse by_ 1 1
    else if e.mode = 2 ∨ e.pwr.want = some 3 then e.modeRefuse by_ 1 4
    else if e.mode = 1 then e
    else e.updPwr fun p => { p with want := some 1 }

def execPwrCmdIdle (by_ : Sender) (s : State) : Out := s.eff fun e => e.cmdIdle by_

/-- The Listen path is ready (R611): the ring runs in a group that LISTEN keeps. -/
def Engine.listenReady (e : Engine) : Bool :=
  e.on CUE_LISTEN_RING_EN &&
    (match ingotOf (e.rd CUE_RING_BASE).toNat with
     | some n => bitOf (e.rd PWR_LISTEN_KEEP) (n / 8)
     | none => false)

/-- The tick is asked to stop before LISTEN or DORMANT (R607). -/
def Engine.stopFor (e : Engine) (m : Nat) : Engine :=
  let e := e.updPwr fun p => { p with want := some m }
  if e.stopped then e else e.tickStopReq

/-- PWR_CMD with MODE LISTEN (R611, R615, R660). -/
def Engine.cmdListen (e : Engine) (by_ : Sender) : Engine :=
  if by_.isCC = false then e.pwrRefuse by_ 0x004
  else
    let e := e.pwrKeyUse by_.hm
    if e.lockstep then e.modeRefuse by_ 2 1
    else if e.on DBG_CTRL_PWR_HOLD ∨ e.pwr.want = some 3 then e.modeRefuse by_ 2 4
    else if e.mode = 2 then e
    else if e.listenReady = false then e.modeRefuse by_ 2 2
    else e.stopFor 2

def execPwrCmdListen (by_ : Sender) (s : State) : Out := s.eff fun e => e.cmdListen by_

/-- PWR_CMD with MODE DORMANT, keyed (R615, R632, R660). -/
def Engine.cmdDormant (e : Engine) (by_ : Sender) : Engine :=
  if by_.isCC = false then e.pwrRefuse by_ 0x004
  else
    let keyed := e.pwr.key.ok by_.hm e.now
    let e := e.pwrKeyUse by_.hm
    if e.lockstep then e.modeRefuse by_ 3 1
    else if keyed = false then e.modeRefuse by_ 3 3
    else if e.on DBG_CTRL_PWR_HOLD then e.modeRefuse by_ 3 4
    else e.stopFor 3

def execPwrCmdDormant (by_ : Sender) (s : State) : Out := s.eff fun e => e.cmdDormant by_

/-- A write of PWR_CMD. -/
def Engine.pwrCmd (e : Engine) (by_ : Sender) (v : Word) : Engine :=
  match bitsOf v 0 2 with
  | 0 => e.cmdRun by_
  | 1 => e.cmdIdle by_
  | 2 => e.cmdListen by_
  | _ => e.cmdDormant by_

/-- PWR_KEY_WRITE (R632). -/
def Engine.pwrKeyWrite (e : Engine) (by_ : Sender) (v : Word) : Engine :=
  if by_.isCC then e.updPwr fun p => { p with key := p.key.write 0xD02A 0x2FD5 by_.hm e.now v }
  else e.pwrRefuse by_ 0x00C

def execPwrKeyWrite (by_ : Sender) (v : Word) (s : State) : Out := s.eff fun e => e.pwrKeyWrite by_ v

/-- A write of PWR_REQ (R614). -/
def Engine.pwrReq (e : Engine) (by_ : Sender) (v : Word) : Engine :=
  if (by_.isCC || e.listenPath by_) = false then e.pwrRefuse by_ 0x018
  else if bitOf v 0 ∧ e.mode ≠ 0 then e.requestRun 6 else e

/-- PWR_REQ_RUN. -/
def execPwrReqRun (by_ : Sender) (s : State) : Out := s.eff fun e => e.pwrReq by_ 1#32

/-! ### Transitions -/

/-- Core `c` holds a RUNNING or PREEMPTED task. -/
def Engine.coreBusy (e : Engine) (c : Nat) : Bool :=
  (e.coreOf c).task.isSome || !(e.coreOf c).pre.isEmpty

/-- IDLE_ENTRY: at a tick start at which no core to be powered down is busy (R610). -/
def execIdleEntry (s : State) : Out :=
  s.eff fun e =>
    let auto := e.on PWR_CFG_IDLE_AUTO && e.cueIdle && !e.lockstep
    let busy := (List.range 16).any fun c => bitOf (e.rd PWR_IDLE_CORES) c && e.coreBusy c
    if e.mode ≠ 0 ∨ busy = true ∨ (e.pwr.want ≠ some 1 ∧ auto = false) then e
    else
      let cmd := e.pwr.want == some 1
      (e.updPwr fun p => { p with want := if cmd then none else p.want, auto := !cmd, runReq := none, rise := 0 }).setMode 1

/-- The source of a RUN request shown (R631). -/
def Engine.wokeBy (e : Engine) (src : Nat) : Engine :=
  if src = 0 then e else e.put PWR_WAKE_CAUSE_SRC src

/-- IDLE_EXIT: a RUN request, or CUE has withdrawn the request that entered IDLE (R609). The
cores powered up are eligible from the next tick start (R610), at once while stopped. -/
def execIdleExit (s : State) : Out :=
  s.eff fun e =>
    let back := e.pwr.auto && e.on PWR_CFG_IDLE_AUTO && !e.cueIdle
    if e.mode ≠ 1 ∨ (e.pwr.runReq = none ∧ back = false) then e
    else
      let src := e.pwr.runReq.getD 0
      let up := if e.stopped then 0 else e.get PWR_IDLE_CORES_AC
      ((e.updPwr fun p => { p with runReq := none, auto := false, rise := up }).wokeBy src).setMode 0

/-- The groups LISTEN retains (R611). -/
def Engine.listenGroups (e : Engine) : List Nat :=
  (List.range 10).filter fun g => !bitOf (e.rd PWR_LISTEN_KEEP) g && e.get (retState g) == 0

/-- LISTEN_ENTRY: the tick has stopped (R609, R611, R661): links and port clocks are lost, the
groups not kept enter retention, cores that power down resume, and in PRODUCTION an INVASIVE
session goes on at OBSERVE. A two-wire transaction holds TWB awake until its STOP (R602). -/
def execListenEntry (s : State) : Out :=
  s.eff fun e =>
    if e.pwr.want ≠ some 2 ∨ e.stopped = false then e
    else
      let gs := e.listenGroups
      let e := e.resumeAll fun c => c < 15
      let e := gs.foldl (fun e g => (e.put (INGOT_RET_RETAIN g) 1).put (retState g) 1) e
      let e := ((e.put (NET_STATUS_LINK 0) 0).put (NET_STATUS_LINK 1) 0).wr SVL_STATUS 0#32
      let e := (List.range 4).foldl (fun e g =>
        if e.on (SAP_GRP_CFG_EN g) then e.put (SAP_GRP_STATUS_STATE g) 1 else e) e
      let lvl := if e.lc = 2 ∧ e.get DBG_STATUS_LEVEL = 2 then some 2 else none
      let e := if lvl.isSome then (e.put DBG_STATUS_LEVEL 1).updDbg fun d => { d with level := lvl } else e
      let e := e.updTwb fun t => { t with awake := t.txn.isSome, hold := t.txn.isSome }
      let e := e.updPwr fun p => { p with want := none, runReq := none, kept := gs }
      ((e.updDuo fun d => { d with tx := [] }).setMode 2).spkSettle

/-- LISTEN_EXIT: RUN returns; the groups PWR retained wake (R611, R661). -/
def execListenExit (s : State) : Out :=
  s.eff fun e =>
    match e.pwr.runReq with
    | some src =>
      if e.mode ≠ 2 then e
      else
        let e := e.pwr.kept.foldl (fun e g =>
          let e := e.put (INGOT_RET_RETAIN g) 0
          if e.get (retState g) = 2 then e.put (retState g) 3 else e) e
        let e := match e.dbg.level with
          | some l => (e.put DBG_STATUS_LEVEL l).updDbg fun d => { d with level := none }
          | none => e
        let e := e.updPwr fun p => { p with runReq := none, kept := [] }
        ((e.wokeBy src).setMode 0).spkSettle
    | none => e

/-- DORMANT_ENTRY: the tick has stopped; everything outside the always-on domain loses its
state, the memory with it (R608, R609, R652). -/
def execDormantEntry (s : State) : Out :=
  s.eff fun e =>
    if e.pwr.want ≠ some 3 ∨ e.stopped = false then e
    else
      let e := (e.sessionClose 3).resetAll true false
      { e with mem := [] }.updPwr fun p => { p with dormant := true }

/-- DORMANT_WAKE: a pending wake with the supplies in range (R612, R613); an expired watchdog's
reset takes its place (Corners "Supplies not back when the engine is woken"). -/
def execDormantWake (s : State) : Out :=
  s.ao fun e =>
    match e.pwr.wake with
    | some src =>
      if e.pwr.dormant && !e.pwr.off && e.pwr.supply && e.pwr.wdt.pulse.isNone then
        ((e.resetWith 7).put PWR_WAKE_CAUSE_SRC src).updPwr fun p =>
          { p with dormant := false, wake := none, told := false }
      else e
    | none => e

/-- A wake request from source `src`: in DORMANT it is held pending, in IDLE and LISTEN it
requests RUN (R609, R612, R614). -/
def Engine.wakeFrom (e : Engine) (src : Nat) (idle : Bool) : Engine :=
  if e.pwr.dormant then e.updPwr fun p => { p with wake := if p.wake.isSome then p.wake else some src }
  else if e.pwr.want = some 3 then
    e.updPwr fun p => { p with wake := if p.wake.isSome then p.wake else some src }
  else if e.mode = 2 ∨ (idle = true ∧ e.mode = 1) then e.requestRun src
  else e

/-- WAKE_PIN_REQUEST: WAKE has held `level` for 32 LPO cycles (R614). -/
def execWakePinRequest (level : Bool) (s : State) : Out :=
  s.ao fun e =>
    if e.pwr.off then e
    else
      let e := if e.live then e.putB PWR_STATUS_WAKE_PIN level else e
      if e.on PWR_CFG_WAKE_EN && level == e.on PWR_CFG_WAKE_POL then e.wakeFrom 1 true else e

/-- A read of PWR_WAKE_CAUSE: the control firmware's first after a wake-boot raises WOKEN
(R634, Notes). -/
def Engine.wakeCauseRead (e : Engine) (by_ : Sender) : Word × Engine :=
  let v := e.rd PWR_WAKE_CAUSE
  (v, if by_.isCC && !e.pwr.told then
        (e.updPwr fun p => { p with told := true }).raise (pwrEvt 0x03 .note by_.hm (bitsOf v 0 3) 0)
      else e)

/-- PWR_STATUS (R631). -/
def Engine.pwrStatus (e : Engine) : Word :=
  setBits (setBits (e.rd PWR_STATUS) 4 1 (e.pwr.want.isSome || e.pwr.runReq.isSome).toNat) 5 1 e.cueIdle.toNat

/-! ### GPIO -/

/-- Output pin `k` is driven (R500, R624). -/
def Engine.gpioDrives (e : Engine) (k : Nat) : Bool := e.on (PWR_GPIO_CFG_DIR k) && !e.isStandby

/-- A level for pin `k`. -/
def Engine.setPin (e : Engine) (k : Nat) (v : Bool) : Engine :=
  e.updPwr fun p => { p with pins := p.pins - (if p.pins.testBit k then 2 ^ k else 0) + (if v then 2 ^ k else 0) }

/-- One change takes place; a TAQ action's shows in PWR_GPIO_OUT. -/
def Engine.gpioApply (e : Engine) (c : GpioChg) : Engine :=
  let v := if c.op = 2 then !e.pwr.pins.testBit c.pin else c.op == 1
  let e := e.setPin c.pin v
  if c.taq then e.putB ⟨PWR_GPIO_OUT, c.pin, 1⟩ v else e

/-- The changes due by ESC `s`, of TAQ actions or of writes, in order (R136, R625). -/
def Engine.gpioDue (e : Engine) (taq : Bool) (s : Nat) : Engine :=
  let due := e.pwr.gpio.filter fun c => c.taq == taq && decide (c.esc ≤ s)
  let e := e.updPwr fun p => { p with gpio := p.gpio.filter fun c => c.taq != taq || decide (s < c.esc) }
  due.foldl Engine.gpioApply e

/-- TIMED_GPIO_CHANGE: GPIO actions whose sample edge has come. -/
def execTimedGpioChange (s : State) : Out := s.eff fun e => e.gpioDue true e.tick.esc

/-- A write of PWR_GPIO_OUT (R624, R625): the pins the writer may change, at sample 0 of b*, or
at once while stopped. -/
def Engine.gpioOut (e : Engine) (by_ : Sender) (v : Word) : Engine :=
  let may (k : Nat) : Bool := by_.isCC ||
    (e.on (PWR_GPIO_CFG_V k) && by_.isTenant (e.get (PWR_GPIO_CFG_TENANT k)))
  let ks := (List.range 6).filter may
  if ks.isEmpty then e.pwrRefuse by_ 0x060
  else ks.foldl (fun e k =>
    let b := bitOf v k
    let e := e.putB ⟨PWR_GPIO_OUT, k, 1⟩ b
    if e.on (PWR_GPIO_CFG_DIR k) = false ∨ e.stopped = true then e.setPin k b
    else e.updPwr fun p => { p with gpio := p.gpio ++ [{ esc := e.bStarEsc, pin := k, op := b.toNat, taq := false }] }) e

/-- GPIO_OUT_WRITE. In lockstep it is forwarded (R518). -/
def execGpioOutWrite (by_ : Sender) (v : Word) (s : State) : Out :=
  s.eff fun e => e.rowWrite by_ [(PWR_GPIO_OUT, v)] fun e => e.gpioOut by_ v

/-- GPIO_EDGE: input pin `k` is sampled at `level` (R626). -/
def execGpioEdge (k : Nat) (level : Bool) (s : State) : Out :=
  s.eff fun e =>
    let k := k % 6
    let was := bitOf (e.rd PWR_GPIO_IN) k
    let e := e.putB ⟨PWR_GPIO_IN, k, 1⟩ level
    let edge := e.get (PWR_GPIO_CFG_EDGE k)
    if e.on (PWR_GPIO_CFG_DIR k) = true ∨ was = level ∨ edge.testBit (if level then 0 else 1) = false then e
    else
      let v := pwrEvt 0x04 .note 0xFF (k + 16 * level.toNat) (e.tick.esc % 2 ^ 32)
      if e.on (PWR_GPIO_CFG_V k) then e.raiseT (e.get (PWR_GPIO_CFG_TENANT k)) v else e.raise v

/-- A write of a PWR register (R631). -/
def Engine.pwrRegWrite (e : Engine) (by_ : Sender) (off : Nat) (v : Word) : Engine :=
  let a := 0x401E0000 + off
  if off = 0x018 then e.pwrReq by_ v
  else if off = 0x060 then e.gpioOut by_ v
  else if by_.isCC = false then e.pwrRefuse by_ off
  else match off with
    | 0x004 => e.pwrCmd by_ v
    | 0x008 => e.wr a (v &&& 0xF#32)
    | 0x00C => e.pwrKeyWrite by_ v
    | 0x010 => e.wr a (v &&& 0xFFFF#32)
    | 0x014 => e.wr a (v &&& 0x3FF#32)
    | 0x020 => e.wr a (e.rd a &&& ~~~ (v &&& 0xFF00#32))
    | 0x028 => e.wr a (e.rd a &&& ~~~ v)
    | 0x030 => e.wr a (v &&& 1#32)
    | _ =>
      if 0x040 ≤ off ∧ off < 0x058 then e.wr a (v &&& 0x1FF#32)
      else if 0x100 ≤ off ∧ off < 0x200 then e.wr a v
      else e

/-! ### Watchdog (R627 to R630) -/

def wdtEvt (code : Nat) (hm w2 w3 : Nat) : Evt :=
  { block := 0x1A, code := code, sev := .warn, hm := hm, w2 := w2, w3 := w3 }

def Engine.wdtRefuse (e : Engine) (by_ : Sender) (off : Nat) : Engine :=
  e.raise (wdtEvt 0x02 by_.hm off by_.hm)

/-- W and E of the period in force. -/
def Engine.wdtOpen (e : Engine) : Nat := e.pwr.wdt.period * e.get WDT_FUSES_WIN / 4
def Engine.wdtWarn (e : Engine) : Nat :=
  if e.get WDT_FUSES_WIN = 0 then e.pwr.wdt.period / 2 else e.wdtOpen

/-- A period starts at count 0 with the WDT_PERIOD in the register (R629, R630). -/
def Engine.wdtNew (e : Engine) : Engine :=
  let e := (e.wr WDT_COUNT 0#32).updPwr fun p => { p with wdt := { p.wdt with period := e.get WDT_PERIOD_TICKS } }
  (e.putB WDT_STATUS_OPEN (e.wdtOpen == 0)).put WDT_STATUS_KEY_PEND 0

/-- The watchdog starts (R627). -/
def Engine.wdtStart (e : Engine) : Engine :=
  if e.on WDT_CTRL_RUNNING then e else (e.put WDT_CTRL_RUNNING 1).wdtNew

/-- A write of WDT_CTRL. -/
def Engine.wdtCtrl (e : Engine) (by_ : Sender) (v : Word) : Engine :=
  if by_.isCC = false then e.wdtRefuse by_ 0
  else if bitOf v 0 && !e.on WDT_FUSES_HWSTART then e.wdtStart else e

/-- WDT_START. -/
def execWdtStart (by_ : Sender) (s : State) : Out := s.eff fun e => e.wdtCtrl by_ 1#32

/-- The count has reached `c` ticks of the period. -/
def Engine.wdtAt (e : Engine) (c : Nat) : Engine :=
  let c := max c (e.get WDT_COUNT_COUNT)
  (e.put WDT_COUNT_COUNT c).putB WDT_STATUS_OPEN (decide (e.wdtOpen ≤ c))

/-- The watchdog counts: started, no pulse and no held expiry. -/
def Engine.wdtRuns (e : Engine) : Bool :=
  e.on WDT_CTRL_RUNNING && e.pwr.wdt.pulse.isNone && !e.dbg.wdtHit && !e.pwr.off

/-- WDT_EARLY: count E (R628). -/
def execWdtEarly (s : State) : Out :=
  s.ao fun e =>
    if e.wdtRuns = false ∨ e.wdtWarn < e.get WDT_COUNT_COUNT then e
    else
      let e := (e.wdtAt e.wdtWarn).put WDT_STATUS_EARLY 1
      let e := if e.live then e.raise (wdtEvt 0x01 0xFF (e.get WDT_COUNT_COUNT) 0) else e
      e.wakeFrom 2 false

/-- The tolerance ends (R629): 1 EXPIRED, 2 EARLY, 3 BAD_KEY. With WDT_HOLD the control core
halts instead (R659). -/
def Engine.wdtEnd (e : Engine) (reason : Nat) : Engine :=
  if e.on DBG_CTRL_WDT_HOLD then
    let e := e.dbgEvt 0x06 .warn (e.get WDT_COUNT_COUNT) 0 false
    (e.updDbg fun d => { d with wdtHit := true }).debugHalt 16
  else
    let e := e.updPwr fun p => { p with wdt := { p.wdt with pulse := some reason } }
    if e.lockstep then e.duoAnnounce else e

/-- WDT_EXPIRY: count P without a good service. -/
def execWdtExpiry (s : State) : Out :=
  s.ao fun e =>
    if e.wdtRuns then
      let e := e.wdtAt e.pwr.wdt.period
      if e.live then e.wdtEnd 1 else e.updPwr fun p => { p with wdt := { p.wdt with pulse := some 1 } }
    else e

/-- A write to WDT_SERVICE in the LPO tick of count `c` (R629, R630). -/
def Engine.wdtService (e : Engine) (by_ : Sender) (v : Word) (c : Nat) : Engine :=
  if by_.isCC = false then e.wdtRefuse by_ 8
  else if e.wdtRuns = false then e
  else
    let e := e.wdtAt c
    let c := e.get WDT_COUNT_COUNT
    let pend := e.on WDT_STATUS_KEY_PEND
    let e := e.putB WDT_STATUS_KEY_PEND (v == 0x00006E9D#32)
    if e.pwr.wdt.period ≤ c then e.wdtEnd 1
    else if v = 0x00006E9D#32 then e
    else if v = 0x00009162#32 ∧ pend = true then
      if c < e.wdtOpen then e.wdtEnd 2 else (e.put WDT_CTRL_LOCKED 1).wdtNew
    else e.wdtEnd 3

/-- WDT_SERVICE_WRITE: in the LPO tick of count `c`. -/
def execWdtServiceWrite (by_ : Sender) (v : Word) (c : Nat) (s : State) : Out :=
  s.eff fun e => e.wdtService by_ v c

/-- WATCHDOG_RESET: the end of the WDT_OUT_N pulse (R629). -/
def execWatchdogReset (s : State) : Out :=
  s.ao fun e =>
    match e.pwr.wdt.pulse with
    | some r =>
      if e.pwr.off || e.pwr.rstLow || !e.pwr.supply then e
      else
        ((e.resetWith 3).put PWR_RESET_CAUSE_WDT_REASON r).updPwr fun p =>
          { p with dormant := false, wake := none }
    | none => e

/-- A write of a WDT register (R630, R633). -/
def Engine.wdtRegWrite (e : Engine) (by_ : Sender) (off : Nat) (v : Word) : Engine :=
  match off with
  | 0x000 => e.wdtCtrl by_ v
  | 0x004 =>
    let t := bitsOf v 0 22
    if by_.isCC = false ∨ e.on WDT_CTRL_LOCKED = true ∨ t < 32 ∨ 2097152 < t then e.wdtRefuse by_ off
    else e.put WDT_PERIOD_TICKS t
  | 0x008 => e.wdtService by_ v (e.get WDT_COUNT_COUNT)
  | 0x014 => if by_.isCC then e.wr WDT_STATUS (e.rd WDT_STATUS &&& ~~~ (v &&& 4#32)) else e
  | 0x018 => if by_.isCC then e.wr WDT_EVT_STATUS (e.rd WDT_EVT_STATUS &&& ~~~ v) else e
  | _ => e

end Sys2Proof.Machine
end

