-- ==== Sys2Proof/Machine/ClkEvt.lean ====
section
/-!
DEFINITION. CLK where it moves REF, the tick and the pair: commits as rows, lock loss, the
frequency monitor, crystal failure and clock gates (R60, R66, R69 to R73, R102).
-/
namespace Sys2Proof.Machine

/-- CLK_TGT_COMMIT. -/
def execClkTgtCommit (by_ : Sender) (v : Word) (s : State) : Out :=
  s.eff fun e => e.rowWrite by_ [(CLK_TGT, v)] fun e =>
    e.refWatch (e.clkTgt by_ v)

/-- SMALL_STEP_APPLY: the held commit, 6,144 cycles after the last application (R58). -/
def execSmallStepApply (s : State) : Out := s.eff fun e => e.refWatch e.clkHeldApply

/-- PLL_LOCK_DECLARED. -/
def execPllLockDeclared (s : State) : Out := s.eff fun e => e.refWatch e.pllLocked

/-- RELOCK_TIMEOUT. -/
def execRelockTimeout (s : State) : Out := s.eff fun e => e.refWatch e.relockTimeout

/-- RELOCK_DONE (R60 step 8). -/
def execRelockDone (s : State) : Out := s.eff fun e => e.refWatch e.relockDone

/-- LOCK_LOST: the detector declares loss (R69). -/
def Engine.lockLost (e : Engine) : Engine :=
  if e.get CLK_STATUS_STATE = 2 then
    let e := (e.putB CLK_STATUS_LOCK false).put CLK_STATUS_STATE 6
    (e.raise (clkEvt 0x04 .warn 0xFF 0)).refForced
  else e

def execLockLost (s : State) : Out := s.eff Engine.lockLost

/-- LOCK_REGAINED: back in LOCKED, and a commit held under R58 is taken up (R70, Corners
"Lock lost during a small step"). A departure already announced goes on (R71). -/
def Engine.lockRegained (e : Engine) : Engine :=
  if e.get CLK_STATUS_STATE = 6 then
    let e := (e.putB CLK_STATUS_LOCK true).put CLK_STATUS_STATE 2
    ((e.raise (clkEvt 0x05 .note 0xFF 0)).refUnforced).clkHeldApply
  else e

def execLockRegained (s : State) : Out := s.eff Engine.lockRegained

/-- A relock of the applied word, at step 1 of R60, on the band R54 chooses (R70, R71). -/
def Engine.relockApplied (e : Engine) : Engine :=
  match e.bandFor e.clkWord [] with
  | some n => e.relockStart 0xFF e.clkWord n
  | none => e.noBand 0xFF e.clkWord

/-- LOCK_LOSS_TIMEOUT: 1 ms without lock starts a relock of the applied word, or in lockstep
announces the departure after which it starts (R70, R71). -/
def execLockLossTimeout (s : State) : Out :=
  s.eff fun e =>
    if e.get CLK_STATUS_STATE ≠ 6 then e
    else if e.lockstep then e.duoAnnounce.updClk fun c => { c with departing := true }
    else e.refWatch e.relockApplied

/-- FREQ_MONITOR_WINDOW: `count` FABRIC cycles in 4,096 crystal cycles against
E = 51,200 × W / W_NOM; an error of 103 or more is a safe stop (R72). -/
def Engine.freqWindow (e : Engine) (count : Nat) : Engine :=
  if e.get CLK_STATUS_STATE ≠ 2 ∧ e.get CLK_STATUS_STATE ≠ 6 then e
  else
    let err : Int := (count * wNom : Nat) - (51200 * e.clkWord : Nat)
    let r := rndDiv err wNom
    let w := BitVec.ofInt 32 r
    let e := e.put CLK_MON_ERR w.toNat
    if 103 * wNom ≤ err.natAbs then
      e.refWatch ((e.safeStop true).raise (clkEvt 0x06 .fault 0xFF w.toNat))
    else e

def execFreqMonitorWindow (count : Nat) (s : State) : Out := s.eff fun e => e.freqWindow count

/-- The ESC holds, STOPPED reads 1 and SYS reports the ESC `g` at which GATHER stopped (R28,
R45). -/
def Engine.tickHold (e : Engine) (g : Nat) : Engine :=
  let e := e.putB TICK_CFG_STOPPED true
  let e := e.updTick fun t => { t with stopG := none, safeStop := false, startReq := false, started := none, discard := [] }
  let e := ((e.updCue fun c => { c with play := [] }).taqStop e.tick.esc).safeGuard e.tick.esc
  let e := (e.updPwr fun p => { p with rise := 0 }).raise (sysEvt 0x05 .note 0xFF (g % 2 ^ 32) (g / 2 ^ 32))
  e.refWatch e.relockHeld

/-- XTAL_FAIL: no crystal edge for 4 LPO cycles: the backup oscillator takes over, the ESC
holds at once and every output is muted (R73). -/
def Engine.xtalFail (e : Engine) : Engine :=
  if e.on CLK_STATUS_XFAIL then e
  else
    let t := (e.putB CLK_STATUS_XFAIL true).raise (clkEvt 0x08 .fault 0xFF 0)
    let t := (t.safeStop true).updClk fun c => { c with relock := none }
    let t := t.putB CLK_STATUS_RELOCK false
    let t := if e.stopped then t else t.tickHold e.tick.esc
    e.refWatch t

def execXtalFail (s : State) : Out := s.eff Engine.xtalFail

/-- Core `c` is the HOME of a pinned standing task that is armed: PENDING, READY, RUNNING or
PREEMPTED (Corners "Gating a busy core"). -/
def Engine.pinnedArmed (e : Engine) (c : Nat) : Bool :=
  e.liveDescs.any fun d =>
    let m := e.img d
    imgStanding m && imgPin m && imgHome m == c
      && decide (1 ≤ e.get (dState d)) && decide (e.get (dState d) ≤ 4)

/-- Unit `u` of CLK_GATE has no RUNNING or PREEMPTED task, no armed pinned standing task and
no job in progress (R66, Corners "Gating a busy core"). -/
def Engine.unitIdle (e : Engine) (u : Nat) : Bool :=
  if u < 16 then !e.coreBusy u && !e.pinnedArmed u
  else if u = 16 then (Tbl.get none e.sched.accel 1).isNone
  else if u = 17 then (Tbl.get none e.sched.accel 2).isNone
  else true

/-- SAP and MADI start afresh when their gate closes or opens: a closed gate acts as EN = 0
(R430). -/
def Engine.gatePorts (e : Engine) (was : Word) : Engine :=
  let g := e.rd CLK_GATE_STATUS
  let e := if bitOf g 18 = bitOf was 18 then e else (List.range 4).foldl Engine.grpStart e
  if bitOf g 19 = bitOf was 19 then e else (e.rxStart 0).rxStart 1

/-- CLK_GATE_WRITE. -/
def execClkGateWrite (v : Word) (s : State) : Out :=
  s.eff fun e => (e.gateWrite v).gatePorts (e.rd CLK_GATE_STATUS)

/-- CLK_GATE_CLOSE: at a block boundary the requested gate of an idle unit closes (R66). -/
def execClkGateClose (unit : Nat) (s : State) : Out :=
  s.eff fun e =>
    if unit < 21 && bitOf (e.rd CLK_GATE) unit && e.unitIdle unit then
      ((e.put ⟨CLK_GATE_STATUS, unit, 1⟩ 1).gatePorts (e.rd CLK_GATE_STATUS)).spkSettle
    else e

end Sys2Proof.Machine
end

