-- ==== Sys2Proof/Machine/Assay.lean ====
section
/-!
DEFINITION. Assay's scrubber, the effects and the lifting of a quarantine, and ADAPT: the
voltage, thermal and load loops and the degrade level (chapter "Assay, Adaptive Loops and
Degraded Operation", R670 to R688).
-/
namespace Sys2Proof.Machine

/-! ### Scrubber and quarantine -/

/-- The smallest address at or above `a` among `n` from `base` at stride `s`. -/
def nextAt (base n s a : Nat) : Option Nat :=
  let k := if a ≤ base then 0 else (a - base + s - 1) / s
  if k < n then some (base + k * s) else none

/-- The lowest address at or above `a` of a register array. -/
def RegRow.next (r : RegRow) (a : Nat) : Option Nat :=
  match r.dims with
  | [] => nextAt r.base 1 1 a
  | [(n, s)] => nextAt r.base n s a
  | (n, s) :: (m, t) :: _ =>
    let i := (a - r.base) / s
    if n ≤ i then none
    else match nextAt (r.base + i * s) m t a with
      | some x => some x
      | none => nextAt r.base n s a

/-- The lowest complement-paired register at or above `a` in the block registers (R31). -/
def nextCp (a : Nat) : Option Nat :=
  (List.range 0x31).foldl (fun best k =>
    ((blockRows k).filter (·.cp)).foldl (fun best r =>
      match r.next a, best with
      | some x, some y => some (min x y)
      | some x, none => some x
      | none, b => b) best) none

/-- The tenant to whom complement-paired register `a` belongs (R671). -/
def Engine.cpOwner (e : Engine) (a : Nat) : Option Nat :=
  if XLAT_WIN_BASE 0 0 ≤ a ∧ a < XLAT_WIN_BASE 16 0 then some ((a - XLAT_WIN_BASE 0 0) / 2048)
  else if SUMX_BUS_GAIN 0 ≤ a ∧ a < SUMX_BUS_GAIN 256 then some (e.busOwner ((a - SUMX_BUS_GAIN 0) / 8))
  else if SUMX_LIST_A 0 ≤ a ∧ a < SUMX_LIST_B 256 then some (e.busOwner ((a - SUMX_LIST_A 0) / 8 % 256))
  else if SAFE_GRP_CFG 0 ≤ a ∧ a < SAFE_GRP_CFG 16 then
    let t := e.get (SAFE_GRP_CFG_OWNER ((a - SAFE_GRP_CFG 0) / 16))
    if t < 16 then some t else none
  else if taqAddr 0 0 ≤ a ∧ a < taqAddr 1024 0 then some ((a - taqAddr 0 0) / 2048)
  else none

/-- ASSAY_SCRUB: the scrubber checks the next pair; after the last, a sweep is complete (R670). -/
def Engine.scrub (e : Engine) : Engine :=
  if e.on ASSAY_CTRL_SCRUB_EN = false then e
  else match nextCp e.assay.scrubAt with
    | some a =>
      let e := (e.cpCheck a (e.cpOwner a)).resetAnnounce.updAssay fun x => { x with scrubAt := a + 8 }
      if (nextCp (a + 8)).isSome then e
      else (e.wrap ASSAY_SWEEPS_COUNT).updAssay fun x => { x with scrubAt := 0 }
    | none => e.updAssay fun x => { x with scrubAt := 0 }

def execAssayScrub (s : State) : Out := s.eff Engine.scrub

/-- TRACK_ENTRY_EXPIRE: items whose newest mismatch is 1 s old leave the table (R671). -/
def execTrackEntryExpire (s : State) : Out :=
  s.eff fun e =>
    (e.updAssay fun x => { x with
      tracked := x.tracked.filter fun t => decide (e.now < t.hits.headD 0 + oneSecCyc) }).assayShow

/-- A write of ASSAY_QCLR by the control core: the quarantine of the complement-paired register
at that address is lifted; it keeps its hold, and a window matches again at its next good CTRL
pair (R672, R673). -/
def Engine.quarClear (e : Engine) (by_ : Sender) (a : Nat) : Engine :=
  let a := a / 4 * 4
  if by_.isCC = false then e.raise (assayEvt 0x09 .warn by_.hm 0x030 0)
  else if isCpEven a && e.isQuar a then
    let owner := e.cpOwner a
    let e := e.quarLift a by_.hm owner
    if XLAT_WIN_BASE 0 0 ≤ a ∧ a < XLAT_WIN_BASE 16 0 then
      let i := (a - XLAT_WIN_BASE 0 0) / 64
      e.updXlat fun x => { x with act := Tbl.set {} x.act i { Tbl.get {} x.act i with en := false } }
    else if SUMX_BUS_GAIN 0 ≤ a ∧ a < SUMX_BUS_GAIN 256 then
      let n := (a - SUMX_BUS_GAIN 0) / 8
      let l := retargetAt (Tbl.get [] e.sumx.gainQ n) one20 e.bStarEsc (e.sumxLen owner)
      e.updSumx fun x => { x with gainQ := Tbl.set [] x.gainQ n l }
    else if SUMX_LIST_A 0 ≤ a ∧ a < SUMX_LIST_B 256 then
      let n := (a - SUMX_LIST_A 0) / 8 % 256
      let l := retargetAt (Tbl.get [] e.sumx.listQ n) one20 e.bStarEsc 0
      e.updSumx fun x => { x with listQ := Tbl.set [] x.listQ n l }
    else e
  else e

/-- QUAR_LIFTED. -/
def execQuarLifted (by_ : Sender) (addr : Nat) (s : State) : Out := s.eff fun e => e.quarClear by_ addr

/-- What the quarantine of item `a` does from ESC `s` (R672); `none` for an item of a bank that
is not active, which waits. -/
def Engine.quarFade (e : Engine) (a s : Nat) : Option Engine :=
  let n := e.nSamp
  if 0x50000000 ≤ a ∧ a < 0x50010000 then
    let i := (a - 0x50000000) / 4
    if i / 8192 = e.get ROUTE_STATUS_BANK then some (e.destChange (i % 8192) s (.quar n)) else none
  else if 0x50100000 ≤ a ∧ a < 0x50200000 then
    let i := (a - 0x50100000) / 8
    if i / 65536 = e.get SUMX_STATUS_BANK then some (e.conChange (i % 65536) s (.quar n)) else none
  else if chainAddr 0 0 ≤ a ∧ a < 0x50300000 then
    some (e.updChain ((a - chainAddr 0 0) / 32) fun x => { x with fade := x.fade.retarget 0 s n })
  else if SUMX_BUS_GAIN 0 ≤ a ∧ a < SUMX_BUS_GAIN 256 then
    let b := (a - SUMX_BUS_GAIN 0) / 8
    let l := retargetAt (Tbl.get [] e.sumx.gainQ b) 0 s n
    some (e.updSumx fun x => { x with gainQ := Tbl.set [] x.gainQ b l })
  else if SUMX_LIST_A 0 ≤ a ∧ a < SUMX_LIST_B 256 then
    let b := (a - SUMX_LIST_A 0) / 8
    if b / 256 = e.get SUMX_STATUS_BANK then
      let l := retargetAt (Tbl.get [] e.sumx.listQ (b % 256)) 0 s n
      some (e.updSumx fun x => { x with listQ := Tbl.set [] x.listQ (b % 256) l })
    else none
  else if taqAddr 0 0 ≤ a ∧ a < taqAddr 1024 0 then some (e.taqTouch ((a - taqAddr 0 0) / 32)).1
  else some e

/-- At a tick start, the quarantines since the last one take effect from the block that enters
COMPUTE, whose first sample is ESC `s` (R672). -/
def Engine.quarTick (e : Engine) (s : Nat) : Engine :=
  (e.assay.quar.filter fun a => !e.assay.faded.contains a).foldl (fun e a =>
    match e.quarFade a s with
    | some t => if t.isQuar a then t.updAssay fun x => { x with faded := x.faded ++ [a] } else t
    | none => e) e

/-- A write of an ASSAY register (R686). -/
def Engine.assayRegWrite (e : Engine) (by_ : Sender) (off : Nat) (v : Word) : Engine :=
  if by_.isCC = false then e.raise (assayEvt 0x09 .warn by_.hm off 0)
  else match off with
    | 0x000 => e.putB ASSAY_CTRL_SCRUB_EN (bitOf v 0)
    | 0x004 => e.wr ASSAY_EVT_STATUS (e.rd ASSAY_EVT_STATUS &&& ~~~ v)
    | 0x030 => e.quarClear by_ v.toNat
    | _ => e

/-! ### The degrade level -/

/-- An ADAPT event. -/
def adaptEvt (code : Nat) (sev : Sev) (w2 w3 : Nat) (hm : Nat := 0xFF) : Evt :=
  { block := 0x16, code := code, sev := sev, hm := hm, w2 := w2, w3 := w3 }

/-- A safety limit is in force. -/
def Engine.safetyOn (e : Engine) : Bool := e.on ADAPT_STATUS_SAFE_THERM || e.on ADAPT_STATUS_SAFE_UV

/-- CORE runs at 3/4 at D3 and while a safety limit acts (R65, R679, R681, R683). -/
def Engine.coreSlowShow (e : Engine) : Engine :=
  e.putB CLK_STATUS_CORE_SLOW (e.safetyOn || e.get ADAPT_STATUS_LEVEL == 3)

/-- What SCHED reads of the level (R683). -/
def Engine.shedShow (e : Engine) : Engine :=
  let l := e.get ADAPT_STATUS_LEVEL
  (e.put SCHED_SHED_LEVEL l).put SCHED_SHED_PRIO (if l = 0 then 16 else e.cp ADAPT_POLICY_SHED_PRIO)

/-- The computed level, the highest of FORCE and the three targets, and which of them stand at
it (R684). -/
def Engine.levelShow (e : Engine) : Engine :=
  let l := [e.adapt.volt, e.adapt.therm, e.adapt.load, e.cp ADAPT_POLICY_FORCE]
  let m := l.foldl max 0
  let c := if m = 0 then 0
    else (List.range 4).foldl (fun c i => if l.getD i 0 = m then c + 2 ^ i else c) 0
  (e.put ADAPT_STATUS_TARGET m).put ADAPT_STATUS_CAUSE c

/-- The applied level becomes `v`; a change raises LEVEL_CHANGED (R683, R684). -/
def Engine.levelSet (e : Engine) (v : Nat) : Engine :=
  let old := e.get ADAPT_STATUS_LEVEL
  if v = old then e
  else
    let e := (e.put ADAPT_STATUS_LEVEL v).updAdapt fun a => { a with below := 0 }
    (e.shedShow.coreSlowShow).raise (adaptEvt 0x01 .warn (old + 16 * v) (e.get ADAPT_STATUS_CAUSE))

/-- A DEADLINE_MISS episode is open (R287). -/
def Engine.missOpen (e : Engine) : Bool := (List.range 16).any fun t => e.on (SCHED_TSTAT_MISS_EPISODE t)

/-- The load target after a block (R682). -/
def Engine.loadEval (e : Engine) : Engine :=
  let f := min 127 e.adapt.fin
  let e := e.put ADAPT_LOAD_F f
  let a : AdaptSt := { e.adapt with fin := 0 }
  let dwell := e.get ADAPT_DWELL_TICKS
  let a : AdaptSt :=
    if e.cpOn ADAPT_POLICY_LOAD_EN = false then { a with load := 0, hiN := 0, missN := 0, loN := 0 }
    else
      let hi := if e.get ADAPT_LOAD_CFG_HI < f then a.hiN + 1 else 0
      let mi := if a.load = 2 ∧ e.missOpen = true then a.missN + 1 else 0
      let lo := if f < e.get ADAPT_LOAD_CFG_LO then a.loN + 1 else 0
      let a : AdaptSt := { a with hiN := hi, missN := mi, loN := lo }
      if 16 ≤ a.hiN ∧ a.load < 2 then { a with load := a.load + 1, hiN := 0, missN := 0 }
      else if 16 ≤ a.missN then { a with load := 3, missN := 0 }
      else if dwell ≤ a.loN then { a with load := a.load - 1, loN := 0 }
      else a
  e.updAdapt fun _ => a

/-- ADAPT at a tick start (R524, R679, R681, R684): a higher computed level applies at once; in
lockstep the level is the higher of the proposals of the tick D_F ticks earlier. -/
def Engine.adaptTick (e : Engine) : Engine :=
  let e := e.loadEval.levelShow
  let tgt := e.get ADAPT_STATUS_TARGET
  let lvl := e.get ADAPT_STATUS_LEVEL
  let at_ (l : List (Nat × Nat)) : Option Nat := (l.find? fun p => p.1 + e.dF == e.block).map (·.2)
  if e.safetyOn then e.levelSet 3
  else if e.lockstep then
    match at_ e.duo.props, at_ e.duo.peerProps with
    | some x, some y => e.levelSet (max x y)
    | some x, none => e.levelSet x
    | none, some y => e.levelSet (max tgt y)
    | none, none => e.levelSet tgt
  else if lvl < tgt then e.levelSet tgt
  else if tgt < lvl then e.updAdapt fun a => { a with below := a.below + 1 }
  else e.updAdapt fun a => { a with below := 0 }

/-- LEVEL_DWELL_STEP: below the applied level for ADAPT_DWELL ticks, one step down (R684). -/
def execLevelDwellStep (s : State) : Out :=
  s.eff fun e =>
    let lvl := e.get ADAPT_STATUS_LEVEL
    if e.lockstep || e.safetyOn || decide (lvl ≤ e.get ADAPT_STATUS_TARGET)
        || decide (e.adapt.below < e.get ADAPT_DWELL_TICKS) then e
    else e.levelSet (lvl - 1)

/-! ### Voltage -/

/-- The voltage request becomes `v` (R676). -/
def Engine.avsSet (e : Engine) (v : Nat) : Engine :=
  if v = e.get ADAPT_AVS_REQ_MV then e
  else (e.put ADAPT_AVS_REQ_MV v).raise (adaptEvt 0x06 .note v 0)

/-- With AVS_EN = 0 the request is CEIL (R676). -/
def Engine.avsFixed (e : Engine) : Engine :=
  if e.cpOn ADAPT_POLICY_AVS_EN then e else e.avsSet (e.cp ADAPT_AVS_CFG_CEIL)

/-- AVS_MEASUREMENT: the counts of the ring oscillators and the voltage on the die (R676 to
R679). -/
def Engine.avsMeasure (e : Engine) (counts : List Nat) (mv : Nat) : Engine :=
  let r := match counts with | [] => 0 | c :: cs => cs.foldl min c
  let e := (e.put ADAPT_RO_COUNT r).put ADAPT_AVS_MEAS_MV mv
  let ceil := e.cp ADAPT_AVS_CFG_CEIL
  let floor := e.cp ADAPT_AVS_CFG_FLOOR
  let low := decide (r * 1000 < 2400 * (1000 + e.get ADAPT_AVS_MARGIN_LO))
  let high := decide (2400 * (1000 + e.get ADAPT_AVS_MARGIN_HI) < r * 1000)
  let req := e.get ADAPT_AVS_REQ_MV
  let n := if ceil ≤ req then e.adapt.ceilN + 1 else 0
  let e :=
    if e.cpOn ADAPT_POLICY_AVS_EN = false then e.avsFixed
    else if low && decide (req < ceil) then e.avsSet (min ceil (req + 5))
    else if high && decide (floor < req) then e.avsSet (max floor (req - 5))
    else e
  let atCeil := low && decide (ceil ≤ e.get ADAPT_AVS_REQ_MV)
  let rose := atCeil && !e.on ADAPT_STATUS_AT_CEIL
  let e := e.putB ADAPT_STATUS_AT_CEIL atCeil
  let e := if rose then e.raise (adaptEvt 0x05 .warn r 0) else e
  let volt := if n < 8 then 0 else if r < 2400 then 3 else if low then 2 else 0
  let good := decide (2400 ≤ r ∧ 650 ≤ mv)
  let e := (e.updAdapt fun a => { a with ceilN := n, volt := volt, uvN := if good then a.uvN + 1 else 0 }).levelShow
  if r < 2352 ∨ mv < 640 then
    if e.on ADAPT_STATUS_SAFE_UV then e
    else ((e.put ADAPT_STATUS_SAFE_UV 1).coreSlowShow).raise (adaptEvt 0x03 .fault r mv)
  else if e.on ADAPT_STATUS_SAFE_UV
      && decide (1000 * e.get ADAPT_DWELL_TICKS * e.nSamp ≤ e.adapt.uvN * e.fs) then
    (e.put ADAPT_STATUS_SAFE_UV 0).coreSlowShow
  else e

def execAvsMeasurement (counts : List Nat) (mv : Nat) (s : State) : Out :=
  s.eff fun e => e.avsMeasure counts mv

/-! ### Temperature -/

/-- θ, the highest of the four sensors as ADAPT_TEMP holds them, in 0.25 °C (R680). -/
def Engine.theta (e : Engine) : Int :=
  let t (s : Nat) : Int := (BitVec.ofNat 11 (e.get (ADAPT_TEMP_TEMP s))).toInt
  max (max (t 0) (t 1)) (max (t 2) (t 3))

/-- θ as a word of an event. -/
def Engine.thetaWord (e : Engine) : Nat := (BitVec.ofInt 32 e.theta).toNat

/-- THERMAL_READING: the sensors in 0.25 °C; thresholds with 3 °C of hysteresis, and the
junction trip (R680, R681). -/
def Engine.thermal (e : Engine) (temps : List Int) : Engine :=
  let e := (List.range 4).foldl (fun e s => e.put (ADAPT_TEMP_TEMP s) (BitVec.ofInt 11 (temps.getD s 0)).toNat) e
  let th := e.theta
  let l : Int := 4 * e.cp ADAPT_THERM_CFG_LIMIT
  let hit (i : Nat) (d : Int) : Bool :=
    decide (l + d ≤ th) || (e.adapt.thr.getD i false && decide (l + d - 12 ≤ th))
  let thr := if e.cpOn ADAPT_POLICY_THERM_EN then [hit 0 0, hit 1 16, hit 2 32] else [false, false, false]
  let tgt := if thr.getD 2 false then 3 else if thr.getD 1 false then 2 else if thr.getD 0 false then 1 else 0
  let e := (e.updAdapt fun a => { a with
    thr := thr, therm := tgt,
    hotN := if 460 ≤ th then a.hotN + 1 else 0,
    coolN := if th < 440 then a.coolN + 1 else 0 }).levelShow
  let e := if th < 420 then e.put ADAPT_STATUS_STOPPED 0 else e
  if 460 ≤ th then
    if e.on ADAPT_STATUS_SAFE_THERM then e
    else ((e.put ADAPT_STATUS_SAFE_THERM 1).coreSlowShow).raise (adaptEvt 0x02 .fault e.thetaWord 0)
  else if e.on ADAPT_STATUS_SAFE_THERM && decide (1001 ≤ e.adapt.coolN) then
    (e.put ADAPT_STATUS_SAFE_THERM 0).coreSlowShow
  else e

def execThermalReading (t0 t1 t2 t3 : Int) (s : State) : Out :=
  s.eff fun e => e.thermal [t0, t1, t2, t3]

/-- THERM_STOP: 115 °C held for 1 s after the trip, or 125 °C: a safe stop that keeps the clocks
(R681). -/
def execThermStop (s : State) : Out :=
  s.eff fun e =>
    if e.on ADAPT_STATUS_STOPPED || !(decide (1001 ≤ e.adapt.hotN) || decide (500 ≤ e.theta)) then e
    else ((e.safeStop false).put ADAPT_STATUS_STOPPED 1).raise (adaptEvt 0x04 .fault e.thetaWord 0)

/-! ### Registers -/

def Engine.adaptRefuse (e : Engine) (by_ : Sender) (off : Nat) : Engine :=
  e.raise (adaptEvt 0x07 .warn off 0 by_.hm)

/-- An ADAPT pair takes effect (R687). -/
def Engine.adaptPair (e : Engine) (by_ : Sender) (off : Nat) (v : Word) : Engine :=
  let f := bitsOf v 0 10
  let c := bitsOf v 16 10
  if by_.isCC = false then e.adaptRefuse by_ off
  else match off with
    | 0x010 =>
      if 16 < bitsOf v 16 5 then e.adaptRefuse by_ off
      else ((e.wrCp ADAPT_POLICY (v &&& 0x001F0307#32)).avsFixed.levelShow).shedShow
    | 0x018 =>
      if 650 ≤ f ∧ f ≤ c ∧ c ≤ 850 then (e.wrCp ADAPT_AVS_CFG (v &&& 0x03FF03FF#32)).avsFixed
      else e.adaptRefuse by_ off
    | 0x020 =>
      if 80 ≤ bitsOf v 0 7 ∧ bitsOf v 0 7 ≤ 106 then e.wrCp ADAPT_THERM_CFG (v &&& 0x7F#32)
      else e.adaptRefuse by_ off
    | _ => e

/-- A write of an ADAPT register (R687). -/
def Engine.adaptRegWrite (e : Engine) (by_ : Sender) (off : Nat) (v : Word) : Engine :=
  if by_.isCC = false then e.adaptRefuse by_ off
  else match off with
    | 0x004 => e.wr ADAPT_EVT_STATUS (e.rd ADAPT_EVT_STATUS &&& ~~~ v)
    | 0x028 => if bitsOf v 8 8 ≤ bitsOf v 0 8 then e.adaptRefuse by_ off else e.wr ADAPT_AVS_MARGIN (v &&& 0xFFFF#32)
    | 0x050 => if bitsOf v 0 7 ≤ bitsOf v 8 7 then e.adaptRefuse by_ off else e.wr ADAPT_LOAD_CFG (v &&& 0x7F7F#32)
    | 0x058 => if bitsOf v 0 24 = 0 then e.adaptRefuse by_ off else e.wr ADAPT_DWELL (v &&& 0xFFFFFF#32)
    | _ => e

end Sys2Proof.Machine
end

