-- ==== Sys2Proof/Machine/Flags.lean ====
section
/-!
DEFINITION. The condition flags of Isalorin: what each arithmetic instruction
writes to Z, N, C, V and SAT beside its result (R154, R200, R201, R204, R205).
-/
namespace Sys2Proof.Machine

/-- A result and the flags written with it: whether Z and N are, what C and V become
(`none`: unchanged), and whether SAT is set. -/
structure AluRes where
  val : Word
  zn  : Bool := false
  c   : Option Bool := none
  v   : Option Bool := none
  sat : Bool := false
  deriving DecidableEq, Repr

/-- The result fits 32 bits as a signed value. -/
def fits32 (v : Int) : Bool := decide (-2147483648 ≤ v ∧ v ≤ 2147483647)

/-- Carry out of bit 31 of a sum (R204). -/
def carryAdd (a b : Word) : Bool := decide (2 ^ 32 ≤ a.toNat + b.toNat)

/-- Signed overflow of a sum (R204). -/
def overAdd (a b : Word) : Bool := !fits32 (a.toInt + b.toInt)

/-- No borrow in a difference (R204). -/
def noBorrow (a b : Word) : Bool := decide (b.toNat ≤ a.toNat)

/-- Signed overflow of a difference (R204). -/
def overSub (a b : Word) : Bool := !fits32 (a.toInt - b.toInt)

/-- A signed value clamped to 32 bits (R200). -/
def sat32 (v : Int) : Word := wordOfInt (clampInt (-2147483648) 2147483647 v)

/-- The magnitude of R200: 0x7FFF_FFFF for the most negative value. -/
def mag (x : Word) : Word := if x = 0x80000000#32 then 0x7FFFFFFF#32 else wordOfInt x.toInt.natAbs

/-- ADD and ADDI (R199, R202, R204). -/
def aluAdd (a b : Word) : AluRes :=
  { val := a + b, zn := true, c := some (carryAdd a b), v := some (overAdd a b) }

/-- SUB (R199, R204). -/
def aluSub (a b : Word) : AluRes :=
  { val := a - b, zn := true, c := some (noBorrow a b), v := some (overSub a b) }

/-- ADDS (R200, R204): C and V are those of the unsaturated sum. -/
def aluAdds (a b : Word) : AluRes :=
  { val := sat32 (a.toInt + b.toInt), zn := true, c := some (carryAdd a b),
    v := some (overAdd a b), sat := overAdd a b }

/-- SUBS (R200, R204). -/
def aluSubs (a b : Word) : AluRes :=
  { val := sat32 (a.toInt - b.toInt), zn := true, c := some (noBorrow a b),
    v := some (overSub a b), sat := overSub a b }

/-- The logic forms write Z and N (R204). -/
def aluLogic (v : Word) : AluRes := { val := v, zn := true }

/-- Forms that write no flag. -/
def aluPlain (v : Word) : AluRes := { val := v }

/-- The shift kinds of R199 and R202. -/
inductive Shift where
  | shl | shr | sra
  deriving DecidableEq, Repr

/-- A shift of `a` by `k` (0 to 63) with its carry (R199, R205): unchanged C for k = 0. -/
def aluShift (kind : Shift) (a : Word) (k : Nat) : AluRes :=
  let sign := a.getLsbD 31
  if k = 0 then { val := a, zn := true }
  else if k < 32 then
    match kind with
    | .shl => { val := a <<< k, zn := true, c := some (a.getLsbD (32 - k)) }
    | .shr => { val := a >>> k, zn := true, c := some (a.getLsbD (k - 1)) }
    | .sra => { val := a.sshiftRight k, zn := true, c := some (a.getLsbD (k - 1)) }
  else
    match kind with
    | .shl => { val := 0#32, zn := true, c := some false }
    | .shr => { val := 0#32, zn := true, c := some false }
    | .sra => { val := if sign then 0xFFFFFFFF#32 else 0#32, zn := true, c := some sign }

/-- NEG (R201, R204): C is 1 when ra = 0. -/
def aluNeg (a : Word) : AluRes := aluSub 0#32 a

/-- ABS (R201, R204): V is written, SAT set for the most negative value. -/
def aluAbs (a : Word) : AluRes :=
  let m := decide (a = 0x80000000#32)
  { val := mag a, zn := true, v := some m, sat := m }

/-- PEAK (R199, R200). -/
def aluPeak (a b : Word) : AluRes := aluPlain (if a.toNat < (mag b).toNat then mag b else a)

/-- Leading zero bits (R201). -/
def clz32 (a : Word) : Nat :=
  (List.range 32).foldl (fun n i => if a.getLsbD i then 31 - i else n) 32

/-- Bits after bit 31 equal to bit 31 (R201). -/
def cls32 (a : Word) : Nat := clz32 (if a.getLsbD 31 then ~~~ a else a) - 1

end Sys2Proof.Machine
end

