-- ==== Sys2Proof/Machine/Operands.lean ====
section
/-!
DEFINITION. Isalorin's operand forms: immediates with and without EXT (R197, R222),
addresses and post-modify (R160, R225), comparisons (R203), product alignment (R209),
accumulator saturation (R158), narrowing (R215), and the log format (R207, R208).
-/
namespace Sys2Proof.Machine

/-- A 12-bit immediate sign-extended (R197). -/
def sext12 (i : Nat) : Word := (BitVec.ofNat 12 i).signExtend 32

/-- A 12-bit immediate zero-extended (R197). -/
def zext12 (i : Nat) : Word := BitVec.ofNat 32 (i % 2 ^ 12)

/-- The immediate of an instruction that accepts EXT: X × 2^12 + imm12 behind a
prefix, else imm12 extended (R197, R222). -/
def CoreCtx.imm (x : CoreCtx) (signed : Bool) (i : Nat) : Word :=
  match x.ext with
  | some (hi, _) => BitVec.ofNat 32 (hi % 2 ^ 20 * 2 ^ 12 + i % 2 ^ 12)
  | none => if signed then sext12 i else zext12 i

/-- The post-modify of R160: pointer `n` moved by `step` words, wrapped into its
circular buffer when its length is not 0. -/
def CoreCtx.postMod (x : CoreCtx) (n : Nat) (step : Word) : Word :=
  let p := (x.rdP n).toNat
  let b := (x.rdB n).toNat
  let l := x.rdL n
  if l = 0 then wordOfInt ((p : Int) + 4 * step.toInt)
  else wordOfInt ((b : Int) + ((p : Int) - b + 4 * step.toInt).fmod (4 * l))

/-- The comparisons of R203, by condition code. -/
def cmpCond (cond : Nat) (a b : Word) : Bool :=
  match cond with
  | 0 => a == b
  | 1 => a != b
  | 2 => decide (a.toInt < b.toInt)
  | 3 => decide (b.toInt ≤ a.toInt)
  | 4 => decide (a.toNat < b.toNat)
  | 5 => decide (b.toNat ≤ a.toNat)
  | 6 => decide (a.toInt ≤ b.toInt)
  | _ => decide (b.toInt < a.toInt)

/-- The flag conditions of PFLAG, by FC (R244). -/
def CoreCtx.flagCond (x : CoreCtx) (fc : Nat) : Bool :=
  let f := match fc / 2 with
    | 0 => x.z | 1 => x.n | 2 => x.c | 3 => x.v | _ => x.sat
  if fc % 2 = 0 then f else !f

/-- The left shift FMT applies to a product (R209). -/
def fmtShift (fmt : Nat) : Nat :=
  match fmt with
  | 0 => 1 | 1 => 2 | 2 => 12 | 3 => 3 | _ => 0

/-- The second operand of a product: for FMT 2 the gain in bits [23:0] (R156, R209). -/
def fmtOperand (fmt : Nat) (w : Word) : Int :=
  if fmt = 2 then (w.extractLsb' 0 24).toInt else w.toInt

/-- An exact aligned product (R157, R209). -/
def product (fmt : Nat) (a b : Word) : Int := a.toInt * fmtOperand fmt b * 2 ^ fmtShift fmt

/-- The 72-bit accumulator limits (R158). -/
def accMax : Int := 2 ^ 71 - 1
def accMin : Int := -(2 ^ 71)

/-- Accumulator `i` written with a value saturated to 72 bits, SAT set when it
saturates (R158). -/
def CoreCtx.accSat (x : CoreCtx) (i : Nat) (v : Int) : CoreCtx :=
  let x := if v < accMin ∨ accMax < v then { x with sat := true } else x
  x.wrA i (clampInt accMin accMax v)

/-- The narrowing of accumulator value `a` with shift `s` (R215): the word, and whether
it saturated. `trn` truncates; `satEn` saturates. -/
def narrow (a : Int) (s : Int) (trn satEn : Bool) : Word × Bool :=
  let k := s.toNat
  let d := (32 - s).toNat
  let r := if 32 ≤ s then a * 2 ^ (k - 32)
    else if trn then a.fdiv (2 ^ d)
    else (2 * a + 2 ^ d).fdiv (2 ^ (d + 1))
  if satEn then (sat32 r, !fits32 r) else (wordOfInt r, false)

/-- The rounding an rm field selects: 0 CORE_MODE.RMODE, 1 RND, 2 TRN (R218). -/
def CoreCtx.trn (x : CoreCtx) (rm : Nat) : Bool :=
  match rm with | 0 => x.rmode | 1 => false | _ => true

/-- The saturation an sm field selects: 0 CORE_MODE.SATEN, 1 saturate, 2 wrap (R218). -/
def CoreCtx.satSel (x : CoreCtx) (sm : Nat) : Bool :=
  match sm with | 0 => x.saten | 1 => true | _ => false

/-- A 6-bit shift field as its signed value (R215, R218). -/
def shift6 (s : Nat) : Int := (BitVec.ofNat 6 s).toInt

/-! ### Logarithm and exponent -/

/-- Precision of the interval arithmetic below, in bits. -/
def logPrec : Nat := 120

/-- `n` binary digits of log2 of `y / 2^logPrec` in [1, 2), most significant first, by
repeated squaring. -/
def log2Digits : Nat → Nat → Nat → Nat
  | 0, _, acc => acc
  | n + 1, y, acc =>
    let y2 := y * y / 2 ^ logPrec
    if 2 ^ (logPrec + 1) ≤ y2 then log2Digits n (y2 / 2) (2 * acc + 1)
    else log2Digits n y2 (2 * acc)

/-- RND((log2 x − 31) × 2^26) for x ≥ 1 (R207): 27 digits of the fraction, the last
rounding the other 26. -/
def log2Code (x : Nat) : Int :=
  let k := x.log2
  let y := x * 2 ^ (logPrec - k)
  let d := log2Digits 27 y 0
  (k : Int) * 2 ^ 26 + ((d + 1) / 2 : Nat) - 31 * 2 ^ 26

/-- LOG2 (R207). -/
def aluLog2 (a : Word) : AluRes :=
  aluPlain (if a = 0#32 then 0x80000000#32 else wordOfInt (log2Code a.toNat))

/-- ⌊√v⌋ bit by bit from bit `n - 1` down. -/
def isqrtBits : Nat → Nat → Nat → Nat
  | 0, _, r => r
  | n + 1, v, r =>
    let t := r + 2 ^ n
    if t * t ≤ v then isqrtBits n v t else isqrtBits n v r

/-- The product of 2^(2^-j) over the set bits of a 26-bit fraction, in units of
2^-logPrec: `c` is 2^(2^-(26 - n)). -/
def exp2Prod : Nat → Nat → Nat → Nat → Nat
  | 0, _, _, m => m
  | n + 1, f, c, m =>
    let c := isqrtBits (logPrec + 1) (c * 2 ^ logPrec) 0
    let m := if f.testBit n then m * c / 2 ^ logPrec else m
    exp2Prod n f c m

/-- RND(2^(y / 2^26) × 2^q) (R208). -/
def exp2Code (y : Int) (q : Nat) : Int :=
  let i := y.fdiv (2 ^ 26)
  let f := (y.fmod (2 ^ 26)).toNat
  let m := exp2Prod 26 f (2 ^ (logPrec + 1)) (2 ^ logPrec)
  let sh := i + q
  if 0 ≤ sh then (2 * (m * 2 ^ sh.toNat : Nat) + 2 ^ logPrec : Nat) / 2 ^ (logPrec + 1)
  else (2 * m + 2 ^ (logPrec + sh.natAbs) : Nat) / (2 ^ (logPrec + sh.natAbs + 1) : Nat)

/-- EXP2 and EXP2G: the result held at `lim`, SAT set when it is held (R208). -/
def aluExp2 (q : Nat) (lim : Int) (a : Word) : AluRes :=
  let r := exp2Code a.toInt q
  { val := wordOfInt (min r lim), sat := decide (lim < r) }

end Sys2Proof.Machine
end

