-- ==== Sys2Proof/Machine/CoreExec.lean ====
section
/-!
DEFINITION. How a core executes an instruction: fetch spaces (R162, R163), traps
(R176 to R180), predication and the order of checks (R177, R194 to R196), locked
sequences (R185), the EXT prefix (R222 to R224), loop-back (R183) and branches (R184).
-/
namespace Sys2Proof.Machine

/-- A core's instruction fetch from `pc` is in its fetch spaces (R162, R163). -/
def Engine.fetchable (e : Engine) (c pc : Nat) : Bool :=
  if c = 16 then
    decide (pc < 0x10000) || decide (0x61040000 ≤ pc ∧ pc < 0x61080000)
      || (match ingotOf pc with | some n => e.ingotOwner n == 0x20 | none => false)
  else decide (pc < 0x10000)

/-! ### Traps -/

/-- The context a trap entry makes (R177): PSW saved, TE set, the mode entered, LK
cleared, and the vector fetched. -/
def CoreCtx.trapEntry (x : CoreCtx) (vec slot pc addr mode target : Nat) : CoreCtx :=
  { x with
    trapPsw := x.pswWord, trapPc := BitVec.ofNat 32 pc,
    trapCause := BitVec.ofNat 32 (vec + 2 ^ 8 * slot), trapAddr := BitVec.ofNat 32 addr,
    te := true, mode := mode, lk := false, lockN := 0, ext := none, pc := target % 2 ^ 32 }

/-- The last trap of core `c` is shown, handled or not (R191). -/
def Engine.showTrap (e : Engine) (c vec slot pc addr : Nat) : Engine :=
  let e := e.wr (CORE_LAST_CAUSE c)
    (BitVec.ofNat 32 (vec + 2 ^ 8 * slot + 2 ^ 16 * (e.ctxOf c).task))
  (e.wr (CORE_LAST_PC c) (BitVec.ofNat 32 pc)).wr (CORE_LAST_ADDR c) (BitVec.ofNat 32 addr)

/-- Trap entry of core `c` into mode `mode` at `base + 32 × vec` (R177); the reservation
is cleared (R188). -/
def Engine.trapEnter (e : Engine) (c vec slot pc addr mode target : Nat) : Engine :=
  let e := e.setCtx c ((e.ctxOf c).trapEntry vec slot pc addr mode target)
  e.updCore c fun k => { k with resv := none, wait := .run, deferred := none }

/-- A debug step is over: the core is halted again (R656). -/
def Engine.stepOver (e : Engine) (c : Nat) : Engine :=
  (e.updCore c fun k => { k with step := false }).dbgEvt 0x05 .note c (e.ctxOf c).pc true

/-- TAKING A TRAP (R176 to R179). On an Anvil core it vectors when its bit in
CORE_TRAP_HANDLE is set and else ends the task FAULTED; a double trap ends it too. On
the control core every trap vectors; a double trap goes to MONITOR, and in MONITOR
the core halts. The task's end shows vector 0x1F for a double trap. -/
def Engine.trapTake (e : Engine) (c vec pc addr slot : Nat) : Engine :=
  let x := e.ctxOf c
  let e := e.showTrap c vec slot pc addr
  if c = 16 then
    if x.te then
      if x.mode = 2 then e.updCore c fun k => { k with halted := true, resv := none }
      else e.trapEnter c vec slot pc addr 2 (e.get CC_MON_VBASE_VBASE * 2 ^ 10 + 32 * 0x1F)
    else if x.mode = 2 ∨ vec = 0x0E then
      e.trapEnter c vec slot pc addr 2 (e.get CC_MON_VBASE_VBASE * 2 ^ 10 + 32 * vec)
    else e.trapEnter c vec slot pc addr 1 (e.get (CORE_TRAP_VBASE_VBASE c) * 2 ^ 10 + 32 * vec)
  else if x.te then
    let first := bitsOf x.trapCause 0 5
    (e.coreEvt c 0x04 .fault first vec (e.coreHm c)).taskFaulted c 0x1F
  else if (e.rd (CORE_TRAP_HANDLE c)).getLsbD vec then
    e.trapEnter c vec slot pc addr 1 (e.get (CORE_TRAP_VBASE_VBASE c) * 2 ^ 10 + 32 * vec)
  else
    (e.coreEvt c 0x01 .fault (vec + 2 ^ 16 * x.task) addr (e.coreHm c)).taskFaulted c vec

/-- A trap, and what it means to the debugger: it ends a debug step (R656), and a halt that its
locked sequence deferred takes place (R185). -/
def Engine.trap (e : Engine) (c vec pc : Nat) (addr : Nat := 0) (slot : Nat := 0) : Engine :=
  let k := e.coreOf c
  let halt := match k.deferred with | some (.halt, _) => true | _ => false
  let e := e.trapTake c vec pc addr slot
  if halt then e.debugHalt c else if k.step then e.stepOver c else e

/-! ### Flow -/

/-- The instruction at `x.pc` completes (R183): the loop-back decision of the innermost
level, level 0 only when level 1 closes; within a lock the instruction counts (R185). -/
def CoreCtx.advance (x : CoreCtx) : CoreCtx :=
  let x : CoreCtx := { x with ext := none, lockN := if x.lk then x.lockN + 1 else 0 }
  let seq := (x.pc + 4) % 2 ^ 32
  let atEnd (k : Nat) : Bool := (Tbl.get 0#32 x.lend k).toNat == x.pc
  let cnt (k : Nat) : Nat := (Tbl.get 0#32 x.lcnt k).toNat
  let back (x : CoreCtx) (k : Nat) : CoreCtx :=
    { x with lcnt := Tbl.set 0#32 x.lcnt k (BitVec.ofNat 32 (cnt k - 1)),
             pc := (Tbl.get 0#32 x.lbeg k).toNat }
  if x.depth = 2 ∧ atEnd 1 = true then
    if 1 < cnt 1 then back x 1
    else
      let x : CoreCtx := { x with depth := 1 }
      if atEnd 0 then (if 1 < cnt 0 then back x 0 else { x with depth := 0, pc := seq })
      else { x with pc := seq }
  else if x.depth = 1 ∧ atEnd 0 = true then
    if 1 < cnt 0 then back x 0 else { x with depth := 0, pc := seq }
  else { x with pc := seq }

/-- A taken branch to `target` (R184): levels whose body does not hold it close, with
every level inside them. -/
def CoreCtx.jump (x : CoreCtx) (target : Nat) : CoreCtx :=
  let holds (k : Nat) : Bool :=
    decide ((Tbl.get 0#32 x.lbeg k).toNat ≤ target ∧ target ≤ (Tbl.get 0#32 x.lend k).toNat)
  let d := if 1 ≤ x.depth ∧ holds 0 = false then 0
    else if x.depth = 2 ∧ holds 1 = false then 1
    else x.depth
  { x with ext := none, depth := d, pc := target % 2 ^ 32 }

/-- The address a trap of the instruction reports: the EXT's, behind a prefix (R224). -/
def CoreCtx.trapAt (x : CoreCtx) : Nat :=
  match x.ext with
  | some (_, p) => p
  | none => x.pc

/-- The predicate governs the instruction (R195). -/
def CoreCtx.executes (x : CoreCtx) (i : Issue) : Bool := x.rdQ i.q != i.inv

/-- A debug step ends with the instruction, or with the locked sequence it opened (R656). -/
def Engine.stepEnd (e : Engine) (c : Nat) : Engine :=
  let x := e.ctxOf c
  if (e.coreOf c).step && (e.coreOf c).wait == .run && x.ext.isNone && !x.lk then e.stepOver c
  else e

/-- What an instruction needs before it executes: encodings it refuses, whether it
accepts EXT, whether a locked sequence forbids it, and the least mode. -/
structure Need where
  illegal : Bool := false
  ext     : Bool := false
  unlock  : Bool := false
  mode    : Nat := 0
  deriving DecidableEq, Repr

/-- An instruction issues on core `i.core`: IFETCH, then ILLEGAL whatever the predicate
(R196, R223), then the predicate, PRIV, LOCK (R185), and its effect `f`, which says
itself how the core goes on. A core that does not issue does nothing. -/
def Engine.issue (e : Engine) (i : Issue) (n : Need) (f : Engine → Engine) : Engine :=
  let c := i.core
  let x := e.ctxOf c
  if e.issuing c = false then e
  else if e.fetchable c x.pc = false then e.trap c 0x02 (if x.ext.isSome then x.trapAt else x.pc)
  else if i.bad || n.illegal || (x.ext.isSome && !n.ext) then e.trap c 0x00 x.trapAt
  else if x.executes i = false then (e.setCtx c x.advance).stepEnd c
  else if x.mode < n.mode then e.trap c 0x01 x.trapAt
  else if x.lk && (n.unlock || decide (16 ≤ x.lockN)) then e.trap c 0x03 x.trapAt
  else (f e).stepEnd c

/-- An instruction whose effect is on its context alone. -/
def Engine.issueCtx (e : Engine) (i : Issue) (n : Need) (f : CoreCtx → CoreCtx) : Engine :=
  e.issue i n fun e => e.setCtx i.core (f (e.ctxOf i.core)).advance

/-- A result written to `rd`, with its flags (R204). -/
def CoreCtx.putRes (x : CoreCtx) (rd : Nat) (r : AluRes) : CoreCtx :=
  let x := x.wrG rd r.val
  { x with z := if r.zn then r.val == 0#32 else x.z,
           n := if r.zn then r.val.getLsbD 31 else x.n,
           c := r.c.getD x.c, v := r.v.getD x.v, sat := x.sat || r.sat }

/-- A register form (R199): rd from ra and rb. -/
def Engine.aluR (e : Engine) (i : Issue) (rd ra rb : Nat) (f : Word → Word → AluRes) : Engine :=
  e.issueCtx i {} fun x => x.putRes rd (f (x.rdG ra) (x.rdG rb))

/-- A unary form (R201): rd from ra. -/
def Engine.aluU (e : Engine) (i : Issue) (rd ra : Nat) (f : Word → AluRes) : Engine :=
  e.issueCtx i {} fun x => x.putRes rd (f (x.rdG ra))

/-- An immediate form that accepts EXT (R197, R202). -/
def Engine.aluI (e : Engine) (i : Issue) (rd ra imm : Nat) (signed : Bool)
    (f : Word → Word → AluRes) : Engine :=
  e.issueCtx i { ext := true } fun x => x.putRes rd (f (x.rdG ra) (x.imm signed imm))

end Sys2Proof.Machine
end

