-- ==== Sys2Proof/Machine/Flow.lean ====
section
/-!
DEFINITION. EXT, pointers, branches, loops, special registers, locks, traps and
returns, tick and task instructions, the control core's privileged instructions, and
the events that interrupt a core (chapters "Isalorin Programming Model" and "Isalorin
Memory, Flow and System Instructions"). Loads, stores and SPLIT are in
Machine/CoreMem.lean.
-/
namespace Sys2Proof.Machine

/-! ### EXT and pointers -/

/-- EXT with value X: the prefix waits for its successor (R222); a predicate other than
Q0, or an EXT at the last instruction of an active loop level, is ILLEGAL (R223). -/
def Engine.ext (e : Engine) (i : Issue) (x20 : Nat) : Engine :=
  let c := i.core
  let x := e.ctxOf c
  let atEnd := (List.range x.depth).any fun k => (Tbl.get 0#32 x.lend k).toNat == x.pc
  e.issue i { illegal := i.q != 0 || i.inv || atEnd } fun e =>
    let x := e.ctxOf c
    e.setCtx c { x with ext := some (x20 % 2 ^ 20, x.pc), pc := (x.pc + 4) % 2 ^ 32,
                        lockN := if x.lk then x.lockN + 1 else 0 }

def execExt (i : Issue) (x20 : Nat) (s : State) : Out := s.eff fun e => e.ext i x20

/-- MTP: g to Pn, Bn, Ln or Mn (R230). -/
def execMtp (i : Issue) (k : PKind) (n g : Nat) (s : State) : Out :=
  s.eff fun e => e.issueCtx i {} fun x =>
    let v := x.rdG g
    match k with
    | .p => x.wrP n v
    | .b => { x with b := Tbl.set 0#32 x.b n v }
    | .l => { x with l := Tbl.set 0 x.l n (bitsOf v 0 20) }
    | .m => { x with m := Tbl.set 0#32 x.m n v }

/-- MFP: Pn, Bn, Ln or Mn to g (R230). -/
def execMfp (i : Issue) (k : PKind) (n g : Nat) (s : State) : Out :=
  s.eff fun e => e.issueCtx i {} fun x =>
    x.wrG g (match k with
      | .p => x.rdP n | .b => x.rdB n | .l => BitVec.ofNat 32 (x.rdL n) | .m => x.rdM n)

/-- PSTEP: Pn post-modified by an immediate step in words (R230). -/
def execPstep (i : Issue) (n imm : Nat) (s : State) : Out :=
  s.eff fun e => e.issueCtx i { ext := true } fun x => x.wrP n (x.postMod n (x.imm true imm))

/-! ### Branches and loops -/

/-- A taken branch, which a locked sequence forbids (R185). -/
def Engine.branch (e : Engine) (i : Issue) (f : CoreCtx → CoreCtx) : Engine :=
  e.issue i { unlock := true } fun e => e.setCtx i.core (f (e.ctxOf i.core))

/-- The target of a PC-relative branch by a signed word offset of 23 bits (R238). -/
def brTarget (pc off : Nat) : Nat :=
  (wordOfInt ((pc : Int) + 4 * (BitVec.ofNat 23 off).toInt)).toNat

/-- BR (R238). -/
def execBr (i : Issue) (off : Nat) (s : State) : Out :=
  s.eff fun e => e.branch i fun x => x.jump (brTarget x.pc off)

/-- BRL: also the return address to G31 (R238). -/
def execBrl (i : Issue) (off : Nat) (s : State) : Out :=
  s.eff fun e => e.branch i fun x =>
    (x.wrG 31 (BitVec.ofNat 32 (x.pc + 4))).jump (brTarget x.pc off)

/-- JR: to ga with bits [1:0] zero, linking into gd when gd is not 0 (R239). -/
def execJr (i : Issue) (gd ga : Nat) (s : State) : Out :=
  s.eff fun e => e.branch i fun x =>
    (x.wrG gd (BitVec.ofNat 32 (x.pc + 4))).jump ((x.rdG ga).toNat / 4 * 4)

/-- A loop level opened, or its body skipped for a count of 0 (R182, R241, R242). A
third level, or LEND before LBEG, traps LOOP. -/
def Engine.openLoop (e : Engine) (c cnt lbeg lend : Nat) : Engine :=
  let x := e.ctxOf c
  if lend < lbeg then e.trap c 0x04 x.trapAt
  else if cnt = 0 then e.setCtx c { x with ext := none, pc := (lend + 4) % 2 ^ 32 }
  else if 2 ≤ x.depth then e.trap c 0x04 x.trapAt
  else
    let k := x.depth
    e.setCtx c { x with
      ext := none, depth := k + 1, pc := (x.pc + 4) % 2 ^ 32,
      lcnt := Tbl.set 0#32 x.lcnt k (BitVec.ofNat 32 cnt),
      lbeg := Tbl.set 0#32 x.lbeg k (BitVec.ofNat 32 lbeg),
      lend := Tbl.set 0#32 x.lend k (BitVec.ofNat 32 lend) }

/-- LOOP with a register or immediate count (R241, R242). -/
def Engine.loop (e : Engine) (i : Issue) (n : LoopCount) (body : Nat) : Engine :=
  let ext := match n with | .reg _ => false | .imm _ => true
  e.issue i { ext := ext, unlock := true } fun e =>
    let x := e.ctxOf i.core
    let cnt := match n with
      | .reg ga => (x.rdG ga).toNat
      | .imm k => (x.imm false k).toNat
    e.openLoop i.core (min cnt 65536) (x.pc + 4) (x.pc + 4 + 4 * body)

def execLoop (i : Issue) (n : LoopCount) (body : Nat) (s : State) : Out :=
  s.eff fun e => e.loop i n body

/-- LOOPS: the preset count, LBEG and LEND of the level being opened (R241, R242). -/
def Engine.loops (e : Engine) (i : Issue) : Engine :=
  e.issue i { unlock := true } fun e =>
    let x := e.ctxOf i.core
    if 2 ≤ x.depth then e.trap i.core 0x04 x.trapAt
    else
      let k := x.depth
      e.openLoop i.core (Tbl.get 0#32 x.lcnt k).toNat (Tbl.get 0#32 x.lbeg k).toNat
        (Tbl.get 0#32 x.lend k).toNat

def execLoops (i : Issue) (s : State) : Out := s.eff fun e => e.loops i

/-! ### Special registers -/

/-- What MFS reads (R153, R245). -/
def Engine.readSr (e : Engine) (c sr : Nat) : Word :=
  let x := e.ctxOf c
  match sr with
  | 0 => x.flagsWord | 1 => x.modeWord | 2 => x.pswWord
  | 3 => Tbl.get 0#32 x.lcnt 0 | 4 => Tbl.get 0#32 x.lbeg 0 | 5 => Tbl.get 0#32 x.lend 0
  | 6 => Tbl.get 0#32 x.lcnt 1 | 7 => Tbl.get 0#32 x.lbeg 1 | 8 => Tbl.get 0#32 x.lend 1
  | 9 => x.trapPc | 10 => x.trapCause | 11 => x.trapAddr | 12 => x.trapPsw
  | 13 => BitVec.ofNat 32 e.tcycle
  | _ => if c = 16 then 0#32 else BitVec.ofNat 32 (x.task % 2 ^ 12)

/-- MFS; sr 15 to 31 are ILLEGAL (R245). -/
def execMfs (i : Issue) (g sr : Nat) (s : State) : Out :=
  s.eff fun e => e.issue i { illegal := decide (15 ≤ sr) } fun e =>
    let v := e.readSr i.core sr
    e.setCtx i.core ((e.ctxOf i.core).wrG g v).advance

/-- What MTS writes (R153, R246): in PSW MODE, TE and IE only; unlisted bits are not kept. -/
def CoreCtx.writeSr (x : CoreCtx) (sr : Nat) (v : Word) : CoreCtx :=
  match sr with
  | 0 => x.setFlags v
  | 1 => { x with rmode := bitOf v 0, saten := bitOf v 1 }
  | 2 => { x with mode := bitsOf v 0 2, te := bitOf v 2, ie := bitOf v 3 }
  | 3 => { x with lcnt := Tbl.set 0#32 x.lcnt 0 v }
  | 4 => { x with lbeg := Tbl.set 0#32 x.lbeg 0 v }
  | 5 => { x with lend := Tbl.set 0#32 x.lend 0 v }
  | 6 => { x with lcnt := Tbl.set 0#32 x.lcnt 1 v }
  | 7 => { x with lbeg := Tbl.set 0#32 x.lbeg 1 v }
  | 8 => { x with lend := Tbl.set 0#32 x.lend 1 v }
  | 9 => { x with trapPc := v }
  | 10 => { x with trapCause := v &&& 0x11F#32 }
  | 11 => { x with trapAddr := v }
  | 12 => { x with trapPsw := v &&& 0x7F#32 }
  | _ => x

/-- MTS: PSW and the trap registers need SUPER; a PSW.MODE above the mode traps PRIV;
TCYCLE, TASK_IDX and sr 15 to 31 are ILLEGAL (R153, R175, R245). -/
def execMts (i : Issue) (g sr : Nat) (s : State) : Out :=
  s.eff fun e =>
    let super := sr == 2 || decide (9 ≤ sr ∧ sr ≤ 12)
    e.issue i { illegal := decide (13 ≤ sr), mode := if super then 1 else 0 } fun e =>
      let x := e.ctxOf i.core
      let v := x.rdG g
      if sr = 2 ∧ x.mode < bitsOf v 0 2 then e.trap i.core 0x01 x.trapAt
      else e.setCtx i.core (x.writeSr sr v).advance

/-! ### Pre-emption, locks and the debugger -/

/-- The core SCHED asks to be pre-empted for READY task `d` (R293): no eligible core is
idle; among eligible cores with a free bank and a running task of higher PRIO, the one
whose task has the highest PRIO, then the latest deadline, then the highest number. -/
def Engine.preemptCore (e : Engine) (d : Nat) : Option Nat :=
  let prio (c : Nat) : Nat := match (e.coreOf c).task with | some r => imgPrio (e.img r) | none => 0
  let dl (c : Nat) : Nat := match (e.coreOf c).task with | some r => e.absDeadline r | none => 0
  let elig := (List.range 16).filter fun c => e.eligible c d
  if elig.any fun c => (e.coreOf c).task.isNone then none
  else
    let cand := elig.filter fun c =>
      (e.coreOf c).freeBank.isSome && decide (imgPrio (e.img d) < prio c)
    cand.foldl (fun best c =>
      match best with
      | none => some c
      | some b =>
        if prio b < prio c ∨ (prio b = prio c ∧ (e.stopped = true ∨ dl b ≤ dl c)) then some c
        else best) none

/-- The running task of core `c` becomes PREEMPTED and `d` is dispatched (R190, R255). -/
def Engine.switchTo (e : Engine) (c d : Nat) : Engine :=
  match (e.coreOf c).task with
  | some r => ((e.put (dState r) tPreempted).freezeCtx c r).dispatch c d
  | none => e

/-- A pre-emption request for READY task `d` reaches core `c` (R190, R293); inside a
locked sequence it is deferred (R185). -/
def Engine.preempt (e : Engine) (c d : Nat) : Engine :=
  let k := e.coreOf c
  let stc := match k.wait with | .stc _ => true | _ => false
  if e.on SCHED_CTRL_EN = false ∨ e.get (dState d) ≠ tReady ∨ imgKind (e.img d) ≠ 0
      ∨ e.shedHold (e.img d) = true ∨ e.preemptCore d ≠ some c ∨ stc = true then e
  else if (e.ctxOf c).lk then
    e.updCore c fun k => { k with deferred := match k.deferred with
      | none => some (.preempt d, e.now)
      | some x => some x }
  else e.switchTo c d

/-- PREEMPTION. -/
def execPreemption (c d : Nat) (s : State) : Out := s.eff fun e => e.preempt c (d % 4096)

/-- What a locked sequence deferred takes place at the boundary where it ends (R185). -/
def Engine.releaseDeferred (e : Engine) (c : Nat) : Engine :=
  match (e.coreOf c).deferred with
  | none => e
  | some (what, _) =>
    let e := e.updCore c fun k => { k with deferred := none }
    match what with
    | .halt => e.debugHalt c
    | .preempt d => e.preempt c d
    | .cancel => e.taskAbort c
    | .irq => e

/-- LOCK opens a locked sequence (R185). -/
def execLock (i : Issue) (s : State) : Out :=
  s.eff fun e => e.issue i { unlock := true } fun e =>
    e.setCtx i.core { (e.ctxOf i.core).advance with lk := true, lockN := 0 }

/-- UNLOCK closes it, and what it deferred takes place (R185); outside one it has no
effect. -/
def Engine.unlock (e : Engine) (i : Issue) : Engine :=
  e.issue i {} fun e =>
    let x := e.ctxOf i.core
    let was := x.lk
    let e := e.setCtx i.core { x.advance with lk := false, lockN := 0 }
    if was then e.releaseDeferred i.core else e

def execUnlock (i : Issue) (s : State) : Out := s.eff fun e => e.unlock i

/-- The lock of core `c` breaks (R186): LK and the reservation are cleared, the break is
counted and reported, and the deferred event takes place. -/
def Engine.lockBreak (e : Engine) (c : Nat) : Engine :=
  let cause := match (e.coreOf c).deferred with
    | some (.irq, _) => 1 | some (.halt, _) => 2 | _ => 0
  let e := e.updCtx c fun x => { x with lk := false, lockN := 0 }
  let e := (e.updCore c fun k => { k with resv := none }).count ⟨CORE_LOCK_BREAKS c, 0, 16⟩
  (e.coreEvt c 0x03 .note (e.ctxOf c).pc cause).releaseDeferred c

/-- LOCK_BREAK: 64 CORE cycles, 32 FABRIC cycles, after the deferred event arrived. -/
def execLockBreak (c : Nat) (s : State) : Out :=
  s.eff fun e =>
    match (e.coreOf c).deferred with
    | some (_, t) => if (e.ctxOf c).lk ∧ t + 32 ≤ e.now then e.lockBreak c else e
    | none => e

/-! ### Waiting -/

/-- Core `c` waits. -/
def Engine.setWait (e : Engine) (c : Nat) (w : CoreWait) : Engine :=
  e.updCore c fun k => { k with wait := w }

/-- A wait of core `c` is over and its instruction completes. -/
def Engine.waitDone (e : Engine) (c : Nat) : Engine :=
  ((e.setWait c .run).setCtx c (e.ctxOf c).advance).stepEnd c

/-- An instruction that waits for every earlier store of the core, then acts (R236,
R237, R261). -/
def Engine.afterStores (e : Engine) (c : Nat) (w : CoreWait) (act : Engine → Engine) : Engine :=
  if (e.coreOf c).posted.isEmpty then act e else e.setWait c w

/-- FENCE: earlier stores accepted; scheduler requests are applied as they are sent
(R237). -/
def execFence (i : Issue) (s : State) : Out :=
  s.eff fun e => e.issue i {} fun e =>
    e.afterStores i.core .fence fun e => e.waitDone i.core

/-- GAP k: idle cycles (R252). -/
def execGap (i : Issue) (k : Nat) (s : State) : Out :=
  s.eff fun e =>
    let _ := k
    e.issueCtx i { unlock := true } id

/-- The tick a WFT awaits has begun (R251). -/
def Engine.tickReached (e : Engine) (t : Nat) : Bool := !e.stopped && decide (t ≤ e.block)

/-- WFT: until the tick after this one, or until the tick runs again; an awaited tick
recorded before a pre-emption stands (R251). -/
def Engine.wft (e : Engine) (i : Issue) : Engine :=
  let c := i.core
  e.issue i { unlock := true } fun e =>
    let x := e.ctxOf c
    let t := x.awaited.getD (if e.stopped then e.block else e.block + 1)
    if e.tickReached t then
      (e.setCtx c { x with awaited := none }).waitDone c
    else (e.setCtx c { x with awaited := some t }).setWait c .wft

def execWft (i : Issue) (s : State) : Out := s.eff fun e => e.wft i

/-- WFT_WAKE: the awaited tick has begun (R251). -/
def Engine.wftWake (e : Engine) (c : Nat) : Engine :=
  match (e.coreOf c).wait, (e.ctxOf c).awaited with
  | .wft, some t =>
    if e.tickReached t then
      (e.updCtx c fun x => { x with awaited := none }).waitDone c
    else e
  | _, _ => e

def execWftWake (c : Nat) (s : State) : Out := s.eff fun e => e.wftWake c

/-! ### Traps and return -/

/-- TRAP: vector TRAPI, completed (R177, R247); the code is for the handler. -/
def execTrap (i : Issue) (code : Nat) (s : State) : Out :=
  s.eff fun e =>
    let _ := code
    e.issue i { unlock := true } fun e =>
      let x := (e.ctxOf i.core).advance
      (e.setCtx i.core x).trap i.core 0x0B x.pc

/-- BRK: a debug halt on an attached core, else vector BREAK (R247). -/
def execBrk (i : Issue) (s : State) : Out :=
  s.eff fun e => e.issue i { unlock := true } fun e =>
    if e.attached i.core then e.debugHalt i.core
    else e.trap i.core 0x0C (e.ctxOf i.core).trapAt

/-- The context RTE makes (R180, R246, R248): PSW from TRAP_PSW with LK 0 and TE 0; the
mode never rises (R175). -/
def CoreCtx.rte (x : CoreCtx) : CoreCtx :=
  { x with mode := min x.mode (bitsOf x.trapPsw 0 2), te := false, ie := bitOf x.trapPsw 3,
           lk := false, lockN := 0, depth := bitsOf x.trapPsw 5 2, ext := none,
           pc := x.trapPc.toNat }

/-- RTE: PRIV in PATH, ILLEGAL with TE = 0 (R248). -/
def execRte (i : Issue) (s : State) : Out :=
  s.eff fun e => e.issue i { mode := 1 } fun e =>
    let x := e.ctxOf i.core
    if x.te then e.setCtx i.core x.rte else e.trap i.core 0x00 x.trapAt

/-! ### Tasks -/

/-- TREADY: one release under the core's hallmark once earlier stores are accepted
(R236, R254). A descriptor that is not the sender's tenant's is refused (R269). -/
def Engine.treadyNow (e : Engine) (c d : Nat) : Engine :=
  let by_ := e.coreSender c
  if e.schedMay by_ d then e.release d none by_.hm else e.opRefused by_ d 1 2

def execTready (i : Issue) (ga : Nat) (s : State) : Out :=
  s.eff fun e => e.issue i {} fun e =>
    let d := bitsOf ((e.ctxOf i.core).rdG ga) 0 12
    e.afterStores i.core (.tready d) fun e => (e.treadyNow i.core d).waitDone i.core

/-- TCANCEL: a cancel, not held back by stores (R236, R254). -/
def execTcancel (i : Issue) (ga : Nat) (s : State) : Out :=
  s.eff fun e => e.issue i {} fun e =>
    let d := bitsOf ((e.ctxOf i.core).rdG ga) 0 12
    let e := (e.setCtx i.core (e.ctxOf i.core).advance)
    e.schedCancelWrite (e.coreSender i.core) d

/-- The READY task TYIELD gives the core to (R255). -/
def Engine.yieldTo (e : Engine) (c r : Nat) : Option Nat :=
  if e.on SCHED_CTRL_EN ∧ (e.coreOf c).freeBank.isSome then
    e.firstTask (e.liveDescs.filter fun d =>
      e.get (dState d) == tReady && imgKind (e.img d) == 0 && e.eligible c d
        && !e.shedHold (e.img d) && decide (imgPrio (e.img d) ≤ imgPrio (e.img r)))
  else none

/-- TYIELD (R255); a reserved code on the control core (R258). -/
def Engine.tyield (e : Engine) (i : Issue) : Engine :=
  let c := i.core
  e.issue i { illegal := c == 16, unlock := true } fun e =>
    let e := e.setCtx c (e.ctxOf c).advance
    match (e.coreOf c).task with
    | some r => match e.yieldTo c r with
      | some d => e.switchTo c d
      | none => e
    | none => e

def execTyield (i : Issue) (s : State) : Out := s.eff fun e => e.tyield i

/-- TDONE: the core waits until SCHED records the completion (R256); a reserved code on
the control core (R258). -/
def execTdone (i : Issue) (status : Nat) (s : State) : Out :=
  s.eff fun e => e.issue i { illegal := i.core == 16, unlock := true } fun e =>
    e.setWait i.core (.tdone (status % 256))

/-! ### The control core -/

/-- CC_IRQ_STATUS (R181). -/
def Engine.irqStatus (e : Engine) : Word :=
  let blocks := (List.range 31).foldl (fun w k =>
    if e.rd (evtStatusAddr k) ≠ 0#32 then w + 2 ^ k else w) 0
  let cores := (List.range 17).any fun c => e.rd (CORE_EVT_STATUS c) ≠ 0#32
  BitVec.ofNat 32 (blocks + 2 ^ 31 * cores.toNat)

/-- CC_IRQ_CORE (R181). -/
def Engine.irqCore (e : Engine) : Word :=
  BitVec.ofNat 32 ((List.range 17).foldl (fun w c =>
    if e.rd (CORE_EVT_STATUS c) ≠ 0#32 then w + 2 ^ c else w) 0)

/-- An enabled event is pending (R181, R260). -/
def Engine.irqPending (e : Engine) : Bool := (e.irqStatus &&& e.rd CC_IRQ_EN) != 0#32

/-- The control core takes an IRQ: TRAP_PC is the next instruction to execute (R177, R181). -/
def Engine.irqTake (e : Engine) : Engine :=
  let e := e.updCtx 16 CoreCtx.boundary
  e.trap 16 0x10 (e.ctxOf 16).pc

/-- IE is 1, TE and LK are 0 (R181). -/
def CoreCtx.irqOpen (x : CoreCtx) : Bool := x.ie && !x.te && !x.lk

/-- IRQ_ENTRY at an instruction boundary; inside a locked sequence it is deferred; a WFT
in progress is discarded (R181, R185, R251). -/
def Engine.irqEntry (e : Engine) : Engine :=
  let k := e.coreOf 16
  let x := e.ctxOf 16
  if e.irqPending = false ∨ k.halted = true ∨ ¬(k.wait = .run ∨ k.wait = .wft) then e
  else if x.irqOpen then (e.setWait 16 .run).irqTake
  else if x.lk && x.ie && !x.te then
    e.updCore 16 fun k => { k with deferred := match k.deferred with
      | none => some (.irq, e.now)
      | some d => some d }
  else e

def execIrqEntry (s : State) : Out := s.eff Engine.irqEntry

/-- WAITI is over: an enabled event is pending, and the IRQ is taken when IE is 1 (R260). -/
def Engine.waitiWake (e : Engine) : Engine :=
  if (e.coreOf 16).wait = .waiti ∧ e.irqPending = true then
    let e := e.waitDone 16
    if (e.ctxOf 16).irqOpen then e.irqTake else e
  else e

/-- WAITI (R259, R260). -/
def execWaiti (i : Issue) (s : State) : Out :=
  s.eff fun e => e.issue i { illegal := i.core != 16, mode := 1 } fun e =>
    (e.setWait i.core .waiti).waitiWake

/-- WAITI_WAKE. -/
def execWaitiWake (s : State) : Out := s.eff Engine.waitiWake

/-- IESET gd, #b: gd is PSW.IE, then PSW.IE is b (R259). -/
def execIeset (i : Issue) (gd : Nat) (b : Bool) (s : State) : Out :=
  s.eff fun e => e.issueCtx i { illegal := i.core != 16, mode := 1 } fun x =>
    { x.wrG gd (BitVec.ofNat 32 x.ie.toNat) with ie := b }

/-- MONCALL: vector MONCALL from SUPER, completed; ILLEGAL in MONITOR (R259, R260). The
service number is for the handler. -/
def execMoncall (i : Issue) (service : Nat) (s : State) : Out :=
  s.eff fun e =>
    let _ := service
    e.issue i { illegal := i.core != 16, mode := 1 } fun e =>
      let x := e.ctxOf i.core
      if x.mode = 2 then e.trap i.core 0x00 x.trapAt
      else (e.setCtx i.core x.advance).trap i.core 0x0E x.advance.pc

/-- ISYNC: earlier stores accepted, then a fresh fetch (R261). -/
def execIsync (i : Issue) (s : State) : Out :=
  s.eff fun e => e.issue i { illegal := i.core != 16, mode := 1 } fun e =>
    e.afterStores i.core .isync fun e => e.waitDone i.core

/-! ### Per-core control registers -/

/-- WRITE_REFUSED (R193). -/
def Engine.coreRefuse (e : Engine) (c off : Nat) (by_ : Sender) : Engine :=
  e.coreEvt c 0x05 .warn off 0 by_.hm

/-- The CORE_TENANT pair of core `c` takes effect on an idle core: its banks and data
memory are cleared, and SCRUB is 1 for 16,384 CORE cycles (R165). -/
def Engine.coreTenantSet (e : Engine) (by_ : Sender) (c : Nat) (v : Word) : Engine :=
  let v := v &&& 0xF#32
  let k := e.coreOf c
  if by_.isCC = false ∨ c = 16 then e.coreRefuse c 0x10 by_
  else if bitsOf v 0 4 = e.coreTenant c then e.wrCp (CORE_TENANT c) v
  else if k.task.isSome || !k.pre.isEmpty || k.scrub.isSome then e.coreRefuse c 0x10 by_
  else
    let e := (e.wrCp (CORE_TENANT c) v).clearBytes (localAddr c 0) 0x40000
    e.updCore c fun k => { k with ctx := [], bank := 0, scrub := some (e.now + 8192), resv := none }

/-- CORE_TENANT_WRITE. -/
def execCoreTenantWrite (by_ : Sender) (c : Nat) (v : Word) (s : State) : Out :=
  s.eff fun e => e.rowWrite by_ [(CORE_TENANT c, v)] fun e =>
    e.coreTenantSet by_ c v

/-- SCRUB_DONE (R165). -/
def Engine.coreScrubDone (e : Engine) (c : Nat) : Engine :=
  match (e.coreOf c).scrub with
  | some t =>
    if t ≤ e.now then
      (e.updCore c fun k => { k with scrub := none }).coreEvt c 0x06 .note (e.coreTenant c) 0
    else e
  | none => e

def execScrubDone (c : Nat) (s : State) : Out := s.eff fun e => e.coreScrubDone c

/-- A write of a per-core control register (R192). -/
def Engine.coreRegWrite (e : Engine) (by_ : Sender) (c off : Nat) (v : Word) : Engine :=
  let a := CORE_STATUS c + off
  let mon := by_.isMon || by_.isDebug
  if by_.isCC = false then e.coreRefuse c off by_
  else if off = 0x44 then e.wr a (e.rd a &&& ~~~ v)
  else if c = 16 then
    if off = 0x18 then e.wr a (v &&& 0xFC00#32)
    else if off = 0x84 then e.wr a v
    else if off = 0x88 ∧ mon = true then e.wr a (v &&& 0x3FC00#32)
    else if off = 0x08 ∧ mon = true then e.wr a (v &&& 3#32)
    else e.coreRefuse c off by_
  else if off = 0x04 then e.wr a (v &&& 1#32)
  else if off = 0x08 then e.wr a (v &&& 3#32)
  else if off = 0x18 then e.wr a (v &&& 0xFC00#32)
  else if off = 0x1C then e.wr a (v &&& 0x1FFFF#32)
  else e

/-- CORE_STATUS.STATE (R191). -/
def Engine.coreStateCode (e : Engine) (c : Nat) : Nat :=
  let k := e.coreOf c
  if k.halted then 4
  else if bitOf (e.rd CLK_GATE_STATUS) c && c != 16 then 5
  else if k.wait = .wft then 3
  else if c = 16 || k.task.isSome then 2
  else if e.on (CORE_CTRL_EN c) then 1
  else 0

/-- CORE_STATUS (R191). -/
def Engine.coreStatus (e : Engine) (c : Nat) : Word :=
  let k := e.coreOf c
  let x := e.ctxOf c
  let used := if c = 16 then 1 else k.banksUsed.foldl (fun w b => w + 2 ^ b) 0
  let live := c == 16 || k.task.isSome
  BitVec.ofNat 32 (e.coreStateCode c + 2 ^ 4 * (if live then x.mode else 0) + 2 ^ 6 * k.bank
    + 2 ^ 8 * used + 2 ^ 11 * (live && x.lk).toNat + 2 ^ 12 * k.scrub.isSome.toNat)

/-- What a read of a per-core control register answers beyond its stored word: the
words that follow the core's state, the 64-bit cycle count, and CC's fixed fields
(R181, R191 and its notes). -/
def Engine.coreRegRead (e : Engine) (by_ : Sender) (c off : Nat) : Option (Word × Engine) :=
  let cyc := 2 * e.now
  if off = 0 then some (e.coreStatus c, e)
  else if off = 0x30 then
    some (BitVec.ofNat 32 cyc, e.capture (CORE_CYCLES_LO c) by_.hm [cyc / 2 ^ 32])
  else if off = 0x34 then
    some (e.capturedOr (CORE_CYCLES_LO c) by_.hm, e)
  else if c = 16 ∧ off = 0x04 then some (1#32, e)
  else if c = 16 ∧ off = 0x1C then some (0x1FFFF#32, e)
  else if c = 16 ∧ off = 0x80 then some (e.irqStatus, e)
  else if c = 16 ∧ off = 0x8C then some (e.irqCore, e)
  else none

end Sys2Proof.Machine
end

