-- ==== Sys2Proof/Machine/Sec.lean ====
section
/-!
DEFINITION. The fuse array, lifecycle and keys: the fuse load, blowing, lifecycle advances,
retirement and the monitor services (chapter "Lifecycle, Secure Boot and Debug", R635 to R645).
-/
namespace Sys2Proof.Machine

/-- A command whose effect is on the fuse array and the engine. -/
def State.fuseEff (s : State) (f : Tbl Word → Engine → Tbl Word × Engine) : Out :=
  .next (if s.eng.live then
      let r := f s.fuse s.eng
      { s with fuse := r.1, eng := r.2 }
    else s)

/-- Inverted-sense bits of fuse word `w`: complement fields read 1 unprogrammed (R636). -/
def fuseInv (w : Nat) : Word :=
  if w = 0 then 0x00F00270#32
  else if w = 2 then 0x0000FFFF#32
  else if 48 ≤ w ∧ w < 56 then 0xFFFFFFFF#32
  else 0#32

/-- Fuse word `w` as it reads. -/
def fuseWord (u : Tbl Word) (w : Nat) : Word := Tbl.get 0#32 u w ^^^ fuseInv w

/-- Bit `i` (32 w + b) of the array blown (R638). -/
def fuseBlow (u : Tbl Word) (i : Nat) : Tbl Word :=
  Tbl.set 0#32 u (i / 32) (Tbl.get 0#32 u (i / 32) ||| BitVec.ofNat 32 (2 ^ (i % 32)))

/-- Bit `i` is blown. -/
def fuseBlown (u : Tbl Word) (i : Nat) : Bool := bitOf (Tbl.get 0#32 u (i / 32)) (i % 32)

/-! ### The fuse load (R637) -/

/-- Lifecycle code of SEC_STATUS.LC: a thermometer that agrees with its complement, else 7. -/
def fuseLc (w0 : Word) : Nat :=
  if bitsOf w0 4 3 ≠ 7 - bitsOf w0 0 3 then 7
  else match bitsOf w0 0 3 with
    | 0 => 0 | 1 => 1 | 3 => 2 | 7 => 3 | _ => 7

/-- SVN_MIN's blown positions in words 4 and 5: highest + 1, and how many. -/
def svnTop (u : Tbl Word) : Nat :=
  (List.range 63).foldl (fun m i => if fuseBlown u (128 + i) then i + 1 else m) 0
def svnCount (u : Tbl Word) : Nat := ((List.range 63).filter fun i => fuseBlown u (128 + i)).length

/-- Word 1 as the blocks use it: the values of R637 when it disagrees with CFG_N. -/
def Engine.fuseCfg (e : Engine) : Word :=
  if (e.get FUSE_STATUS_MISMATCH).testBit 1 then 0x00000026#32 else e.rd (FUSE_SHADOW 1)

/-- FUSE_LOAD: at the end of reset (R7, R48, R627, R629, R637). -/
def Engine.fuseLoad (e : Engine) (u : Tbl Word) : Engine :=
  let w := fuseWord u
  let e := (List.range 64).foldl (fun e i => if 40 ≤ i ∧ i < 56 then e else e.wr (FUSE_SHADOW i) (w i)) e
  let lc := fuseLc (w 0)
  let lockBad := bitOf (w 0) 8 == bitOf (w 0) 9
  let rev := bitsOf (w 0) 16 4
  let revN := 15 - bitsOf (w 0) 20 4
  let cfgBad := bitsOf (w 1) 0 16 + bitsOf (w 2) 0 16 != 65535
  let keyBad := (List.range 8).any fun i => w (48 + i) != ~~~ (w (40 + i))
  let locked := bitOf (w 0) 8 || lockBad
  let useKey := bitOf (w 0) 8 && !lockBad
  let keyOk := useKey && !keyBad && lc != 3 && lc != 7
  let svn := svnTop u
  let mis := (lc == 7).toNat + 2 * cfgBad.toNat + 4 * (rev != revN).toNat
    + 8 * (useKey && keyBad).toNat + 16 * lockBad.toNat + 32 * (svnCount u != svn).toNat
  let e := (e.put FUSE_STATUS_LOADED 1).put FUSE_STATUS_MISMATCH mis
  let e := ((e.put SEC_STATUS_LC lc).putB SEC_STATUS_KEY_OK keyOk).put SEC_STATUS_REVOKED (rev ||| revN)
  let e := e.put SEC_STATUS_SVN_MIN svn
  let e := e.updSec fun s => { s with
    dk := if keyOk then some ((List.range 8).map fun i => w (40 + i)) else none, keyLock := locked,
    tell := mis != 0 }
  let cfg := e.fuseCfg
  let e := e.wrCp CLK_SEL (setBits (e.rd CLK_SEL) 0 1 (bitsOf cfg 0 1))
  let e := (e.put WDT_FUSES_WIN (bitsOf cfg 3 2)).put WDT_FUSES_HWSTART (bitsOf cfg 5 1)
  let e := e.put PCIE_VENDOR_VID (bitsOf (w 3) 0 16)
  if bitOf cfg 5 then e.wdtStart else e

def execFuseLoad (s : State) : Out :=
  s.fuseEff fun u e => (u, if e.on FUSE_STATUS_LOADED then e else e.fuseLoad u)

/-! ### Events and refusals (R664, R665) -/

def secEvt (code : Nat) (sev : Sev) (hm w2 w3 : Nat) : Evt :=
  { block := 0x1B, code := code, sev := sev, hm := hm, w2 := w2, w3 := w3 }
def fuseEvt (code : Nat) (sev : Sev) (hm w2 : Nat) : Evt :=
  { block := 0x1D, code := code, sev := sev, hm := hm, w2 := w2 }

/-- The CFG_REFUSED that an ignored write raises in SEC, DBG and FUSE: their event tables give
it no code, so the code is a free value, and no bit of EVT_STATUS is its own. -/
def Engine.cfgRefusedOpen (e : Engine) (blk : Nat) (by_ : Sender) (off : Nat) : Engine :=
  let (c, e) := e.fresh
  let v : Evt := { block := blk, code := c.toNat % 256, sev := .warn, hm := by_.hm, w2 := off, esc := e.tick.esc % 2 ^ 32 }
  { e with evBuf := e.evBuf ++ [v] }

/-! ### Blowing (R638) -/

/-- The loaded lifecycle permits a blow of bit `i` by the table of R638. -/
def Engine.blowPermitted (e : Engine) (i : Nat) : Bool :=
  let lc := e.lc
  let (w, b) := (i / 32, i % 32)
  let key := lc == 0 && !e.sec.keyLock
  if w = 0 then
    if b = 8 ∨ b = 9 then key else if 16 ≤ b ∧ b < 24 then decide (lc ≤ 2) else false
  else if w = 1 then decide (lc ≤ 1)
  else if w = 2 then decide (lc ≤ 1 ∧ b < 16)
  else if w = 3 then lc == 0 && decide (b < 27)
  else if w = 4 then decide (lc ≤ 2)
  else if w = 5 then decide (lc ≤ 2 ∧ b < 31)
  else if w < 8 then lc == 0
  else if w < 40 then decide (lc ≤ 1)
  else if w < 56 then key
  else false

/-- A blow or an erasure is in progress. -/
def Engine.fuseBusy (e : Engine) : Bool := !e.sec.blow.isEmpty || e.sec.erase

/-- Bit `i` begins to be blown, or is refused (R638): only in RUN. -/
def Engine.blowStart (e : Engine) (hm i : Nat) : Engine × Nat :=
  if e.fuseBusy then (e.raise (fuseEvt 0x02 .warn hm i), 3)
  else if e.mode = 0 ∧ e.blowPermitted i = true then
    (((e.put FUSE_PROG_STATUS_BUSY 1).put FUSE_PROG_STATUS_DONE 0).updSec fun s => { s with blow := [i], target := none }, 0)
  else (e.raise (fuseEvt 0x02 .warn hm i), 1)

/-- A write of FUSE_PROG_CTRL with GO (R638). -/
def Engine.fuseProg (e : Engine) (by_ : Sender) : Engine :=
  let i := e.get FUSE_PROG_BIT_IDX
  if by_.isMon = false then e.cfgRefusedOpen 0x1D by_ 0x00C
  else if e.sec.fkey.ok by_.hm e.now then ((e.updSec fun s => { s with fkey := {} }).blowStart by_.hm i).1
  else e.raise (fuseEvt 0x02 .warn by_.hm i)

/-- FUSE_PROG_GO. -/
def execFuseProgGo (by_ : Sender) (s : State) : Out := s.eff fun e => e.fuseProg by_

/-- PROG_DONE: the blow is complete: the bits read as blown at the next fuse load. An advance of
the lifecycle raises LC_ADVANCED; to RETIRED, the erasure follows (R638 to R640). -/
def Engine.progDone (u : Tbl Word) (e : Engine) : Tbl Word × Engine :=
  if e.sec.blow.isEmpty then (u, e)
  else
    let v := e.sec.blow.foldl fuseBlow u
    let f := e.put FUSE_PROG_STATUS_BUSY 0
    match e.sec.target with
    | some t =>
      let f := f.updSec fun s => { s with blow := [], target := if t = 3 then s.target else none, erase := t == 3 }
      (v, f.raise (secEvt 0x02 .note 0xFF t 0))
    | none =>
      let f := (f.put FUSE_PROG_STATUS_DONE 1).updSec fun s => { s with blow := [] }
      (v, f.raise (fuseEvt 0x03 .note 0xFF (e.sec.blow.headD 0)))

def execProgDone (s : State) : Out := s.fuseEff Engine.progDone

/-! ### Lifecycle (R639 to R641) -/

/-- A KEYHASH slot that is not zero and not revoked. -/
def Engine.hashUsable (e : Engine) (k : Nat) : Bool :=
  !bitOf (e.rd SEC_STATUS) (8 + k) && (List.range 8).any fun i => e.rd (FUSE_SHADOW (8 + 8 * k + i)) != 0#32

/-- The transition to `t` is in the table of R639. -/
def Engine.lcAllowed (e : Engine) (t : Nat) : Bool :=
  match t with
  | 1 => e.lc == 0 && e.on SEC_STATUS_KEY_OK
  | 2 => e.lc == 1 && (List.range 4).any e.hashUsable
  | 3 => decide (e.lc ≤ 2)
  | _ => false

/-- The bits of LC and LCN that an advance to `t` blows. -/
def lcBits (t : Nat) : List Nat :=
  match t with
  | 1 => [0, 4]
  | 2 => [1, 5]
  | _ => [0, 1, 2, 4, 5, 6]

/-- An advance to `t` begins, or is refused (R639); to RETIRED, the loaded key is cleared first
(R640). -/
def Engine.lcStart (e : Engine) (hm t v : Nat) : Engine × Nat :=
  if e.fuseBusy then (e.raise (secEvt 0x03 .warn hm v 0), 3)
  else if e.lcAllowed t = false then (e.raise (secEvt 0x03 .warn hm v 0), 1)
  else
    let e := e.updSec fun s => { s with blow := lcBits t, target := some t, dk := if t = 3 then none else s.dk }
    let e := if t = 3 then e.put SEC_STATUS_KEY_OK 0 else e
    (e.put FUSE_PROG_STATUS_BUSY 1, 0)

/-- A write of SEC_LC_CMD (R639). -/
def Engine.lcCmd (e : Engine) (by_ : Sender) (v : Word) : Engine :=
  if bitOf v 31 = false then e
  else if by_.isMon && e.sec.key.ok by_.hm e.now then
    ((e.updSec fun s => { s with key := {} }).lcStart by_.hm (bitsOf v 0 2) v.toNat).1
  else e.raise (secEvt 0x03 .warn by_.hm v.toNat 0)

/-- LC_ADVANCE_CMD. -/
def execLcAdvanceCmd (by_ : Sender) (v : Word) (s : State) : Out := s.eff fun e => e.lcCmd by_ v

/-- Every bit of DEVKEY, DEVKEY_N, KEY_LOCK and KEY_LOCK_N (R640). -/
def keyBits : List Nat := [8, 9] ++ (List.range 512).map (1280 + ·)

/-- RETIRE_ERASE_DONE: the key bits are blown; after a transition the engine takes a reset with
cause SOFTWARE, at a boot in RETIRED it goes on (R640). -/
def Engine.eraseDone (u : Tbl Word) (e : Engine) : Tbl Word × Engine :=
  if e.sec.erase = false then (u, e)
  else
    let f := e.updSec fun s => { s with erase := false, target := none }
    (keyBits.foldl fuseBlow u, if e.sec.target = some 3 then f.resetAsk 4 else f)

def execRetireEraseDone (s : State) : Out := s.fuseEff Engine.eraseDone

/-! ### Monitor services (R645) -/

/-- The control core is in MONITOR for a MONCALL it took (R177, R645). -/
def Engine.inMoncall (e : Engine) : Bool :=
  let x := e.ctxOf 16
  e.issuing 16 && x.mode == 2 && x.te && bitsOf x.trapCause 0 5 == 0x0E

/-- A service ends: its result in G4, and a return from the trap (R248, R645). -/
def Engine.moncallEnd (r : Engine × Nat) : Engine :=
  r.1.updCtx 16 fun x => (x.wrG 4 (BitVec.ofNat 32 r.2)).rte

/-- A MONCALL service: `f` gives the result 0 OK, 1 REFUSED, 2 ARGUMENT or 3 BUSY. -/
def Engine.moncall (e : Engine) (f : Engine → Engine × Nat) : Engine :=
  if e.inMoncall then Engine.moncallEnd (f e) else e

/-- FUSE_BLOW: the bit in G4. -/
def execFuseBlow (s : State) : Out :=
  s.eff fun e => e.moncall fun e =>
    let i := ((e.ctxOf 16).rdG 4).toNat
    if 2048 ≤ i then (e, 2) else e.blowStart (e.coreHm 16) i

/-- LC_ADVANCE: the target in G4. -/
def execLcAdvance (s : State) : Out :=
  s.eff fun e => e.moncall fun e =>
    let t := ((e.ctxOf 16).rdG 4).toNat
    if 1 ≤ t ∧ t ≤ 3 then e.lcStart (e.coreHm 16) t (2 ^ 31 + t) else (e, 2)

/-- `n` bytes from physical address `a`. -/
def Engine.bytesAt (e : Engine) (a n : Nat) : List Byte := (List.range n).map fun i => e.ldB (a + i)

/-- The bytes of words, least significant first. -/
def wordBytes (ws : List Word) : List Byte :=
  ws.flatMap fun w => [w.extractLsb' 0 8, w.extractLsb' 8 8, w.extractLsb' 16 8, w.extractLsb' 24 8]

/-- An ASCII label. -/
def labelBytes (t : String) : List Byte := t.toList.map fun c => BitVec.ofNat 8 c.toNat

/-- The derived key of message `m`: eight words, zero while no device key is loaded (R642). -/
def Engine.derive (e : Engine) (m : List Byte) : List Word :=
  match e.sec.dk with
  | some k => (List.range 8).map fun i => (Config.hmacSha256 (wordBytes k) m).getD i 0#32
  | none => List.replicate 8 0#32

/-- 32 bytes from `a` lie in the data memory of the control core (R163). -/
def ccData (a : Nat) : Bool := decide (0x61000000 ≤ a ∧ a + 32 ≤ 0x61040000)

/-- DERIVE: K_APP(c) for the 32 bytes at G4, written at G5; it fails without a device key. -/
def execDerive (s : State) : Out :=
  s.eff fun e => e.moncall fun e =>
    let a := ((e.ctxOf 16).rdG 4).toNat
    let o := ((e.ctxOf 16).rdG 5).toNat
    if (ccData a && ccData o) = false then (e, 2)
    else if e.on SEC_STATUS_KEY_OK = false then (e, 1)
    else (e.memWrite (some 16) o (e.derive (labelBytes "BX-APP" ++ e.bytesAt a 32)), 0)

/-! ### Registers (R664) -/

/-- A write of a SEC register: consent bits are cleared by the control core (R651). -/
def Engine.secRegWrite (e : Engine) (by_ : Sender) (off : Nat) (v : Word) : Engine :=
  if off = 0x00C then e.lcCmd by_ v
  else if off = 0x008 then
    if by_.isMon then e.updSec fun s => { s with key := s.key.write 0x5EC1 0xA13E by_.hm e.now v }
    else e.cfgRefusedOpen 0x1B by_ off
  else if by_.isCC = false then e.cfgRefusedOpen 0x1B by_ off
  else match off with
    | 0x004 => (List.range 16).foldl (fun e t => if bitOf v t then e.setConsent t by_.hm false else e) e
    | 0x010 => e.wr SEC_EVT_STATUS (e.rd SEC_EVT_STATUS &&& ~~~ v)
    | _ => e

/-- A write of a FUSE register: the programming registers are MONITOR's (R638, R664). -/
def Engine.fuseRegWrite (e : Engine) (by_ : Sender) (off : Nat) (v : Word) : Engine :=
  if off = 0x014 then
    if by_.isCC then e.wr FUSE_EVT_STATUS (e.rd FUSE_EVT_STATUS &&& ~~~ v) else e.cfgRefusedOpen 0x1D by_ off
  else if by_.isMon = false then e.cfgRefusedOpen 0x1D by_ off
  else match off with
    | 0x004 => e.updSec fun s => { s with fkey := s.fkey.write 0xF05E 0x0FA1 by_.hm e.now v }
    | 0x008 => e.put FUSE_PROG_BIT_IDX (bitsOf v 0 11)
    | 0x00C => if bitOf v 0 then e.fuseProg by_ else e
    | 0x010 => if bitOf v 1 then e.put FUSE_PROG_STATUS_DONE 0 else e
    | _ => e

end Sys2Proof.Machine
end

