-- ==== Sys2Proof/Machine/Tick.lean ====
section
/-!
DEFINITION. The tick: what a sample period, a tick start and a guard start do to every block,
and how the tick starts and stops (chapter "The Engine, the Tick and the Map", R19 to R30, R42).
-/
namespace Sys2Proof.Machine

/-! ### TICK_CFG -/

/-- A write of LEN and RATE: an accepted change of rate recomputes what depends on it, and
DUO_TIMEOUT is checked again (R19, R512, notes to R403). -/
def Engine.tickCfgSet (e : Engine) (by_ : Sender) (v : Word) : Engine :=
  let t := e.tickCfgWrite by_ v
  let t := if t.get TICK_CFG_RATE = e.get TICK_CFG_RATE then t else t.limRate
  if t.get TICK_CFG_RATE = e.get TICK_CFG_RATE ∧ t.get TICK_CFG_LEN = e.get TICK_CFG_LEN then t
  else t.timeoutCheck

/-- TICK_CFG_WRITE. -/
def execTickCfgWrite (by_ : Sender) (v : Word) (s : State) : Out :=
  s.eff fun e => e.rowWrite by_ [(TICK_CFG, v)] fun e =>
    e.tickCfgSet by_ v

/-- Every block checks its configuration against the capacities of the rate (R41, R42). -/
def Engine.capacityCheck (e : Engine) : Engine :=
  (((((e.routeCapacity.sumxCapacity).eqaCapacity).sapCapacity).madiCapacity).flowCapacity)

/-- RUN set: refused in RETIRED and INVALID (R641) and after a thermal safe stop (R681); from
STOPPED the tick starts at the next sample period, once the PLL is LOCKED (R27, R42, R74). -/
def Engine.tickRun (e : Engine) (by_ : Sender) (v : Word) : Engine :=
  if e.lc = 3 ∨ e.lc = 7 ∨ e.on ADAPT_STATUS_STOPPED = true then e.raise (sysEvt 0x02 .warn by_.hm v.toNat 0)
  else if e.stopped = false ∨ e.on TICK_CFG_RUN = true then e
  else
    let e := (e.put TICK_CFG_RUN 1).capacityCheck
    if e.get CLK_STATUS_STATE = 2 then e.updTick fun t => { t with startReq := true }
    else e.updTick fun t => { t with heldRun := true }

/-- TICK_RUN_START. -/
def execTickRunStart (by_ : Sender) (s : State) : Out :=
  s.eff fun e => e.rowWrite by_ [(TICK_CFG, e.rd TICK_CFG ||| 0x100#32)] fun e =>
    e.tickRun by_ (e.rd TICK_CFG ||| 0x100#32)

/-- A write of TICK_CFG: LEN and RATE, then RUN. -/
def Engine.tickCfgReg (e : Engine) (by_ : Sender) (v : Word) : Engine :=
  let e := e.tickCfgSet by_ v
  if bitOf v 8 then e.tickRun by_ v
  else if e.on TICK_CFG_RUN then e.tickStopReq else e

/-! ### Sample periods -/

/-- The ESC at which a stop or a safe stop in progress holds (R28, R72). -/
def Engine.holdEsc (e : Engine) : Option Nat :=
  if e.tick.safeStop then some e.tick.safeHold else e.tick.stopG.map fun g => stopHold g e.nSamp

/-- The sample of the current ESC is gathered: its block begins before a stop (R28). -/
def Engine.gathers (e : Engine) : Bool :=
  match e.tick.stopG with
  | some g => decide (e.tick.esc < g)
  | none => true

/-- What the last block with this sample's place left there is cleared: the samples of ports and
network channels are those of this ESC alone. -/
def Engine.clearPorts (e : Engine) (s : Nat) : Engine :=
  let base := (smpKey (s / e.nSamp) 0 0) / 262144
  let j := s % e.nSamp
  e.updAudio fun a => { a with smp := a.smp.filter fun c =>
    !(c.1 / 262144 == base && c.1 % 32 == j
      && (decide (c.1 / 32 % 8192 < 0x1000) || decide (0x1800 ≤ c.1 / 32 % 8192))) }

/-- The tick starts: GATHER of the next block begins, from the held ESC (R27, R45); the first
latch derives the media clock count anew (R132). -/
def Engine.tickBegin (e : Engine) : Engine :=
  let e := e.putB TICK_CFG_STOPPED false
  let b := e.block
  let e := e.updTick fun t => { t with
    startReq := false, stopG := none, safeStop := false, muted := false, started := none,
    guardBlk := none, firstBlk := b, cutNext := b, discard := [] }
  let e := (e.updTime fun t => { t with rederive := true }).putB TIME_STATUS_MCC_VALID false
  (e.updDuo fun d => { d with outOff := false }).raise
    (sysEvt 0x04 .note 0xFF (e.tick.esc % 2 ^ 32) (e.tick.esc / 2 ^ 32))

/-- SAMPLE_PERIOD: a sample edge (R24, R27, R28). The samples of the ESC in progress are
gathered, outputs and generators advance by one, and the ESC advances unless it holds; `mic` is
the microphone converter's 24-bit sample. No edge comes in LISTEN or without a crystal. -/
def Engine.samplePeriod (e : Engine) (mic : Word) : Engine :=
  let s := e.tick.esc
  if e.mode = 2 ∨ e.on CLK_STATUS_XFAIL = true then e
  else if e.stopped then
    let e := if e.tick.startReq then e.tickBegin else e
    ((e.cueSample s mic).gpioDue false s).refSample
  else
    let e := if e.gathers then (((e.clearPorts s).sapGather s).madiGather 0 s).madiGather 1 s else e
    let e := (e.cueSample s mic).mediaPlay s
    let e := (e.gpioDue false s).refSample
    let held := match e.holdEsc with | some h => decide (h ≤ s) | none => false
    if held then e else e.updTick fun t => { t with esc := s + 1 }

def execSamplePeriod (mic : Word) (s : State) : Out := s.eff fun e => e.samplePeriod mic

/-- TICK_STOP_HOLD: the drain, or a safe stop, has reached the ESC that holds (R28, R72). -/
def Engine.stopHoldNow (e : Engine) : Engine :=
  if e.stopped then e
  else match e.holdEsc with
    | some h => if h ≤ e.tick.esc then e.tickHold (e.tick.stopG.getD h) else e
    | none => e

def execTickStopHold (s : State) : Out := s.eff Engine.stopHoldNow

/-! ### Tick start (R20) -/

/-- Block `b` was gathered since the tick last started, and no relock discards it. -/
def Engine.blockKept (e : Engine) (b : Nat) : Bool :=
  decide (e.tick.firstBlk ≤ b) && !e.tick.discard.contains b
    && (match e.tick.stopG with | some g => decide (b * e.nSamp < g) | none => true)

/-- SCATTER's values of block `b` handed to the ports. -/
def Engine.scatterAll (e : Engine) (b : Nat) : Engine :=
  (((e.scatter b).sapScatter b).madiScatter b).mediaScatter b

/-- What a relock does at a tick start; entering step 2, the block in SCATTER is faded even when
its outputs were taken before the commit (R60). -/
def Engine.relockStep (e : Engine) : Engine :=
  let was := e.clk.relock.map Relock.step
  let t := e.refWatch e.relockTick
  if was = some 1 ∧ t.clk.relock.map Relock.step = some 2 ∧ 2 ≤ e.block
      ∧ e.tick.guardBlk = some (e.block - 2) then t.scatterAll (e.block - 2)
  else t

/-- Block `b` enters COMPUTE: its actions have fired and swaps apply before the level; inputs
reach the paths and standing tasks are armed (R140 to R143, R284, R382, R523, R667, R685). -/
def Engine.computeEnter (e : Engine) (b : Nat) : Engine :=
  let e := if e.tick.cutNext ≤ b then e.taqCutoffOf b else e
  let e := ((e.taqDrain b).adaptTick).quarTick (b * e.nSamp)
  if e.computeSuspended || !e.blockKept b then e
  else (((e.patchCheck.mirrorTick b).pathInputs b).schedTick b)

/-- TICK_START: at the first sample of block k, block k is latched, block k − 1 enters COMPUTE
and the pair exchanges heartbeats and digests. -/
def Engine.tickStart (e : Engine) : Engine :=
  let k := e.block
  if e.stopped || e.tick.esc % e.nSamp != 0 || e.tick.started == some k then e
  else
    let e := e.updTick fun t => { t with started := some k, startCyc := e.now }
    let e := e.updPwr fun p => { p with rise := 0 }
    let e := ((e.relockStep.timeLatch k).mediaLatch k).taqLatch
    let e := if 1 ≤ k ∧ e.tick.firstBlk ≤ k - 1 then e.computeEnter (k - 1) else e.adaptTick
    let e := e.duoTick.resetAnnounce.ringTick
    ((e.routePrune k).sumxPrune k).safePrune k

def execTickStart (s : State) : Out := s.eff Engine.tickStart

/-- GUARD_START: SCATTER takes the outputs of the block in COMPUTE (R22, R23, R286, R287, R400,
R424, R525). A block that a relock discards raises no miss (R60). -/
def Engine.guardStart (e : Engine) : Engine :=
  match e.tick.started with
  | none => e
  | some k =>
    let b := k - 1
    if e.stopped || k == 0 || decide (b < e.tick.firstBlk) || e.tick.guardBlk == some b then e
    else
      let kept := e.blockKept b
      let e := e.updTick fun t => { t with guardBlk := some b }
      let e := ((e.takeOutputs b).scatterAll b)
      let e := if kept then e.schedGuard b else e
      (((e.tapUpdate b).loudBlockIn b).safeGuard b).digestBlock b

def execGuardStart (s : State) : Out := s.eff Engine.guardStart

end Sys2Proof.Machine
end

