-- ==== Sys2Proof/Machine/Bus.lean ====
section
/-!
DEFINITION. The address map as an agent meets it: a write or a read of a register word by its
access type and its block's rules, the complement-paired write, per-entry ownership of the
table apertures, and forwarding in a pair (R8 to R12, R31 to R33, R321, R518 to R520).
-/
namespace Sys2Proof.Machine

/-! ### Fields (R8) -/

/-- A write by access type alone: RW bits take the value, W1C bits written 1 clear, the rest
keep theirs. -/
def Engine.fieldWrite (e : Engine) (a : Nat) (v : Word) : Engine :=
  match rowAt a with
  | some (r, _) =>
    let m := r.mask (· == .rw)
    e.wr a ((e.rd a &&& ~~~ m ||| v &&& m) &&& ~~~ (v &&& r.mask (· == .w1c)))
  | none => e

/-- A read by access type alone: WO bits read as zero and RC bits are cleared. -/
def Engine.fieldRead (e : Engine) (a : Nat) : Word × Engine :=
  match rowAt a with
  | some (r, _) =>
    let v := e.rd a
    let c := r.mask (· == .rc)
    (v &&& ~~~ r.mask (· == .wo), if c = 0#32 then e else e.wr a (v &&& ~~~ c))
  | none => (0#32, e)

/-! ### The map -/

/-- The block ID of a register address and the offset in it (R31). -/
def blkOf (a : Nat) : Nat := (a - 0x40000000) / 0x10000
def offOf (a : Nat) : Nat := a % 0x10000

/-- An address of ingot memory or of a core's local memory (R32, R163). -/
def isMemAddr (a : Nat) : Bool :=
  (ingotOf a).isSome
    || (decide (0x60000000 ≤ a ∧ a < 0x61000000) && decide (a % 0x100000 < 0x50000))
    || decide (0x61000000 ≤ a ∧ a < 0x61080000)

/-- An assigned word of a table aperture (R32 and its blocks' layouts). -/
def isTableAddr (a : Nat) : Bool :=
  a % 4 == 0 &&
    (decide (0x50000000 ≤ a ∧ a < 0x50010000) || decide (0x50100000 ≤ a ∧ a < 0x50200000)
      || decide (0x50200000 ≤ a ∧ a < 0x50320000) || decide (0x50320000 ≤ a ∧ a < 0x50328000)
      || decide (0x50330000 ≤ a ∧ a < 0x50338000) || decide (0x50400000 ≤ a ∧ a < 0x5040C000)
      || decide (0x50500000 ≤ a ∧ a < 0x50540000))

/-- An assigned word of a register block (R31 and the register tables). -/
def isRegAddr (a : Nat) : Bool := (rowAt a).isSome || isCpOdd a

/-- The tenant that owns the entry at a table address (R321). -/
def Engine.entryOwner (e : Engine) (a : Nat) : Option Nat :=
  if a < 0x50010000 then e.destOwner ((a - 0x50000000) / 4 % 8192)
  else if a < 0x50200000 then e.conOwner ((a - 0x50100000) / 8 % 65536)
  else if a < 0x502F0000 then e.secOwner ((a - 0x50200000) / 4 % 122880 / 5)
  else if a < 0x50300000 then e.chainOwner ((a - 0x502F0000) / 32)
  else if a < 0x50320000 then e.flowOwner (decide (0x50310000 ≤ a)) ((a - 0x50300000) / 64 % 1024)
  else if a < 0x50340000 then e.flowOwner (decide (0x50330000 ≤ a)) (a % 0x10000 / 32)
  else if a < 0x50408000 then some ((a - 0x50400000) / 2048)
  else if a < 0x5040C000 then some ((a - 0x50408000) / 1024)
  else e.descTenant ((a - 0x50500000) / 64)

/-- A sender may reach the entry at a table address: the control core, and its owner. -/
def Engine.entryAdmits (e : Engine) (by_ : Sender) (a : Nat) : Bool :=
  by_.isCC || (match e.entryOwner a with | some t => by_.isTenant t | none => false)

/-! ### The complement-paired write (R10, R11, R667) -/

/-- What a completed pair does when it takes effect (R11): its register's own rule. -/
def Engine.cpEffect (e : Engine) (by_ : Sender) (a : Nat) (v : Word) : Engine :=
  let o := offOf a
  if 0x50400000 ≤ a ∧ a < 0x50408000 then
    let i := (a - 0x50400000) / 32
    if a / 8 % 4 = 3 then e.taqCtrl by_ i v
    else if taqAdmits by_ (i / 64) then e.taqPair by_ i (a / 8 % 4) v
    else e.ownFault by_ a true
  else if 0x50300000 ≤ a ∧ a < 0x50320000 then e.flowCtrl by_ (decide (0x50310000 ≤ a)) ((a - 0x50300000) / 64 % 1024) v
  else if a = CLK_SEL then e.clkSel v
  else if a = CLK_TGT then e.refWatch (e.clkTgt by_ v)
  else if a = REF_CTRL then (e.wrCp a (v &&& 0x37F#32)).refSelect
  else if a = REF_PRIO then (e.wrCp a (v &&& 0x1FFFFF#32)).refSelect
  else if a = TIME_INCR then e.timeIncrSet by_ v
  else if a = TIME_ADJ_CTRL then e.timeStep by_ v
  else match blkOf a with
    | 0x05 => e.schedRange by_ ((o - 0x100) / 16) v
    | 0x06 => e.handover by_ ((o - 0x100) / 8) v
    | 0x07 =>
      let t := (o - 0x1000) / 0x800
      let w := (o - 0x1000) / 0x40 % 32
      if by_.isCC = false then e.winPriv by_ t w
      else if o % 0x40 = 0x20 then e.winCommit by_ t w v
      else e.wrCp a (if o % 0x40 = 0x18 then v else v &&& 0xFFFFF000#32)
    | 0x0A => e.routeRegWrite by_ o v
    | 0x0B =>
      if o < 0x100 then e.sumxRangeSet by_ ((o - 0x80) / 8) v
      else if o < 0x900 then e.busGainSet by_ ((o - 0x100) / 8) v
      else if o < 0x1C00 then e.listWrite by_ 0 ((o - 0x1400) / 8) v
      else e.listWrite by_ 1 ((o - 0x1C00) / 8) v
    | 0x0C => if o < 0xC0 then e.eqaRangeSet by_ false ((o - 0x40) / 8) v else e.eqaRangeSet by_ true ((o - 0xC0) / 8) v
    | 0x0D => e.safeCfgSet by_ ((o - 0x100) / 16) v
    | 0x11 => e.flowRange by_ (o % 16 == 8) ((o - 0x100) / 16) v
    | 0x13 => e.duoCfgSet by_ v
    | 0x16 => e.adaptPair by_ o v
    | k => if 0x20 ≤ k ∧ k ≤ 0x30 then e.coreTenantSet by_ (k - 0x20) v else e

/-- The tenant a pair belongs to. -/
def Engine.pairOwner (e : Engine) (a : Nat) : Option Nat := if a < 0x50000000 then e.cpOwner a else e.entryOwner a

/-! ### Forwarding (R517 to R520) -/

/-- An address of paired state (R517). -/
def Engine.pairedAddr (e : Engine) (a : Nat) : Bool :=
  pairedReg a || decide (0x60000000 ≤ a ∧ a < 0x61000000)
    || (match ingotOf a with | some n => !e.localIngot n | none => false)

/-- Mailbox directions: an H2E message is forwarded whole and E2H works on each engine (R375). -/
def mbxDirAddr (a : Nat) : Bool := decide (blkOf a = 9) && decide (0x100 ≤ a % 0x1000 ∧ a % 0x1000 < 0x300)

/-- A complete pair: refused in quarantine, forwarded by the primary of a pair, and otherwise
due in the next FABRIC cycle (R11, R518, R672). -/
def Engine.pairDone (e : Engine) (by_ : Sender) (a : Nat) (v : Word) : Engine :=
  if e.frozen a then e.quarRefused by_ a
  else if e.forwarding && by_.forwards && e.pairedAddr a then e.forward by_ (.write a v)
  else { e with cpDue := e.cpDue ++ [{ addr := a, val := v, by_ := by_ }] }

/-- A sender whose writes of either word of the pair at `a` are ignored, with its block's own
refusal, which its `cpEffect` raises: the pair is the control core's, or its owner's (R147, R192,
R268, R305, R341, R402, R403, R427, R428, R687). -/
def Engine.pairBars (e : Engine) (by_ : Sender) (a : Nat) : Bool :=
  let owner (t : Option Nat) : Bool := match t with | some t => by_.isTenant t | none => false
  !by_.isCC &&
    (if 0x50400000 ≤ a then !by_.isTenant ((a - 0x50400000) / 2048)
     else if 0x50300000 ≤ a then !owner (e.pairOwner a)
     else
       let k := blkOf a
       if k = 0x0B ∧ 0x100 ≤ offOf a then !owner (e.pairOwner a)
       else [0x05, 0x06, 0x07, 0x0A, 0x0B, 0x0C, 0x0D, 0x11, 0x13, 0x16].contains k
         || decide (0x20 ≤ k ∧ k ≤ 0x30))

/-- A write of the even word: the pending value and its hallmark, from cycle E; a second one
starts again (R10). -/
def Engine.pairEven (e : Engine) (by_ : Sender) (a : Nat) (v : Word) : Engine :=
  if e.pairBars by_ a then e.cpEffect by_ a v
  else { e with cpPend := Tbl.set none e.cpPend a (some { val := v, hm := by_.hm, cyc := e.now }) }

/-- A refused pair: WRITE_MISMATCH, and FLOW_REFUSED for a flow's CTRL pair (R473, R667). -/
def Engine.pairRefused (e : Engine) (by_ : Sender) (a reason : Nat) : Engine :=
  let e := e.writeMismatch (e.pairOwner a) by_.hm a reason
  if 0x50300000 ≤ a ∧ a < 0x50320000 then
    e.flowEvt (decide (0x50310000 ≤ a)) ((a - 0x50300000) / 64 % 1024) 0x01 .warn by_.hm 11
  else e

/-- A write of the odd word of the pair at `a` (R10, R667): another sender's leaves the pending
value; a late or a wrong one discards it. -/
def Engine.pairOdd (e : Engine) (by_ : Sender) (a : Nat) (v : Word) : Engine :=
  if e.pairBars by_ a then e.cpEffect by_ a v
  else match Tbl.get none e.cpPend a with
  | none => e.pairRefused by_ a 0
  | some p =>
    if p.hm ≠ by_.hm then e.pairRefused by_ a 3
    else
      let e := { e with cpPend := Tbl.set none e.cpPend a none }
      if p.cyc + 64 ≤ e.now then e.pairRefused by_ a 2
      else if v = ~~~ p.val then e.pairDone by_ a p.val
      else e.pairRefused by_ a 1

/-- A pending even value at cycle E + 64 is discarded (R10). -/
def Engine.pairTimeout (e : Engine) (a : Nat) : Engine :=
  match Tbl.get none e.cpPend a with
  | some p =>
    if p.cyc + 64 ≤ e.now then
      ({ e with cpPend := Tbl.set none e.cpPend a none }).writeMismatch (e.pairOwner a) p.hm a 2
    else e
  | none => e

/-! ### Writes -/

/-- A write to a slot of the descriptor pool: status words are read-only, but the last four
words of a FREE slot hold a list block's entries (R265, R266, R269). -/
def Engine.poolWrite (e : Engine) (by_ : Sender) (a : Nat) (v : Word) : Engine :=
  let d := (a - 0x50500000) / 64
  let w := a / 4 % 16
  if e.schedMay by_ d = false then e.opRefused by_ d 4 2
  else if w < 12 then e.wr a v
  else if e.get (dState d) = tFree then e.updSched fun s => { s with tail := Tbl.set 0#32 s.tail (4 * d + (w - 12)) v }
  else e

/-- A write to a table aperture. -/
def Engine.tableWrite (e : Engine) (by_ : Sender) (a : Nat) (v : Word) : Engine :=
  if a < 0x50010000 then e.patchWrite by_ ((a - 0x50000000) / 0x8000) ((a - 0x50000000) / 4 % 8192) v
  else if a < 0x50200000 then
    let c := (a - 0x50100000) / 8
    if a % 8 = 0 then e.conWrite by_ (c / 65536) (c % 65536) (some v) none
    else e.conWrite by_ (c / 65536) (c % 65536) none (some v)
  else if a < 0x502F0000 then
    let w := (a - 0x50200000) / 4
    e.coefWrite by_ (w / 122880) (w % 122880) v
  else if a < 0x50300000 then e.chainWrite by_ ((a - 0x502F0000) / 32) (a / 4 % 8) v
  else if a < 0x50320000 then
    e.flowWordWrite by_ (decide (0x50310000 ≤ a)) ((a - 0x50300000) / 64 % 1024) (a / 4 % 16) v
  else if 0x50500000 ≤ a then e.poolWrite by_ a v
  else e

/-- A write to a DMA page or to DMA's global registers (R332, R342). -/
def Engine.dmaRegWrite (e : Engine) (by_ : Sender) (off : Nat) (v : Word) : Engine :=
  let a := 0x40080000 + off
  let k := 2 * (off / 0x1000) + off % 0x1000 / 0x40
  if off = 0x800 ∨ off = 0x804 then (if by_.isCC then e.fieldWrite a v else e)
  else if dmaAdmits k by_ = false then e.dmaRefuse k by_ 1
  else if off % 0x40 = 0x04 then e.dmaCmd k by_ v
  else e.fieldWrite a v

/-- A write to a SCHED register (R268, R299). -/
def Engine.schedRegWrite (e : Engine) (by_ : Sender) (off : Nat) (v : Word) : Engine :=
  let d := bitsOf v 0 12
  match off with
  | 0x000 => if by_.isCC then e.fieldWrite SCHED_CTRL v else e.opRefused by_ 0 4 2
  | 0x008 => e.submit by_ d
  | 0x00C => e.schedReadyWrite by_ d (bitsOf v 12 3)
  | 0x010 => e.schedCancelWrite by_ d
  | 0x014 => e.schedFreeWrite by_ d
  | _ => e.fieldWrite (0x40050000 + off) v

/-- A write to a register that is no pair, by its block's rules. -/
def Engine.blockWrite (e : Engine) (by_ : Sender) (a : Nat) (v : Word) : Engine :=
  let o := offOf a
  match blkOf a with
  | 0x00 =>
    if o = 0x004 then e.sysKeyWrite by_ v
    else if o = 0x008 then e.sysResetWrite by_ v
    else if o = 0x010 then e.tickCfgReg by_ v
    else if o = 0x030 ∨ o = 0x034 then e.evrCfgWrite (o == 0x034) v
    else e.fieldWrite a v
  | 0x01 =>
    if o = 0x004 then e.pllEnable v
    else if o = 0x030 then (e.gateWrite v).gatePorts (e.rd CLK_GATE_STATUS)
    else if o = 0x040 then e.calStart by_ v
    else e.fieldWrite a v
  | 0x02 =>
    if a = REF_VIDEO_CFG ∨ a = REF_OUT_CFG ∨ a = REF_EVT_STATUS then e.fieldWrite a v else e.refRegWrite by_ a v
  | 0x05 => e.schedRegWrite by_ o v
  | 0x06 => if 0x040 ≤ o ∧ o < 0x068 then e.retWrite by_ ((o - 0x040) / 4) v else e.fieldWrite a v
  | 0x07 =>
    if 0x100 ≤ o ∧ o % 0x20 = 0x0C then (if bitOf v 31 then e.faultClear ((o - 0x100) / 0x20) else e) else e.fieldWrite a v
  | 0x08 => e.dmaRegWrite by_ o v
  | 0x09 => e.mbxRegWrite by_ (o / 0x1000) (o % 0x1000) v
  | 0x0A => e.routeRegWrite by_ o v
  | 0x0B => e.sumxRegWrite by_ o v
  | 0x0C => e.eqaRegWrite by_ o v
  | 0x0D => if o = 0x008 then e.safeCmd by_ v else e.safeRegWrite by_ o v
  | 0x0E => e.sapRegWrite by_ o v
  | 0x0F => e.madiRegWrite by_ o v
  | 0x10 => e.netRegWrite by_ o v
  | 0x12 => e.svlRegWrite by_ o v
  | 0x13 => e.duoRegWrite by_ o v
  | 0x14 => e.cueRegWrite by_ o v
  | 0x15 => e.assayRegWrite by_ o v
  | 0x16 => e.adaptRegWrite by_ o v
  | 0x17 => e.pcieRegWrite by_ o v
  | 0x18 => e.twbRegWrite by_ o v
  | 0x19 => e.qspiRegWrite by_ o v
  | 0x1A => e.wdtRegWrite by_ o v
  | 0x1B => e.secRegWrite by_ o v
  | 0x1C => e.cfgRefusedOpen 0x1C by_ o
  | 0x1D => e.fuseRegWrite by_ o v
  | 0x1E => e.pwrRegWrite by_ o v
  | k => if 0x20 ≤ k ∧ k ≤ 0x30 then e.coreRegWrite by_ (k - 0x20) o v else e.fieldWrite a v

/-- A write of word `a`, applied here. -/
def Engine.writeHere (e : Engine) (by_ : Sender) (a : Nat) (v : Word) : Engine :=
  if isPairEven a then e.pairEven by_ a v
  else if isPairOdd a then e.pairOdd by_ (a - 4) v
  else if isRegAddr a then e.blockWrite by_ a v
  else if isTableAddr a then e.tableWrite by_ a v
  else if isMemAddr a then e.memWrite none a [v]
  else if a < 0x10000 ∧ by_.isCC = true then e
  else e.unmapped by_ a true

/-- A forwarded write of SAFE_CMD: the primary makes the arm's checks at once and forwards the
arm it accepts, and forwards the other commands (R426). -/
def Engine.safeCmdPair (e : Engine) (by_ : Sender) (v : Word) : Engine :=
  let e := if bitOf v 8 then e.safeCmd by_ (v &&& 0x10F#32) else e
  if v &&& 0x600#32 = 0#32 then e else e.forward by_ (.write SAFE_CMD (v &&& 0x60F#32))

/-- A write of word `a` by `by_`: what a pair's standby ignores, what its primary forwards, and
what applies here (R518, R520). -/
def Engine.regWrite (e : Engine) (by_ : Sender) (a : Nat) (v : Word) : Engine :=
  if by_.forwards && e.pairedAddr a then
    if e.isStandby then
      if mbxDirAddr a || a == SAFE_CMD then e.writeHere by_ a v
      else e.raise (duoEvt 0x0A .warn by_.hm a by_.hm)
    else if e.forwarding && !mbxDirAddr a && !isPairAddr a then
      if a = SAFE_CMD then e.safeCmdPair by_ v else e.forward by_ (.write a v)
    else e.writeHere by_ a v
  else e.writeHere by_ a v

/-! ### Reads -/

/-- A read of a word of a pair: the check, and the value in use or its complement (R12, R667). -/
def Engine.pairRead (e : Engine) (a : Nat) : Word × Engine :=
  let ev := if isPairEven a then a else a - 4
  if 0x50400000 ≤ a then (e.rd a, e)
  else
    let e := e.cpCheck ev (e.pairOwner ev)
    (e.rd a, e)

/-- A read of a table aperture (R471); words 0x30 to 0x3F of a descriptor read as its status in
every state (R266). -/
def Engine.tableRead (e : Engine) (a : Nat) : Word :=
  if 0x50408000 ≤ a ∧ a < 0x5040C000 then e.taqStatus ((a - 0x50408000) / 16) (a / 4 % 4)
  else e.rd a

/-- A read of a register that is no pair, by its block's rules. -/
def Engine.blockRead (e : Engine) (by_ : Sender) (a : Nat) : Word × Engine :=
  let o := offOf a
  match blkOf a with
  | 0x00 =>
    if a = SYS_ESC_LO then e.escLoRead by_
    else if a = SYS_ESC_HI then (e.escHi by_.hm, e)
    else e.fieldRead a
  | 0x03 =>
    if a = TIME_NOW_NS then e.timeNowRead by_
    else if TIME_NOW_NS < a ∧ a ≤ TIME_NOW_ESC_LO then
      let live := [timeSec e.time.t % 2 ^ 32, timeSec e.time.t / 2 ^ 32, timeFrac e.time.t, e.tick.esc % 2 ^ 32]
      (e.capturedItem TIME_NOW_NS by_.hm live ((a - TIME_NOW_NS) / 4 - 1), e)
    else if a = TIME_LATCH_ESC_LO then e.latchRead by_
    else if TIME_LATCH_ESC_LO < a ∧ a ≤ TIME_TICK_PHASE then
      (e.capturedItem TIME_LATCH_ESC_LO by_.hm e.latchSet ((a - TIME_LATCH_ESC_LO) / 4), e)
    else if a = TIME_TXTS_INFO then e.txtsRead
    else e.fieldRead a
  | 0x04 => if o < 0x040 then (e.taqTenantStatus (o / 4), e) else e.fieldRead a
  | 0x05 =>
    if 0x100 ≤ o ∧ o < 0x200 ∧ o % 16 = 8 then e.cqPop by_ ((o - 0x100) / 16)
    else match e.schedShow by_ a with
      | some v => (v, e)
      | none => e.fieldRead a
  | 0x08 =>
    if o = 0x800 ∨ o = 0x804 then (if by_.isCC then e.fieldRead a else (0#32, e))
    else if dmaAdmits (2 * (o / 0x1000) + o % 0x1000 / 0x40) by_ then e.fieldRead a
    else (0#32, e)
  | 0x09 => e.mbxRegRead by_ (o / 0x1000) (o % 0x1000)
  | 0x0B => (e.sumxRegRead by_ o).getD (e.fieldRead a)
  | 0x0C => if a = EQA_STATUS then (e.eqaStatus, e) else e.fieldRead a
  | 0x14 =>
    if a = CUE_RING_CNT_LO then e.ringCntLo by_
    else if a = CUE_RING_CNT_HI then (e.ringCntHi by_.hm, e)
    else e.fieldRead a
  | 0x17 =>
    if 0x8000 ≤ o ∧ o < 0x8200 then (e.msixRead 16 (o - 0x8000), e)
    else if o = 0x9000 then (e.pbaRead 16, e)
    else e.fieldRead a
  | 0x18 =>
    if a = TWB_STATUS then
      (setBits (e.rd a) 1 1 (e.on TWB_CTRL_EN && (e.mode != 2 || e.twb.awake)).toNat, e)
    else e.fieldRead a
  | 0x1C =>
    if by_.isDebug || a == DBG_STATUS || a == DBG_SCOPE || a == DBG_HALTED then e.fieldRead a else (0#32, e)
  | 0x1E =>
    if a = PWR_STATUS then (e.pwrStatus, e)
    else if a = PWR_WAKE_CAUSE then e.wakeCauseRead by_
    else e.fieldRead a
  | k =>
    if 0x20 ≤ k ∧ k ≤ 0x30 then (e.coreRegRead by_ (k - 0x20) o).getD (e.fieldRead a) else e.fieldRead a

/-- A read of word `a` by `by_`. A tenant's read of another's table entry is an OWN fault
(R321); the boot ROM's contents are its own (R32). -/
def Engine.regRead (e : Engine) (by_ : Sender) (a : Nat) : Word × Engine :=
  if isTableAddr a && by_.isTenantReq && !e.entryAdmits by_ a then (0#32, e.ownFault by_ a false)
  else if isPairAddr a then e.pairRead a
  else if isRegAddr a then e.blockRead by_ a
  else if isTableAddr a then (e.tableRead a, e)
  else if isMemAddr a then (e.ldW a, e)
  else if a < 0x10000 ∧ by_.isCC = true then (Config.romWord (a / 4), e)
  else (0#32, e.unmapped by_ a false)

/-- A peek: what the read would answer, with no effect but the reader's own capture (R653). -/
def Engine.peek (e : Engine) (by_ : Sender) (a : Nat) : Word × Engine :=
  let r := e.regRead by_ a
  (r.1, { e with caps := r.2.caps })

/-! ### Rows -/

/-- What a row's physical access to memory meets (R34, R303): the control core's ownership of the
ingot, whose fault is recorded for it; a debug request was admitted by its port; no other
sender's physical window reaches memory. -/
def Engine.memRow (e : Engine) (by_ : Sender) (a : Nat) (write : Bool) : Grant × Engine :=
  if isMemAddr a = false ∨ by_.isDebug = true then (.go, e)
  else if by_.isCC = false then (.fault 0, e.unmapped by_ a write)
  else match ingotOf a with
    | none => (.go, e)
    | some n =>
      match e.ingotReq n .cc with
      | (.fault k, e) => (.fault k, e.accessFault 0 a a k write 0x10 by_.hm)
      | r => r

/-- REGISTER_WRITE. A write that must wait at its ingot is not made yet. -/
def execRegisterWrite (by_ : Sender) (a : Nat) (v : Word) (s : State) : Out :=
  s.eff fun e =>
    match e.memRow by_ a true with
    | (.go, e) => e.regWrite by_ a v
    | (_, e) => e

/-- REGISTER_READ. A read that faults answers zero; one that must wait is not answered yet. -/
def execRegisterRead (by_ : Sender) (a : Nat) (s : State) : Out :=
  s.eff fun e =>
    match e.memRow by_ a false with
    | (.go, e) => Engine.answer (e.regRead by_ a)
    | (.fault _, e) => Engine.answer (0#32, e)
    | (.wait, e) => e

/-- CP_EVEN_WRITE: the even word of the pair at or below `a`. -/
def execCpEvenWrite (by_ : Sender) (a : Nat) (v : Word) (s : State) : Out :=
  s.eff fun e => if isPairEven (a / 8 * 8) then e.regWrite by_ (a / 8 * 8) v else e

/-- CP_ODD_WRITE: the odd word of that pair. -/
def execCpOddWrite (by_ : Sender) (a : Nat) (v : Word) (s : State) : Out :=
  s.eff fun e => if isPairEven (a / 8 * 8) then e.regWrite by_ (a / 8 * 8 + 4) v else e

/-- CP_PAIR_TIMEOUT. -/
def execCpPairTimeout (a : Nat) (s : State) : Out := s.eff fun e => e.pairTimeout (a / 8 * 8)

/-- UNMAPPED_ACCESS: an access to a reserved address reads zero or is ignored (R33). -/
def execUnmappedAccess (by_ : Sender) (a : Nat) (write : Bool) (s : State) : Out :=
  s.eff fun e =>
    if isRegAddr a || isTableAddr a || isMemAddr a || a < 0x10000 then e
    else if write then e.regWrite by_ a 0#32
    else Engine.answer (e.regRead by_ a)

end Sys2Proof.Machine
end

