-- ==== Sys2Proof/Machine/Mac.lean ====
section
/-!
DEFINITION. The multiply-accumulate family, the accumulator operations and the
reading of accumulators (chapter "Isalorin Arithmetic and MAC
Instructions", R209 to R218). BQ and STA, which store to memory, are in Machine/CoreMem.lean.
-/
namespace Sys2Proof.Machine

/-- The MAC class traps ILLEGAL on the control core (R177). -/
def macNeed (i : Issue) (illegal : Bool) : Need := { illegal := i.core == 16 || illegal }

/-- A sum of products accumulated, or replacing with CLR (R210). -/
def CoreCtx.macInto (x : CoreCtx) (an : Nat) (clr : Bool) (sum : Int) : CoreCtx :=
  x.accSat an ((if clr then 0 else x.rdA an) + sum)

/-- The product of ga and gb under FMT, with the sign of SUB (R209, R210). -/
def CoreCtx.prod (x : CoreCtx) (fmt ga gb : Nat) (sub : Bool) : Int :=
  let p := product fmt (x.rdG ga) (x.rdG gb)
  if sub then -p else p

/-- MAC and MSU (R210). -/
def Engine.macOp (e : Engine) (i : Issue) (fmt an ga gb : Nat) (clr sub : Bool) : Engine :=
  e.issueCtx i (macNeed i (decide (5 ≤ fmt))) fun x => x.macInto an clr (x.prod fmt ga gb sub)

/-- MAC (R210). -/
def execMac (i : Issue) (fmt an ga gb : Nat) (clr : Bool) (s : State) : Out :=
  s.eff fun e => e.macOp i fmt an ga gb clr false

/-- MSU (R210). -/
def execMsu (i : Issue) (fmt an ga gb : Nat) (clr : Bool) (s : State) : Out :=
  s.eff fun e => e.macOp i fmt an ga gb clr true

/-- DOT2 (R210); ga and gb must be even. -/
def execDot2 (i : Issue) (fmt an ga gb : Nat) (sub clr : Bool) (s : State) : Out :=
  s.eff fun e => e.issueCtx i
    (macNeed i (decide (5 ≤ fmt) || ga % 2 == 1 || gb % 2 == 1)) fun x =>
      x.macInto an clr (x.prod fmt ga gb sub + x.prod fmt (ga + 1) (gb + 1) sub)

/-- MACP (R210, R211); An, ga and gb must be even. -/
def execMacp (i : Issue) (fmt an ga gb : Nat) (sub clr : Bool) (s : State) : Out :=
  s.eff fun e => e.issueCtx i
    (macNeed i (decide (5 ≤ fmt) || an % 2 == 1 || ga % 2 == 1 || gb % 2 == 1)) fun x =>
      (x.macInto an clr (x.prod fmt ga gb sub)).macInto (an + 1) clr
        (x.prod fmt (ga + 1) (gb + 1) sub)

/-- An accumulator operation: An from a value, saturated to 72 bits (R212). -/
def Engine.accOp (e : Engine) (i : Issue) (an : Nat) (f : CoreCtx → Int) : Engine :=
  e.issueCtx i (macNeed i false) fun x => x.accSat an (f x)

/-- ACLR (R212). -/
def execAclr (i : Issue) (an : Nat) (s : State) : Out := s.eff fun e => e.accOp i an fun _ => 0

/-- AMOV (R212). -/
def execAmov (i : Issue) (an am : Nat) (s : State) : Out :=
  s.eff fun e => e.accOp i an fun x => x.rdA am

/-- ALD: ga in bits [63:32] with its sign above (R157, R212). -/
def execAld (i : Issue) (an ga : Nat) (s : State) : Out :=
  s.eff fun e => e.accOp i an fun x => (x.rdG ga).toInt * 2 ^ 32

/-- AADD (R212). -/
def execAadd (i : Issue) (an am : Nat) (s : State) : Out :=
  s.eff fun e => e.accOp i an fun x => x.rdA an + x.rdA am

/-- ASUB (R212). -/
def execAsub (i : Issue) (an am : Nat) (s : State) : Out :=
  s.eff fun e => e.accOp i an fun x => x.rdA an - x.rdA am

/-- ASHL (R212). -/
def execAshl (i : Issue) (an k : Nat) (s : State) : Out :=
  s.eff fun e => e.accOp i an fun x => x.rdA an * 2 ^ (k % 16)

/-- ASRA (R212). -/
def execAsra (i : Issue) (an k : Nat) (s : State) : Out :=
  s.eff fun e => e.accOp i an fun x => (x.rdA an).fdiv (2 ^ (k % 16))

/-- ANEG (R212). -/
def execAneg (i : Issue) (an : Nat) (s : State) : Out :=
  s.eff fun e => e.accOp i an fun x => -(x.rdA an)

/-- The narrowing of An into a word, and SAT when it saturates (R215, R218). -/
def CoreCtx.narrowed (x : CoreCtx) (an s rm sm : Nat) : Word × Bool :=
  narrow (x.rdA an) (shift6 s) (x.trn rm) (x.satSel sm)

/-- RDA (R218); the value 3 of rm or sm is reserved. -/
def execRda (i : Issue) (gd an sh rm sm : Nat) (s : State) : Out :=
  s.eff fun e => e.issueCtx i (macNeed i (decide (3 ≤ rm) || decide (3 ≤ sm))) fun x =>
    let r := x.narrowed an sh rm sm
    let x := if r.2 then { x with sat := true } else x
    x.wrG gd r.1

/-- The 16 state bytes at Pp lie in local data memory and, with Lp not 0, in the
circular buffer (R216). -/
def CoreCtx.bqInside (x : CoreCtx) (pp : Nat) : Bool :=
  let p := (x.rdP pp).toNat
  let b := (x.rdB pp).toNat
  let l := x.rdL pp
  decide (p + 16 ≤ 0x40000) && (l == 0 || decide (b ≤ p ∧ p + 16 ≤ b + 4 * l))

end Sys2Proof.Machine
end

