-- ==== Sys2Proof/Machine/CoreMem.lean ====
section
/-!
DEFINITION. Loads and stores of the cores: where an access goes and which check stops it
(R161 to R164, R177, R303, R321, R420, R658), loads that wait for remote data, posted stores,
LDL and STC, BQ and STA, and SPLIT (chapters "Isalorin Programming Model" and "Isalorin
Memory, Flow and System Instructions").
-/
namespace Sys2Proof.Machine

/-! ### Where an access goes -/

/-- What an access that passes its checks acts on: memory at once; an ingot or a memory that
may make it wait; a register or table word; or a host address with its No Snoop. -/
inductive AccGo where
  | mem (pa : Nat) | remote (pa : Nat) (acc : Bool) | reg (pa : Nat)
  | host (addr : Nat) (nosnoop : Bool)
  deriving DecidableEq, Repr

/-- The outcome of the checks: where the access goes, or the trap vector, the fault kind (0:
none is recorded) and the physical or host address. -/
inductive AccRes where
  | go (g : AccGo)
  | fault (vec kind pa : Nat)
  deriving DecidableEq, Repr

/-- A physical address as a core reaches it (R163, R303, R304, R321): an Anvil core's store
to an inactive parameter page faults ARMED (R420); another core's data memory is admitted
for that core's tenant, and its instruction memory is not stored to (R162). -/
def Engine.accPhys (e : Engine) (c pa : Nat) (write : Bool) : AccRes × Engine :=
  match ingotOf pa with
  | some n =>
    if c != 16 && write && e.paramArmed pa then (.fault 0x07 kArmed pa, e)
    else match e.ingotReq n (if c = 16 then .cc else .core c) with
      | (.go, e) => (.go (.remote pa true), e)
      | (.wait, e) => (.go (.remote pa false), e)
      | (.fault k, e) => (.fault (if k = kRetain then 0x09 else 0x08) k pa, e)
  | none =>
    if c = 16 then (.go (if isMemAddr pa then .mem pa else .reg pa), e)
    else if 0x60000000 ≤ pa ∧ pa < 0x61000000 then
      let o := (pa - 0x60000000) / 0x100000
      let instr := decide (0x40000 ≤ pa % 0x100000)
      if e.coreTenant o != e.coreTenant c || (instr && (write || o == c)) then
        (.fault 0x08 kOwn pa, e)
      else if write && e.paramArmed pa then (.fault 0x07 kArmed pa, e)
      else if (e.coreOf o).scrub.isSome then (.go (.remote pa false), e)
      else (.go (.mem pa), e)
    else if isTableAddr pa && !e.entryAdmits (e.coreSender c) pa then (.fault 0x08 kOwn pa, e)
    else (.go (.reg pa), e)

/-- A data watchpoint matches an access by core `c` (R658). -/
def Engine.watched (e : Engine) (c va : Nat) (write : Bool) : Bool :=
  (List.range 4).any fun k =>
    e.on (DBG_WP_CFG_EN k) && bitOf (e.rd (DBG_WP_CFG k)) c
      && (if write then e.on (DBG_WP_CFG_W k) else e.on (DBG_WP_CFG_R k))
      && va / 2 ^ e.get (DBG_WP_CFG_IGN k) == (e.rd (DBG_WP_ADDR k)).toNat / 2 ^ e.get (DBG_WP_CFG_IGN k)

/-- The checks of an access of `n` words at `va` but the watchpoints, lowest vector first:
alignment (R161), an LDL or STC outside the ingots (R233), translation (R162, R318), and the
target's own. A host read needs the link (R323). -/
def Engine.accCheck (e : Engine) (c va n : Nat) (write atomic : Bool) : AccRes × Engine :=
  if va % (4 * n) ≠ 0 then (.fault 0x05 0 0, e)
  else if c = 16 then
    if atomic && (ingotOf va).isNone then (.fault 0x06 0 0, e) else e.accPhys c va write
  else if va < 0x40000 then
    if atomic then (.fault 0x06 0 0, e)
    else if write && e.paramArmed (localAddr c va) then (.fault 0x07 kArmed (localAddr c va), e)
    else (.go (.mem (localAddr c va)), e)
  else match e.xlate (e.coreTenant c) va write with
    | .fault k => (.fault 0x07 k 0, e)
    | .ok pa i =>
      if atomic && (i.host || (ingotOf pa).isNone) then (.fault 0x06 0 0, e)
      else if i.host then
        if !write && !e.hostReads (e.coreTenant c) then (.fault 0x0A kLinkdown pa, e)
        else (.go (.host pa i.nosnoop), e)
      else e.accPhys c pa write

/-- All the checks of an access; WATCH is the last vector (R177, R658). -/
def Engine.access (e : Engine) (c va n : Nat) (write atomic : Bool) : AccRes × Engine :=
  let r := e.accCheck c va n write atomic
  match r.1 with
  | .go _ => if e.watched c va write then (.fault 0x0D 0 0, e) else r
  | .fault _ _ _ => r

/-- An access of core `c` that its checks stop: its fault is recorded (R325) and the core
traps; a watchpoint halts an attached core instead (R658). -/
def Engine.accTrap (e : Engine) (c va : Nat) (write : Bool) (vec kind pa slot : Nat) : Engine :=
  if vec = 0x0D ∧ e.attached c = true then e.debugHalt c
  else
    let at_ := (e.ctxOf c).trapAt
    let e := if kind = 0 then e
      else e.accessFault (e.coreTenant c) va pa kind write c (e.coreHm c)
    e.trap c vec at_ va slot

/-- Memory written by core `c`; what the control core writes to paired memory goes the way of
its register writes (R188, R518). -/
def Engine.coreStore (e : Engine) (c pa : Nat) (ws : List Word) : Engine :=
  if c = 16 ∧ e.pairedAddr pa = true ∧ (e.forwarding = true ∨ e.isStandby = true) then
    (ws.foldl (fun a w => (a.1.regWrite (e.coreSender 16) a.2 w, a.2 + 4)) (e, pa)).1
  else e.memWrite (some c) pa ws

/-! ### Loads -/

/-- Memory as core `c` loads it: its own earlier stores that are still posted show (R234). -/
def Engine.loadWords (e : Engine) (c pa n : Nat) : List Word :=
  (List.range n).map fun k =>
    let a := pa + 4 * k
    (e.coreOf c).posted.foldl (fun w p =>
      if !p.host && decide (p.pa ≤ a) then (p.ws[(a - p.pa) / 4]?).getD w else w) (e.ldW a)

/-- Words of registers or tables read in address order. -/
def Engine.regWords (e : Engine) (by_ : Sender) (a : Nat) : Nat → List Word × Engine
  | 0 => ([], e)
  | n + 1 =>
    let r := e.regRead by_ a
    let t := r.2.regWords by_ (a + 4) n
    (r.1 :: t.1, t.2)

def LoadItem.words (i : LoadItem) : Nat := if i.wide then 2 else 1

/-- The checks of each operand of a load, first to last. -/
def Engine.loadChecks (e : Engine) (c : Nat) : List LoadItem → List (LoadItem × AccRes) × Engine
  | [] => ([], e)
  | i :: l =>
    let r := e.access c i.va i.words false i.ldl
    let t := r.2.loadChecks c l
    ((i, r.1) :: t.1, t.2)

/-- The fault that is taken: the lowest vector, and the first operand among equals (R177). -/
def worstFault (l : List (LoadItem × AccRes)) : Option (LoadItem × Nat × Nat × Nat) :=
  l.foldl (fun best x =>
    match x.2 with
    | .fault vec kind pa =>
      match best with
      | some b => if vec < b.2.1 then some (x.1, vec, kind, pa) else best
      | none => some (x.1, vec, kind, pa)
    | .go _ => best) none

/-- One load leaves the core: data at hand at once, or an item that waits for it (R170). -/
def Engine.loadLeave (e : Engine) (c : Nat) (i : LoadItem) : AccRes → LoadItem × Engine
  | .go (.mem pa) => ({ i with pa := pa, data := some (e.loadWords c pa i.words) }, e)
  | .go (.reg pa) =>
    let r := e.regWords (e.coreSender c) pa i.words
    ({ i with pa := pa, data := some r.1 }, r.2)
  | .go (.remote pa acc) => ({ i with pa := pa, acc := acc }, e)
  | .go (.host a _) => ({ i with pa := a, host := true }, e)
  | .fault _ _ _ => (i, e)

/-- The result of a load in its destination (R226, R227). -/
def CoreCtx.putLoad (x : CoreCtx) (i : LoadItem) : CoreCtx :=
  let d := i.data.getD []
  let x := x.wrG i.dst (d[0]?.getD 0#32)
  if i.wide then x.wrG (i.dst + 1) (d[1]?.getD 0#32) else x

/-- Once every operand has its data, the load completes: destinations, then pointers, and an
LDL's reservation, in place of any other (R187, R228). -/
def Engine.loadDone (e : Engine) (c : Nat) : Engine :=
  match (e.coreOf c).wait with
  | .load items ptrs =>
    if items.all fun i => i.data.isSome then
      let e := e.updCtx c fun x => ptrs.foldl (fun x p => x.wrP p.1 p.2) (items.foldl CoreCtx.putLoad x)
      let e := match items.find? fun i => i.ldl with
        | some i => e.updCore c fun k => { k with resv := some (i.pa / 8 * 8) }
        | none => e
      e.waitDone c
    else e
  | _ => e

/-- The loads of one instruction, with the pointer values that follow: the worst fault is
taken and nothing leaves the core (R176), or every operand leaves. -/
def Engine.loads (e : Engine) (c : Nat) (items : List LoadItem) (ptrs : List (Nat × Word)) : Engine :=
  let r := e.loadChecks c items
  match worstFault r.1 with
  | some (i, vec, kind, pa) => e.accTrap c i.va false vec kind pa i.slot
  | none =>
    let l := r.1.foldl (fun (a : List LoadItem × Engine) x =>
      let y := a.2.loadLeave c x.1 x.2
      (a.1 ++ [y.1], y.2)) ([], r.2)
    (l.2.setWait c (.load l.1 ptrs)).loadDone c

/-- The address of a load or store (R160, R225). -/
def CoreCtx.lsAddr (x : CoreCtx) : LsAddr → Nat
  | .ptr n _ => (x.rdP n).toNat
  | .base ga imm => (x.rdG ga + x.imm true imm).toNat

/-- The pointer update of a load or store (R160, R225). -/
def CoreCtx.lsPtr (x : CoreCtx) : LsAddr → List (Nat × Word)
  | .ptr n true => [(n, x.postMod n (x.rdM n))]
  | _ => []

/-- MODE 1 accepts EXT (R222). -/
def lsExt : LsAddr → Bool
  | .ptr _ _ => false
  | .base _ _ => true

/-- LDW and LDD (R226). -/
def Engine.loadL (e : Engine) (i : Issue) (g : Nat) (ad : LsAddr) (wide : Bool) : Engine :=
  e.issue i { ext := lsExt ad, illegal := wide && g % 2 == 1 } fun e =>
    let x := e.ctxOf i.core
    e.loads i.core [{ dst := g, wide := wide, va := x.lsAddr ad, pa := 0 }] (x.lsPtr ad)

def execLdw (i : Issue) (g : Nat) (ad : LsAddr) (s : State) : Out := s.eff fun e => e.loadL i g ad false

def execLdd (i : Issue) (g : Nat) (ad : LsAddr) (s : State) : Out := s.eff fun e => e.loadL i g ad true

/-- LD2 (R227, R228). -/
def Engine.ld2 (e : Engine) (i : Issue) (gd ge pn : Nat) (pmn : Bool) (pm : Nat) (pmm wide : Bool) :
    Engine :=
  let bad := gd == ge || (wide && (gd % 2 == 1 || ge % 2 == 1)) || (pn == pm && (pmn || pmm))
  e.issue i { illegal := bad } fun e =>
    let x := e.ctxOf i.core
    e.loads i.core
      [{ dst := gd, wide := wide, va := (x.rdP pn).toNat, pa := 0 },
       { dst := ge, wide := wide, va := (x.rdP pm).toNat, pa := 0, slot := 1 }]
      (x.lsPtr (.ptr pn pmn) ++ x.lsPtr (.ptr pm pmm))

def execLd2 (i : Issue) (gd ge pn : Nat) (pmn : Bool) (pm : Nat) (pmm wide : Bool) (s : State) : Out :=
  s.eff fun e => e.ld2 i gd ge pn pmn pm pmm wide

/-- LDL (R231, R233). -/
def execLdl (i : Issue) (gd ga : Nat) (s : State) : Out :=
  s.eff fun e => e.issue i {} fun e =>
    e.loads i.core [{ dst := gd, wide := false, va := ((e.ctxOf i.core).rdG ga).toNat, pa := 0, ldl := true }] []

/-- Memory at `pa` answers now: its ingot is OWNED and its group ACTIVE, or its core is not
being scrubbed (R304, R308, R314). -/
def Engine.memReady (e : Engine) (pa : Nat) : Bool :=
  match ingotOf pa with
  | some n => e.get (INGOT_STATE_STATE n) == 1 && e.get (retState (n / 8)) == 0
  | none => (e.coreOf ((pa - 0x60000000) / 0x100000)).scrub.isNone

/-- Data for operand `slot` of the load core `c` waits for. -/
def Engine.loadData (e : Engine) (c slot : Nat) (ws : List Word) : Engine :=
  match (e.coreOf c).wait with
  | .load items ptrs =>
    let items := items.map fun i => if i.slot = slot ∧ i.data = none then { i with data := some ws } else i
    (e.setWait c (.load items ptrs)).loadDone c
  | _ => e

/-- The operand of the load core `c` waits for, while its data is still to come. -/
def Engine.loadItem (e : Engine) (c slot : Nat) (host : Bool) : Option LoadItem :=
  match (e.coreOf c).wait with
  | .load items _ => items.find? fun i => i.slot == slot && i.host == host && i.data.isNone
  | _ => none

/-- REMOTE_LOAD_COMPLETE: memory answers operand `slot` of the load of core `c`; a load that
waited at its ingot does so once the ingot is its owner's and awake (R170, R308). The response
of a discarded load arrives and is dropped (R190). -/
def Engine.remoteLoad (e : Engine) (c slot : Nat) : Engine :=
  match e.loadItem c slot false with
  | some i =>
    if i.acc || e.memReady i.pa then e.loadData c slot (e.loadWords c i.pa i.words) else e
  | none => e.updCore c fun k => { k with dropped := k.dropped.drop 1 }

def execRemoteLoadComplete (c slot : Nat) (s : State) : Out := s.eff fun e => e.remoteLoad c slot

/-- A host read of core `c` ends with data, or in a fault: HOSTERR, whatever the kind (R323). -/
def Engine.coreHostRead (e : Engine) (c slot : Nat) (r : Except Nat (List Word)) : Engine :=
  match e.loadItem c slot true with
  | none => e
  | some i =>
    match r with
    | .ok ws => e.loadData c slot ws
    | .error kind => (e.setWait c .run).accTrap c i.va false 0x0A kind i.pa slot

/-! ### Stores -/

/-- A store that has passed its checks: done, or posted until its target accepts it (R170,
R236). -/
def Engine.storeLeave (e : Engine) (c va : Nat) (ws : List Word) : AccGo → Engine
  | .mem pa => e.coreStore c pa ws
  | .reg pa => (ws.foldl (fun a w => (a.1.regWrite (e.coreSender c) a.2 w, a.2 + 4)) (e, pa)).1
  | .remote pa acc =>
    let p : Posted := { pa := pa, ws := ws, acc := acc, va := va, hm := e.coreHm c }
    e.updCore c fun k => { k with posted := k.posted ++ [p] }
  | .host a ns =>
    let p : Posted := { pa := a, ws := ws, host := true, nosnoop := ns, va := va, hm := e.coreHm c }
    e.updCore c fun k => { k with posted := k.posted ++ [p] }

/-- The store of one instruction, and what it leaves of its context. -/
def Engine.store (e : Engine) (c va : Nat) (ws : List Word) (f : CoreCtx → CoreCtx) : Engine :=
  let r := e.access c va ws.length true false
  match r.1 with
  | .fault vec kind pa => e.accTrap c va true vec kind pa 0
  | .go g =>
    let e := r.2.storeLeave c va ws g
    e.setCtx c (f (e.ctxOf c)).advance

/-- Pointer updates applied to a context. -/
def CoreCtx.putPtrs (ptrs : List (Nat × Word)) (x : CoreCtx) : CoreCtx :=
  ptrs.foldl (fun x p => x.wrP p.1 p.2) x

/-- STW and STD (R226). -/
def Engine.storeL (e : Engine) (i : Issue) (g : Nat) (ad : LsAddr) (wide : Bool) : Engine :=
  e.issue i { ext := lsExt ad, illegal := wide && g % 2 == 1 } fun e =>
    let x := e.ctxOf i.core
    let ws := if wide then [x.rdG g, x.rdG (g + 1)] else [x.rdG g]
    e.store i.core (x.lsAddr ad) ws (CoreCtx.putPtrs (x.lsPtr ad))

def execStw (i : Issue) (g : Nat) (ad : LsAddr) (s : State) : Out := s.eff fun e => e.storeL i g ad false

def execStd (i : Issue) (g : Nat) (ad : LsAddr) (s : State) : Out := s.eff fun e => e.storeL i g ad true

/-- STA (R219): the narrowing of An stored at Pn; the value 3 of rm or sm is reserved. -/
def Engine.sta (e : Engine) (i : Issue) (an pn : Nat) (pm : Bool) (sh rm sm : Nat) : Engine :=
  e.issue i (macNeed i (decide (3 ≤ rm) || decide (3 ≤ sm))) fun e =>
    let x := e.ctxOf i.core
    let r := x.narrowed an sh rm sm
    e.store i.core (x.rdP pn).toNat [r.1] fun y =>
      let y := CoreCtx.putPtrs (x.lsPtr (.ptr pn pm)) y
      if r.2 then { y with sat := true } else y

def execSta (i : Issue) (an pn : Nat) (pm : Bool) (sh rm sm : Nat) (s : State) : Out :=
  s.eff fun e => e.sta i an pn pm sh rm sm

/-- The reservation of core `c` covers `pa` (R187, R232). -/
def Engine.reserved (e : Engine) (c pa : Nat) : Bool := (e.coreOf c).resv == some (pa / 8 * 8)

/-- STC (R232, R233): the reservation ends; without it on ga's granule nothing is sent and gd
is 0; with it the store leaves and the core waits for its ingot's acknowledgement. -/
def Engine.stc (e : Engine) (i : Issue) (gd gs ga : Nat) : Engine :=
  let c := i.core
  let fail (e : Engine) : Engine :=
    let e := e.updCore c fun k => { k with resv := none }
    e.setCtx c ((e.ctxOf c).wrG gd 0#32).advance
  e.issue i {} fun e =>
    let x := e.ctxOf c
    let va := (x.rdG ga).toNat
    let r := e.access c va 1 true true
    match r.1 with
    | .fault vec kind pa =>
      let sent := decide (vec = 0x08 ∨ vec = 0x09 ∨ kind = kArmed)
      if sent && !e.reserved c pa then fail e else e.accTrap c va true vec kind pa 0
    | .go (.remote pa acc) =>
      if e.reserved c pa then
        let p : Posted := { pa := pa, ws := [x.rdG gs], acc := acc, stc := true, va := va, hm := e.coreHm c }
        let e := r.2.updCore c fun k => { k with resv := none, posted := k.posted ++ [p] }
        e.setWait c (.stc gd)
      else fail e
    | .go _ => fail e

def execStc (i : Issue) (gd gs ga : Nat) (s : State) : Out := s.eff fun e => e.stc i gd gs ga

/-- With its last store accepted, what the core waits for goes on (R236, R237, R261). -/
def Engine.storesDone (e : Engine) (c : Nat) : Engine :=
  if (e.coreOf c).posted.isEmpty then
    match (e.coreOf c).wait with
    | .fence | .isync => e.waitDone c
    | .tready d => (e.treadyNow c d).waitDone c
    | _ => e
  else e

/-- An accepted store takes effect at its target (R170, R236). -/
def Engine.storeLand (e : Engine) (c : Nat) (p : Posted) : Engine :=
  if p.host then
    e.hostWrite { tenant := hmTenant p.hm, va := p.va, addr := p.pa, ws := p.ws,
                  nosnoop := p.nosnoop, agent := c, hm := p.hm }
  else e.coreStore c p.pa p.ws

/-- The STC of core `c` completes with 1 (R232). -/
def Engine.stcDone (e : Engine) (c : Nat) : Engine :=
  match (e.coreOf c).wait with
  | .stc gd => (e.updCtx c fun x => x.wrG gd 1#32).waitDone c
  | _ => e

/-- STORE_ACCEPTED: the oldest posted store of core `c` to memory, or to the host, is accepted
(R234, R236). One that waits at its ingot is accepted once the ingot is its owner's and awake. -/
def Engine.storeAccepted (e : Engine) (c : Nat) (host : Bool) : Engine :=
  match (e.coreOf c).posted.find? fun p => p.host == host with
  | none => e
  | some p =>
    if p.host || p.acc || e.memReady p.pa then
      let e := e.updCore c fun k => { k with posted := k.posted.eraseP fun p => p.host == host }
      let e := e.storeLand c p
      let e := if p.stc then e.stcDone c else e
      e.storesDone c
    else e

def execStoreAccepted (c : Nat) (host : Bool) (s : State) : Out := s.eff fun e => e.storeAccepted c host

/-! ### BQ -/

/-- The check of the two 64-bit reads and writes of BQ at address `p` of data memory beyond
those of R216: an inactive parameter page (R420), then watchpoints (R658). -/
def Engine.bqCheck (e : Engine) (c p : Nat) : Option (Nat × Nat × Bool × Nat × Nat) :=
  match [p, p + 8].find? fun a => e.paramArmed (localAddr c a) with
  | some a => some (0x07, kArmed, true, a, localAddr c a)
  | none =>
    match [p, p + 8].find? fun a => e.watched c a false with
    | some a => some (0x0D, 0, false, a, 0)
    | none => match [p, p + 8].find? fun a => e.watched c a true with
      | some a => some (0x0D, 0, true, a, 0)
      | none => none

/-- BQ An, gx, gc, Pp (R213 to R216): one biquad section over the state in memory. -/
def Engine.bq (e : Engine) (i : Issue) (an gx gc pp : Nat) : Engine :=
  let c := i.core
  e.issue i (macNeed i (decide (gc < 1 ∨ 27 < gc))) fun e =>
    let x := e.ctxOf c
    let p := (x.rdP pp).toNat
    if x.bqInside pp = false then e.trap c 0x00 x.trapAt p
    else if p % 8 ≠ 0 then e.trap c 0x05 x.trapAt p
    else match e.bqCheck c p with
      | some (vec, kind, write, va, pa) => e.accTrap c va write vec kind pa 0
      | none =>
        let a := localAddr c p
        let st (k : Nat) : Int := (e.ldW (a + 4 * k)).toInt
        let g (k : Nat) : Int := (x.rdG (gc + k)).toInt
        let inp := x.rdG gx
        let sum := (g 0 * inp.toInt + g 1 * st 0 + g 2 * st 1 - g 3 * st 2 - g 4 * st 3) * 4
        let x1 := x.accSat an sum
        let r := narrow (x1.rdA an) 0 x.rmode x.saten
        let x2 := if r.2 then { x1 with sat := true } else x1
        let x3 := (x2.wrG gx r.1).wrP pp (x2.postMod pp 4#32)
        let e' := e.memWrite (some c) a [inp, e.ldW a, r.1, e.ldW (a + 8)]
        e'.setCtx c x3.advance

def execBq (i : Issue) (an gx gc pp : Nat) (s : State) : Out := s.eff fun e => e.bq i an gx gc pp

/-! ### SPLIT -/

/-- What SPLIT writes (R250): the split index of the block in COMPUTE for the running task, and the
tenant's PARAM_BANK in [31:16]. -/
def Engine.splitWord (e : Engine) (c : Nat) : Word :=
  let b := e.computeBlock
  let j := match (e.coreOf c).task with
    | some d => e.splitIndex b (imgSgMask (e.img d)) (e.desc d).gate
    | none => e.nSamp
  BitVec.ofNat 32 (j % 64 + 2 ^ 16 * e.paramBank (e.coreTenant c) b)

/-- SPLIT g; a reserved code on the control core (R258). -/
def execSplit (i : Issue) (g : Nat) (s : State) : Out :=
  s.eff fun e => e.issue i { illegal := i.core == 16 } fun e =>
    e.setCtx i.core ((e.ctxOf i.core).wrG g (e.splitWord i.core)).advance

end Sys2Proof.Machine
end

