-- ==== Sys2Proof/Machine/DmaMove.lean ====
section
/-!
DEFINITION. DMA moves: descriptors, bursts, paired moves, faults and completion (chapter
"Ingots, Translation and DMA", R326 to R339), with the standby's host reads (R521).
-/
namespace Sys2Proof.Machine

/-! ### Descriptors (R326) -/

/-- Field of the current descriptor: word, first bit, width. -/
def DmaCh.f (x : DmaCh) (w lo n : Nat) : Nat := bitsOf ((x.desc[w]?).getD 0#32) lo n

/-- A signed 16-bit stride. -/
def DmaCh.stride (x : DmaCh) (lo : Nat) : Int := (BitVec.ofNat 16 (x.f 3 lo 16)).toInt

def DmaCh.xlen (x : DmaCh) : Nat := x.f 2 0 16
def DmaCh.ycnt (x : DmaCh) : Nat := x.f 2 16 16
def DmaCh.paired (x : DmaCh) : Bool := x.f 5 1 1 == 1
def DmaCh.pfmt (x : DmaCh) : Bool := x.f 5 2 1 == 1
def DmaCh.csel (x : DmaCh) : Nat := x.f 5 5 2
def DmaCh.clen (x : DmaCh) : Nat := x.f 7 0 24

/-- The address of byte `i` of row `r` on the source (`side` 0) or the destination (1), and the
bytes to the end of its ring, when it has one (R327). -/
def DmaCh.at_ (x : DmaCh) (side r i : Nat) : Nat × Option Nat :=
  let a : Int := (x.f side 0 32 : Int) + r * x.stride (16 * side) + i
  if x.csel = side + 1 then
    let o := ((a - x.f 6 0 32).emod x.clen).toNat
    ((x.f 6 0 32 + o) % 2 ^ 32, some (x.clen - o))
  else ((a.emod (2 ^ 32)).toNat, none)

/-- What R331 asks of a descriptor but its release. On a paired move of words the ring keeps
the pairs whole, as the strides do (R329). -/
def DmaCh.descOk (x : DmaCh) : Bool :=
  let mul (m v : Nat) : Bool := v % m == 0
  let u := if x.paired && !x.pfmt then 8 else 4
  mul 32 (x.f 4 0 32) && x.f 5 20 12 == 0 && x.f 7 24 8 == 0 && x.csel != 3
    && 4 ≤ x.xlen && 1 ≤ x.ycnt
    && mul u x.xlen && mul u (x.f 0 0 32) && mul u (x.f 1 0 32)
    && mul u (x.f 3 0 16) && mul u (x.f 3 16 16)
    && (x.csel == 0 || (4 ≤ x.clen && mul u x.clen && mul u (x.f 6 0 32)))

/-- REL names a descriptor of the channel's tenant (R331). -/
def Engine.dmaRelOk (e : Engine) (k : Nat) (x : DmaCh) : Bool :=
  x.f 5 4 1 == 0 || e.descTenant (x.f 5 8 12) == some (k / 2)

/-! ### The two ends of a burst -/

/-- Where an end of a burst goes, whether it waits, or its fault: kind and address. -/
inductive DmaEnd where
  | go (pa : Nat) (host nosnoop : Bool)
  | wait
  | fault (kind pa : Nat)
  deriving DecidableEq, Repr

/-- The safe-load bank that holds `pa` (R338): patch entries, contributions, coefficients, or
a tenant's parameter region. -/
def Engine.bankOf (e : Engine) (pa : Nat) : Option Nat :=
  if 0x50000000 ≤ pa ∧ pa < 0x50010000 then some ((pa - 0x50000000) / 0x8000)
  else if 0x50100000 ≤ pa ∧ pa < 0x50200000 then some (2 + (pa - 0x50100000) / 0x80000)
  else if 0x50200000 ≤ pa ∧ pa < 0x502F0000 then some (4 + (pa - 0x50200000) / 0x78000)
  else
    ((List.range 32).find? fun b =>
      let t := b / 2
      (List.range (e.get (SAFE_PARAM_PAGES_PAGES t))).any fun p =>
        match e.paramPage t (b % 2) p with | some a => a / 4096 == pa / 4096 | none => false).map (16 + ·)

/-- A DMA write to `pa` meets an inactive bank of an armed group (R338, R420). -/
def Engine.dmaArmed (e : Engine) (pa : Nat) : Bool :=
  if 0x50000000 ≤ pa ∧ pa < 0x50010000 then
    e.armedRoute.isSome && (pa - 0x50000000) / 0x8000 != e.get ROUTE_STATUS_BANK
  else if 0x50100000 ≤ pa ∧ pa < 0x50200000 then
    e.armedSumx.isSome && (pa - 0x50100000) / 0x80000 != e.get SUMX_STATUS_BANK
  else if 0x50200000 ≤ pa ∧ pa < 0x502F0000 then
    let w := (pa - 0x50200000) / 4
    match e.secUser (w % 122880 / 5) with
    | some c => (e.armedChain c).isSome && e.get (chBank c) != w / 122880
    | none => false
  else if 0x502F0000 ≤ pa ∧ pa < 0x50300000 then (e.armedChain ((pa - 0x502F0000) / 32)).isSome
  else e.paramArmed pa

/-- The checks at the target of an end of `n` words at `pa` (R303, R304, R321, R336, R338). -/
def Engine.dmaPhys (e : Engine) (k pa n : Nat) (write : Bool) : DmaEnd × Engine :=
  let addrs := (List.range n).map fun i => pa + 4 * i
  match ingotOf pa with
  | some i =>
    if write && e.paramArmed pa then (.fault kArmed pa, e)
    else match e.ingotReq i (.dma k) with
      | (.go, e) => (.go pa false false, e)
      | (.wait, e) => (.wait, e)
      | (.fault f, e) => (.fault f pa, e)
  | none =>
    if 0x60000000 ≤ pa ∧ pa < 0x61000000 then
      let c := (pa - 0x60000000) / 0x100000
      if e.coreTenant c ≠ k / 2 then (.fault kOwn pa, e)
      else if write && e.paramArmed pa then (.fault kArmed pa, e)
      else if (e.coreOf c).scrub.isSome then (.wait, e)
      else (.go pa false false, e)
    else if addrs.any fun a => isTableAddr a && !e.entryAdmits (e.dmaSender k) a then (.fault kOwn pa, e)
    else if write && addrs.any e.dmaArmed then (.fault kArmed pa, e)
    else (.go pa false false, e)

/-- An end of a burst translated and checked (R318, R328). A write to instruction memory needs
X as well; a host read needs the link, which the standby's does not use (R521), and so does
a host write, which would only be discarded. -/
def Engine.dmaEnd (e : Engine) (k va n : Nat) (write : Bool) : DmaEnd × Engine :=
  match e.xlate (k / 2) va write with
  | .fault f => (.fault f 0, e)
  | .ok pa i =>
    if i.host then
      if !e.isStandby && !(if write then e.hostUp (k / 2) else e.hostReads (k / 2)) then (.fault kLinkdown pa, e) else (.go pa true i.nosnoop, e)
    else if write && !i.x && decide (0x60000000 ≤ pa ∧ pa < 0x61000000) && decide (0x40000 ≤ pa % 0x100000) then
      (.fault kRights 0, e)
    else e.dmaPhys k pa n write

/-- Slots of a core's data memory granted for `n` words at `pa`, 64 bits each (R167, R191). -/
def Engine.dmaSlots (e : Engine) (pa n : Nat) : Engine :=
  if 0x60000000 ≤ pa ∧ pa < 0x61000000 ∧ pa % 0x100000 < 0x40000 then
    e.count ⟨CORE_DMA_SLOTS ((pa - 0x60000000) / 0x100000), 0, 32⟩ ((pa + 4 * n + 7) / 8 - pa / 8)
  else e

/-- A request of channel `k` is granted: a starvation may be reported again (R168, R312). -/
def Engine.dmaGranted (e : Engine) (k : Nat) : Engine := e.updDmaCh k fun x => { x with starved := false }

/-- `n` words read at `pa`. -/
def Engine.dmaRead (e : Engine) (k pa n : Nat) : List Word × Engine :=
  let e := e.dmaGranted k
  if isMemAddr pa then (e.ldWs pa n, e.dmaSlots pa n) else e.regWords (e.dmaSender k) pa n

/-- Words written in address order to memory, to registers or tables, or to the host, where
only the primary of a pair writes (R322, R521). -/
def Engine.dmaWrite (e : Engine) (k : Nat) (q : DmaRd) (i : Nat) (ws : List Word) : Engine :=
  let pa := q.dpa + 4 * i
  if ws.isEmpty then e
  else if q.dhost then
    if e.isStandby then e
    else e.hostWrite { tenant := k / 2, va := q.dst + 4 * i, addr := pa, ws := ws, nosnoop := q.nosnoop,
                       agent := 0x20 + k, hm := (e.dmaCh k).hm, src := q.src, bytes := q.bytes, rows := q.rows }
  else if isMemAddr pa then (e.memWrite none pa ws).dmaSlots pa ws.length
  else (ws.foldl (fun a w => (a.1.regWrite (e.dmaSender k) a.2 w, a.2 + 4)) (e, pa)).1

/-! ### State of a channel -/

/-- The residue: the next burst's addresses and what is left (R335, R342). -/
def Engine.dmaResidue (e : Engine) (k src dst bytes rows : Nat) : Engine :=
  let e := e.wr (DMA_CH_SRC (k / 2) (k % 2)) (BitVec.ofNat 32 src)
  let e := e.wr (DMA_CH_DST (k / 2) (k % 2)) (BitVec.ofNat 32 dst)
  e.wr (DMA_CH_LEFT (k / 2) (k % 2)) (BitVec.ofNat 32 (bytes + 2 ^ 16 * rows))

/-- The residue at byte `i` of row `r` of the current descriptor. -/
def Engine.dmaResidueAt (e : Engine) (k r i : Nat) : Engine :=
  let x := e.dmaCh k
  if x.ycnt ≤ r then e.dmaResidue k (x.at_ 0 r 0).1 (x.at_ 1 r 0).1 0 0
  else e.dmaResidue k (x.at_ 0 r i).1 (x.at_ 1 r i).1 (x.xlen - i) (x.ycnt - r)

/-- The position after the burst that leaves `bytes` and `rows` and moves `n` bytes. -/
def DmaCh.after (x : DmaCh) (bytes rows n : Nat) : Nat × Nat :=
  if bytes ≤ n then (x.ycnt - rows + 1, 0) else (x.ycnt - rows, x.xlen - bytes + n)

/-- Burst `q` halts channel `k` (R335): its residue, the incomplete banks (R338), and the issue
point for a RESUME. A fault met while an ABORT lets issued bursts finish ends them there. -/
def Engine.dmaBurstFault (e : Engine) (k : Nat) (q : DmaRd) (kind va pa : Nat) (write record : Bool) : Engine :=
  let x := e.dmaCh k
  let banks := x.banks.filter fun b => !x.left.contains b
  let e := e.dmaResidue k q.src q.dst q.bytes q.rows
  let e := e.updSafe fun y => { y with inc := y.inc ++ banks }
  let e := e.setDmaCh k { x with
    queue := [], row := x.ycnt - q.rows, off := x.xlen - q.bytes, left := x.left ++ banks, abort := false }
  if x.abort then
    let hm := (e.dmaCh k).hm
    let e := e.accessFault (k / 2) va pa kind write (0x20 + k) hm
    (e.updDmaCh k fun x => { x with desc := [] }).setDmaState k dIdle
  else e.dmaHalt k kind va pa write record

/-! ### Writing -/

/-- The words of a burst as runs to write, each with its offset: all of them, or the good pairs
of a paired move (R329), every pair a run of its own. -/
def pairRuns (pfmt : Bool) : Nat → List Word → List (Nat × List Word)
  | i, a :: b :: l =>
    if pfmt then
      (if halfOk a then [(i, [a])] else []) ++ (if halfOk b then [(i + 1, [b])] else [])
        ++ pairRuns pfmt (i + 2) l
    else (if b = ~~~ a then [(i, [a, b])] else []) ++ pairRuns pfmt (i + 2) l
  | i, [a] => if pfmt && halfOk a then [(i, [a])] else []
  | _, [] => []

/-- The pairs of a burst that fail. -/
def pairBad (pfmt : Bool) (ws : List Word) : Nat :=
  (if pfmt then ws.length else ws.length / 2) - (pairRuns pfmt 0 ws).length

/-- The oldest burst, with its data, is written: its runs, its counts and the residue (R328,
R329, R342). -/
def Engine.dmaPut (e : Engine) (k : Nat) (q : DmaRd) (ws : List Word) : Engine :=
  let x := e.dmaCh k
  let (t, i) := (k / 2, k % 2)
  let runs := if x.paired then pairRuns x.pfmt 0 ws else [(0, ws)]
  let bad := if x.paired then pairBad x.pfmt ws else 0
  let e := if bad = 0 then e else (e.count ⟨DMA_CH_MISMATCH t i, 0, 32⟩ bad).motion 1 bad
  let e := runs.foldl (fun e r => e.dmaWrite k q r.1 r.2) (e.dmaGranted k)
  let bytes := 4 * (runs.map fun r => r.2.length).sum
  let e := e.count ⟨DMA_CH_BYTES t i, 0, 32⟩ bytes
  let banks := if q.dhost || bytes == 0 then [] else
    ([q.dpa, q.dpa + 4 * q.words - 4].filterMap e.bankOf).filter fun b => !x.banks.contains b
  let e := e.updDmaCh k fun x => { x with queue := x.queue.drop 1, banks := (x.banks ++ banks).eraseDups }
  let p := x.after q.bytes q.rows (4 * q.words)
  e.dmaResidueAt k p.1 p.2

/-- The oldest burst is acted on: it halts the channel, waits for its data or its target, or is
written. -/
def Engine.dmaFront (e : Engine) (k : Nat) (q : DmaRd) : Engine :=
  match q.fault, q.data with
  | some (kind, va, pa, write), _ => e.dmaBurstFault k q kind va pa write true
  | none, none => e
  | none, some ws =>
    if q.dhost then e.dmaPut k q ws
    else match e.dmaPhys k q.dpa q.words true with
      | (.go _ _ _, e) => (e.setDmaState k dMove).dmaPut k q ws
      | (.wait, e) => e.setDmaState k dWait
      | (.fault kind pa, e) => e.dmaBurstFault k q kind q.dst pa true true

/-- Bursts are written in order, as far as they can be; at most `n` of them. -/
def Engine.dmaDrain (e : Engine) (k : Nat) : Nat → Engine
  | 0 => e
  | n + 1 =>
    match (e.dmaCh k).queue with
    | [] => e
    | q :: _ => (e.dmaFront k q).dmaDrain k n

/-- An ABORT whose bursts have all finished leaves the channel IDLE (R334). -/
def Engine.dmaSettle (e : Engine) (k : Nat) : Engine :=
  let x := e.dmaCh k
  let e := e.dmaDrain k x.queue.length
  let x := e.dmaCh k
  if x.abort && x.queue.isEmpty then
    (e.setDmaCh k { x with abort := false, desc := [], fetch := false }).setDmaState k dIdle
  else e

/-! ### Host data -/

/-- The primary of a pair sends the bytes of a host burst to its standby (R521). -/
def Engine.hostdataSend (e : Engine) (k idx : Nat) (ws : List Word) : Engine :=
  if e.forwarding then
    (List.range ((ws.length + 7) / 8)).foldl (fun e j =>
      e.svlSend (e.dmaCh k).hm (.hostdata k idx ((ws.drop (8 * j)).take 8))) e
  else e

/-- The standby's host words of burst `idx` of channel `k`, once all `n` have come (R521). -/
def Engine.hostdataFor (e : Engine) (k idx n : Nat) : Option (List Word) :=
  let ws := ((Tbl.get [] e.duo.host k).filter fun p => p.1 == idx).flatMap fun p => p.2
  if n ≤ ws.length then some (ws.take n) else none

/-- Words for burst `idx` of channel `k`. -/
def Engine.dmaData (e : Engine) (k idx : Nat) (ws : List Word) : Engine :=
  let e := e.updDmaCh k fun x =>
    let q := x.queue.map fun q => if q.idx = idx ∧ q.shost = true ∧ q.data = none then { q with data := some ws } else q
    { x with queue := q }
  e.updDuo fun d => { d with host := Tbl.set [] d.host k ((Tbl.get [] d.host k).filter fun p => p.1 != idx) }

/-- What HOSTDATA frames have brought goes to the bursts that wait for it. -/
def Engine.dmaHostdata (e : Engine) (k : Nat) : Engine :=
  if e.isStandby then
    (e.dmaCh k).queue.foldl (fun e q =>
      if q.shost && q.data.isNone then
        match e.hostdataFor k q.idx q.words with
        | some ws => e.dmaData k q.idx ws
        | none => e
      else e) e
  else e

/-! ### Fetch -/

/-- A fetch ends in a fault: the channel halts with no current descriptor (R331). -/
def Engine.dmaFetchFault (e : Engine) (k kind pa : Nat) : Engine :=
  let (t, i) := (k / 2, k % 2)
  let e := e.dmaNoResidue k
  let e := e.updDmaCh k fun x => { x with fetch := false, desc := [] }
  e.dmaHalt k kind (e.rd (DMA_CH_CUR t i)).toNat pa false true

/-- A fetched descriptor is checked, and the move begins or the channel halts with kind DESC
(R331). -/
def Engine.dmaDesc (e : Engine) (k : Nat) (ws : List Word) (pa : Nat) : Engine :=
  let x := { e.dmaCh k with desc := ws, fetch := false, row := 0, off := 0, queue := [], banks := [], left := [] }
  if x.descOk && e.dmaRelOk k x then
    ((e.setDmaCh k x).setDmaState k dMove).dmaResidueAt k 0 0
  else e.dmaFetchFault k kDesc pa

/-- DMA_DESC_FETCH: the descriptor at DMA_CH_CUR is translated and read (R318, R331); through
a HOST window the read is outstanding until its completion. -/
def Engine.dmaFetch (e : Engine) (k : Nat) : Engine :=
  let x := e.dmaCh k
  let st := e.dmaState k
  let va := (e.rd (DMA_CH_CUR (k / 2) (k % 2))).toNat
  if st = dFetch ∨ (st = dWait ∧ x.desc = []) then
    if x.fetch then
      match e.isStandby, e.hostdataFor k x.nb 8 with
      | true, some ws => (e.updDmaCh k fun x => { x with nb := x.nb + 1 }).dmaDesc k ws 0
      | _, _ => e
    else match e.dmaEnd k va 8 false with
      | (.fault kind pa, e) => e.dmaFetchFault k kind pa
      | (.wait, e) => e.setDmaState k dWait
      | (.go _ true _, e) => (e.updDmaCh k fun x => { x with fetch := true }).setDmaState k dFetch
      | (.go pa false _, e) =>
        let r := e.dmaRead k pa 8
        r.2.dmaDesc k r.1 pa
  else e

def execDmaDescFetch (k : Nat) (s : State) : Out := s.eff fun e => e.dmaFetch (k % 32)

/-! ### Bursts -/

/-- The length in bytes of the burst at byte `i` of row `r` (R328). -/
def DmaCh.burstLen (x : DmaCh) (r i : Nat) : Nat :=
  let s := x.at_ 0 r i
  let d := x.at_ 1 r i
  [x.xlen - i, 64 - d.1 % 64, 4096 - s.1 % 4096, 4096 - d.1 % 4096, s.2.getD 64, d.2.getD 64].foldl min 64

/-- The next burst is issued: both ends are checked before the read, a fault waits for its turn,
and an end that must wait puts the channel in WAIT (R328, R335, R336). -/
def Engine.dmaIssue (e : Engine) (k : Nat) : Engine :=
  let x := e.dmaCh k
  let n := x.burstLen x.row x.off
  let src := (x.at_ 0 x.row x.off).1
  let dst := (x.at_ 1 x.row x.off).1
  let q : DmaRd := { src := src, dst := dst, spa := 0, dpa := 0, shost := false, dhost := false,
                     bytes := x.xlen - x.off, rows := x.ycnt - x.row, words := n / 4, idx := x.nb }
  let push (e : Engine) (q : DmaRd) : Engine := e.updDmaCh k fun x =>
    let p := x.after q.bytes q.rows n
    { x with queue := x.queue ++ [q], row := p.1, off := p.2, nb := x.nb + (if q.shost then 1 else 0) }
  let r := e.dmaEnd k src (n / 4) false
  match r.1 with
  | .fault kind pa => push e { q with fault := some (kind, src, pa, false) }
  | .wait => r.2.setDmaState k dWait
  | .go spa shost _ =>
    let w := r.2.dmaEnd k dst (n / 4) true
    match w.1 with
    | .fault kind pa => push e { q with fault := some (kind, dst, pa, true) }
    | .wait => w.2.setDmaState k dWait
    | .go dpa dhost ns =>
      let e := w.2.setDmaState k dMove
      let q : DmaRd := { q with spa := spa, dpa := dpa, shost := shost, dhost := dhost, nosnoop := ns }
      if shost then push e q
      else
        let d := e.dmaRead k spa (n / 4)
        push d.2 { q with data := some d.1 }

/-- The channel may issue: in MOVE or WAIT with rows left, no abort, no fault ahead, and at most
eight bursts under way. -/
def Engine.dmaMayIssue (e : Engine) (k : Nat) : Bool :=
  let x := e.dmaCh k
  let st := e.dmaState k
  decide (st = dMove ∨ st = dWait) && !x.desc.isEmpty && !x.abort && decide (x.row < x.ycnt)
    && decide (x.queue.length < 8) && x.queue.all fun q => q.fault.isNone

/-- DMA_BURST: the channel issues its next burst, if it may, and writes what has been read, in
order (R328). -/
def Engine.dmaBurst (e : Engine) (k : Nat) : Engine :=
  let e := e.dmaHostdata k
  let e := if e.dmaMayIssue k then e.dmaIssue k else e
  (e.dmaHostdata k).dmaSettle k

def execDmaBurst (k : Nat) (s : State) : Out := s.eff fun e => e.dmaBurst (k % 32)

/-! ### Completion -/

/-- The descriptor is complete: every write has been written or accepted (R330). -/
def Engine.dmaComplete (e : Engine) (k : Nat) : Bool :=
  let x := e.dmaCh k
  decide (e.dmaState k = dMove) && !x.desc.isEmpty && x.queue.isEmpty && !x.abort && decide (x.ycnt ≤ x.row)

/-- The release of a completed descriptor, under the channel's hallmark as a TREADY (R330). -/
def Engine.dmaRelease (e : Engine) (k d : Nat) : Engine :=
  let by_ := e.dmaSender k
  if e.schedMay by_ d then e.release d none by_.hm else e.opRefused by_ d 1 2

/-- DMA_DESC_COMPLETE: the count, the marks of a resumed descriptor (R339), DMA_DONE, the
release, and NEXT or IDLE (R330). -/
def Engine.dmaDone (e : Engine) (k : Nat) : Engine :=
  if e.dmaComplete k then
    let x := e.dmaCh k
    let (t, i) := (k / 2, k % 2)
    let cur := e.rd (DMA_CH_CUR t i)
    let e := e.wrap (DMA_CH_STATUS_DONE t i)
    let e := e.updSafe fun y => { y with inc := y.inc.filter fun b => !x.left.contains b }
    let e := e.updXlat fun y => { y with
      posted := y.posted.map fun w => if w.agent = 0x20 + k then { w with rows := 0 } else w }
    let e := e.setDmaCh k { x with desc := [], banks := [], left := [] }
    let e := if x.f 5 3 1 = 1 then e.dmaEvt 0x01 .note k x.hm k cur.toNat else e
    let e := if x.f 5 4 1 = 1 then e.dmaRelease k (x.f 5 8 12) else e
    if x.f 5 0 1 = 1 then (e.wr (DMA_CH_CUR t i) (BitVec.ofNat 32 (x.f 4 0 32))).setDmaState k dFetch
    else e.setDmaState k dIdle
  else e

def execDmaDescComplete (k : Nat) (s : State) : Out := s.eff fun e => e.dmaDone (k % 32)

/-! ### Host reads that end -/

/-- A host burst of channel `k` ends with its words, or in a fault (R323, R335). -/
def Engine.dmaHostRead (e : Engine) (k idx : Nat) (r : Except Nat (List Word)) : Engine :=
  match (e.dmaCh k).queue.find? fun q => q.idx == idx && q.shost && q.data.isNone && q.fault.isNone with
  | none => e
  | some q =>
    match r with
    | .ok ws =>
      if ws.length = q.words then ((e.hostdataSend k idx ws).dmaData k idx ws).dmaSettle k else e
    | .error kind =>
      (e.updDmaCh k fun x =>
        let l := x.queue.map fun p => if p.idx = idx ∧ p.shost = true then { p with fault := some (kind, p.src, p.spa, false) } else p
        { x with queue := l }).dmaSettle k

/-- A descriptor fetch from the host ends (R331). -/
def Engine.dmaHostFetch (e : Engine) (k : Nat) (r : Except Nat (List Word)) : Engine :=
  if (e.dmaCh k).fetch then
    match r with
    | .ok ws =>
      if ws.length = 8 then
        ((e.hostdataSend k (e.dmaCh k).nb ws).updDmaCh k fun x => { x with nb := x.nb + 1 }).dmaDesc k ws 0
      else e
    | .error kind => e.dmaFetchFault k kind 0
  else e

end Sys2Proof.Machine
end

