-- ==== Sys2Proof/Machine/Pcie.lean ====
section
/-!
DEFINITION. The tenant page and its table aperture, the PCIe link, virtual functions and their
resets, host reads that end, and the boot ROM (chapter "Host Link, Boot and Two-Wire Target",
R572 to R591; R583, R637, R641, R643, R644).
-/
namespace Sys2Proof.Machine

/-! ### The tenant page (R35, R576) -/

/-- The address that offset `o` of the page of tenant `t` reaches, outside the aperture and the
MSI-X structures. -/
def pageMap (t o : Nat) : Option Nat :=
  if o < 0x400 then some (0x40090000 + 0x1000 * t + o)
  else if 0x1000 ≤ o ∧ o < 0x1100 then some (0x40090400 + 0x1000 * t + (o - 0x1000))
  else if 0x2000 ≤ o ∧ o < 0x2100 then some (0x40090500 + 0x1000 * t + (o - 0x2000))
  else if 0x4000 ≤ o ∧ o < 0x4010 then some (SCHED_SUBMIT + (o - 0x4000))
  else if o = 0x4010 then some (SCHED_CQ_LO t)
  else if o = 0x4014 then some (SCHED_CQ_HI t)
  else if o = 0x4020 then some (SCHED_TSTAT t)
  else if o = 0x4024 then some (SCHED_MISS t)
  else if o = 0x4028 then some (SCHED_LATE t)
  else if o = 0x402C then some (SCHED_CQ_DROP t)
  else if o = 0x4100 then some SAFE_CMD
  else if 0x4140 ≤ o ∧ o < 0x4180 then some (SAFE_GRP_STATE ((o - 0x4140) / 4))
  else if 0x4200 ≤ o ∧ o < 0x4280 then some (0x40080000 + 0x1000 * t + (o - 0x4200))
  else if 0x4400 ≤ o ∧ o < 0x4418 then some (XLAT_FAULT_VA t + (o - 0x4400))
  else if o = 0x4600 then some (PCIE_VF_APERTURE t)
  else if 0x5000 ≤ o ∧ o < 0x5800 then some (0x50400000 + 0x800 * t + (o - 0x5000))
  else if 0x5800 ≤ o ∧ o < 0x5C00 then some (0x50408000 + 0x400 * t + (o - 0x5800))
  else none

/-- What a page access answers: the word, an abort, or a wait. -/
inductive PageAns where
  | done (w : Word) | abort | wait
  deriving DecidableEq, Repr

/-- The lowest-numbered enabled ENGINE window of tenant `t` that contains `va` (R577). -/
def Engine.engineWindow (e : Engine) (t va : Nat) : Option WinImg :=
  ((List.range 32).find? fun w =>
    let i := Tbl.get {} e.xlat.act (32 * t + w)
    i.en && !i.host && !e.winQuar t w && decide (i.base * 4096 ≤ va ∧ va < (i.limit + 1) * 4096)).map
    fun w => Tbl.get {} e.xlat.act (32 * t + w)

/-- The checks of an aperture access at its target (R303, R304, R321). -/
def Engine.apPhys (e : Engine) (by_ : Sender) (r : Req) (t pa : Nat) (write : Bool) : DmaEnd × Engine :=
  match ingotOf pa with
  | some n => match e.ingotReq n r with
    | (.go, e) => (.go pa false false, e)
    | (.wait, e) => (.wait, e)
    | (.fault k, e) => (.fault k pa, e)
  | none =>
    if 0x60000000 ≤ pa ∧ pa < 0x61000000 then
      let c := (pa - 0x60000000) / 0x100000
      if e.coreTenant c != t || (write && decide (0x40000 ≤ pa % 0x100000)) then (.fault kOwn pa, e)
      else if (e.coreOf c).scrub.isSome then (.wait, e)
      else (.go pa false false, e)
    else if isTableAddr pa && !e.entryAdmits by_ pa then (.fault kOwn pa, e)
    else (.go pa false false, e)

/-- An access through the aperture at virtual address `va` (R577). -/
def Engine.apDo (e : Engine) (by_ : Sender) (r : Req) (t va : Nat) (write : Option Word) : PageAns × Engine :=
  let fault (e : Engine) (kind pa : Nat) : PageAns × Engine :=
    (.abort, e.accessFault t va pa kind write.isSome r.agent by_.hm)
  match e.engineWindow t va with
  | none => fault e kNowin 0
  | some i =>
    if (if write.isSome then i.w else i.r) = false then fault e kRights 0
    else match e.apPhys by_ r t (i.target va) write.isSome with
      | (.fault k pa, e) => fault e k pa
      | (.wait, e) => (.wait, e)
      | (.go pa _ _, e) =>
        match write with
        | some v => (.done 0#32, e.regWrite by_ pa v)
        | none => let x := e.regRead by_ pa; (.done x.1, x.2)

/-- The VA that page offset `o` of the aperture reaches (R577). -/
def Engine.apVa (e : Engine) (t o : Nat) : Nat := e.get (PCIE_VF_APERTURE_VA t) * 16384 + (o - 0x8000)

/-- An access to word `o` of the page of tenant `t`; one that must wait in the aperture is kept. -/
def Engine.pageDo (e : Engine) (by_ : Sender) (twb : Bool) (t o : Nat) (write : Option Word) : PageAns × Engine :=
  let r : Req := if twb then .twb t else .vf t
  if 0x8000 ≤ o ∧ o < 0xC000 then
    let va := e.apVa t o
    match e.apDo by_ r t va write with
    | (.wait, e) =>
      let w : ApWait := { tenant := t, off := o, va := va, write := write, twb := twb }
      (.wait, e.updPcie fun p => { p with ap := p.ap ++ [w] })
    | x => x
  else match pageMap t o with
    | some a => match write with
      | some v => (.done 0#32, e.regWrite by_ a v)
      | none => let x := e.regRead by_ a; (.done x.1, x.2)
    | none => (.done 0#32, e.unmapped by_ o write.isSome)

/-- The hallmarks of a VF and of a two-wire address (R348, R594). -/
def vfSender (t : Nat) : Sender := { hm := t, agent := 0x42 }
def twbSender (t : Nat) : Sender := { hm := 0x10 + t, agent := 0x43 }

/-- The answer of a page read: the word, or Completer Abort. -/
def Engine.vfAnswer (x : PageAns × Engine) : Engine :=
  match x.1 with
  | .done w =>
    let e : Engine := { x.2 with rdata := w }
    e.updPcie fun p => { p with abort := false }
  | .abort => x.2.updPcie fun p => { p with abort := true }
  | .wait => x.2

/-- APERTURE_ACCESS: VF `t` reads or writes word `o` of its page, which answers only while the
VF is enabled and not in a function-level reset (R574, R576 to R578). -/
def Engine.vfAccess (e : Engine) (t o : Nat) (write : Option Word) : Engine :=
  let o := o % 0x10000 / 4 * 4
  if e.funcUp t = false ∨ (e.get PCIE_FLR_PEND_VF).testBit t = true then e
  else if 0xE000 ≤ o ∧ o < 0xE080 then
    match write with
    | some v => e.msixWrite t ((o - 0xE000) / 16) (o / 4 % 4) v
    | none => Engine.vfAnswer (.done (e.msixRead t (o - 0xE000)), e)
  else if 0xE800 ≤ o ∧ o < 0xE808 then
    match write with
    | some _ => e
    | none => Engine.vfAnswer (.done (if o = 0xE800 then e.pbaRead t else 0#32), e)
  else
    let x := e.pageDo (vfSender t) false t o write
    match write with
    | some _ => x.2
    | none => Engine.vfAnswer x

def execApertureAccess (t o : Nat) (write : Option Word) (s : State) : Out :=
  s.eff fun e => e.vfAccess (t % 16) o write

/-- APERTURE_ABORT: the oldest waiting read of VF `t` has not completed within 1 ms and ends
with Completer Abort (R577, R606). -/
def Engine.apAbort (e : Engine) (t : Nat) : Engine :=
  let mine (w : ApWait) : Bool := w.tenant == t && !w.twb && w.write.isNone
  match e.pcie.ap.find? mine with
  | none => e
  | some w =>
    (e.updPcie fun p => { p with ap := p.ap.eraseP mine, abort := true }).raiseT t
      (pcieEvt 0x05 .warn t w.off w.va)

def execApertureAbort (t : Nat) (s : State) : Out := s.eff fun e => e.apAbort (t % 16)

/-- A waiting access is tried again in a later FABRIC cycle (R308, R314). -/
def Engine.apRetry (e : Engine) (w : ApWait) : Engine :=
  let by_ := if w.twb then twbSender w.tenant else vfSender w.tenant
  let x := e.apDo by_ (if w.twb then .twb w.tenant else .vf w.tenant) w.tenant w.va w.write
  let keep := x.2.updPcie fun p => { p with ap := p.ap ++ [w] }
  match x.1, w.write with
  | .wait, _ => keep
  | _, some _ => x.2
  | _, none =>
    if w.twb then
      let v := match x.1 with | .done v => v | _ => 0xFFFFFFFF#32
      let e : Engine := { x.2 with rdata := v }
      e.updTwb fun t => { t with txn := t.txn.map fun n => { n with waits := false } }
    else Engine.vfAnswer x

/-- Every waiting access is tried again, oldest first. -/
def Engine.apRetryAll (e : Engine) : Engine :=
  e.pcie.ap.foldl Engine.apRetry (e.updPcie fun p => { p with ap := [] })

/-! ### Host reads that end (R323) -/

/-- A host read ends with its words or in a fault. -/
def Engine.hostRead (e : Engine) (h : HostReader) (r : Except Nat (List Word)) : Engine :=
  match h with
  | .core c slot =>
    let fits := match r, e.loadItem c slot true with
      | .ok ws, some i => ws.length == i.words
      | _, _ => true
    if fits then e.coreHostRead c slot r else e
  | .dma k idx => e.dmaHostRead (k % 32) idx r
  | .fetch k => e.dmaHostFetch (k % 32) r

/-- HOST_READ_COMPLETION: data, or none for an unsuccessful or poisoned completion. -/
def execHostReadCompletion (h : HostReader) (data : Option (List Word)) (s : State) : Out :=
  s.eff fun e => e.hostRead h (match data with | some ws => .ok ws | none => .error kHosterr)

/-- HOST_READ_TIMEOUT. -/
def execHostReadTimeout (h : HostReader) (s : State) : Out :=
  s.eff fun e => e.hostRead h (.error kHosttmo)

/-- Every outstanding host read of tenant `t` faults LINKDOWN in one cycle (R323). -/
def Engine.readsLost (e : Engine) (t : Nat) : Engine :=
  let e := (List.range 16).foldl (fun e c =>
    if e.coreTenant c = t then
      match (List.range 2).find? fun k => (e.loadItem c k true).isSome with
      | some k => e.coreHostRead c k (.error kLinkdown)
      | none => e
    else e) e
  [2 * t, 2 * t + 1].foldl (fun e k =>
    if e.isStandby then e
    else if (e.dmaCh k).fetch then e.dmaHostFetch k (.error kLinkdown)
    else match (e.dmaCh k).queue.find? fun q => q.shost && q.data.isNone && q.fault.isNone with
      | some q => e.dmaHostRead k q.idx (.error kLinkdown)
      | none => e) e

/-- The burst at which channel `k` stands: the oldest of its current descriptor that the PCIE
block has not transmitted, the oldest not written, or the next to issue. -/
def Engine.dmaStand (e : Engine) (k : Nat) (posted : Bool) : Option DmaRd :=
  let x := e.dmaCh k
  let blank : DmaRd := { src := 0, dst := 0, spa := 0, dpa := 0, shost := false, dhost := false,
                         bytes := 0, rows := 0, words := 0, idx := 0 }
  match e.xlat.posted.find? fun w => w.agent == 0x20 + k && decide (0 < w.rows) with
  | some w => some { blank with src := w.src, dst := w.va, dpa := w.addr, bytes := w.bytes, rows := w.rows, dhost := true }
  | none =>
    if posted then none
    else match x.queue.head? with
      | some q => some q
      | none => some { blank with
          src := (x.at_ 0 x.row x.off).1, dst := (x.at_ 1 x.row x.off).1,
          bytes := if x.row < x.ycnt then x.xlen - x.off else 0, rows := x.ycnt - x.row }

/-- A channel with host writes of its descriptor not transmitted halts with its residue at the
first of them; its discarded writes are recorded as R324 has it ("On a PCIe error"). -/
def Engine.dmaWritesLost (e : Engine) (k : Nat) : Engine :=
  if (e.dmaCh k).desc.isEmpty ∨ e.dmaState k = dHalted ∨ e.dmaState k = dIdle then e
  else match e.dmaStand k true with
    | some q => e.dmaBurstFault k q kLinkdown q.dst q.dpa true false
    | none => e

/-- The link is lost for tenant `t` (R323, R324). -/
def Engine.tenantLost (e : Engine) (t : Nat) : Engine :=
  let e := [2 * t, 2 * t + 1].foldl Engine.dmaWritesLost e
  ((e.readsLost t).hostLost t).updPcie fun p => { p with ap := p.ap.filter fun w => w.twb || w.tenant != t }

/-! ### The link (R581) -/

/-- The configuration of function `f` returns to reset: MSI-X enable, table and pending bits. -/
def Engine.cfgReset (e : Engine) (f : Nat) : Engine :=
  e.updPcie fun p => { p with
    msixEn := p.msixEn.filter (· != f), msix := p.msix.filter (fun c => c.1 / 128 != f),
    pba := Tbl.set 0 p.pba f 0 }

/-- The configuration of the PF returns to reset, and with it VF Enable and ARI. -/
def Engine.pfReset (e : Engine) : Engine :=
  (((List.range 17).foldl Engine.cfgReset e).put PCIE_STATUS_VF_EN 0).put PCIE_STATUS_ARI 0

/-- PCIE_LINK_DOWN: 0 DL_Down, 1 hot reset, 2 link disable, 3 PERST_N. A push boot in progress
is abandoned (Corners "PERST_N during a PCIe push boot"). -/
def Engine.linkDown (e : Engine) (kind : Nat) : Engine :=
  if e.on PCIE_STATUS_LINK_UP = false then e
  else
    let vfs := (List.range 16).filter fun t => (e.get PCIE_STATUS_VF_EN).testBit t
    let e := ((e.put PCIE_STATUS_LINK_UP 0).put PCIE_STATUS_SPEED 0).put PCIE_STATUS_L1 0
    let e := (List.range 16).foldl Engine.tenantLost e
    let e := (e.updXlat fun x => { x with posted := [] }).pfReset
    let push := e.pcie.boot.rom && e.get PCIE_BOOT_STATUS_STATE == 2 && e.get PCIE_BOOT_STATUS_SRC == 2
    let e := e.updPcie fun p => { p with
      pfMem := false, boot := { p.boot with lost := p.boot.lost || push } }
    e.raise { pcieEvt 0x02 .warn 0xFF (kind % 4) 0 with also := vfs }

def execPcieLinkDown (kind : Nat) (s : State) : Out := s.eff fun e => e.linkDown kind

/-- The boot ROM waits for a push: the PF may access memory and master the bus (R591). -/
def Engine.bootWait (e : Engine) (st : Nat) : Engine :=
  ((e.put PCIE_BOOT_STATUS_STATE st).put PCIE_BOOT_STATUS_SRC 2).updPcie fun p => { p with pfMem := true }

/-- PCIE_LINK_UP at `speed` 1 to 3: LINK_UP, a new episode of R324, and a push that the loss
abandoned waits again. -/
def Engine.linkUp (e : Engine) (speed : Nat) : Engine :=
  if e.on PCIE_STATUS_LINK_UP then e
  else
    let e := (e.put PCIE_STATUS_LINK_UP 1).put PCIE_STATUS_SPEED speed
    let e := e.updXlat fun x => { x with dropped := [] }
    let e := if e.pcie.boot.lost then
        (e.bootWait 1).updPcie fun p => { p with boot := { p.boot with lost := false } }
      else e
    e.raise (pcieEvt 0x01 .note 0xFF (e.get PCIE_STATUS_SPEED) 0)

def execPcieLinkUp (speed : Nat) (s : State) : Out := s.eff fun e => e.linkUp speed

/-! ### Virtual functions (R574, R582) -/

/-- VF_ENABLE: the host writes ARI Capable Hierarchy, VF Enable and NumVFs; more than seven VFs
need ARI, and more than sixteen do not exist. A VF disabled loses the host. -/
def Engine.vfEnable (e : Engine) (en : Bool) (num : Nat) (ari : Bool) : Engine :=
  if e.on PCIE_STATUS_LINK_UP = false then e
  else
    let e := e.putB PCIE_STATUS_ARI ari
    if en && decide ((if ari then 16 else 7) < num) then e
    else
      let old := e.get PCIE_STATUS_VF_EN
      let new := if en then 2 ^ num - 1 else 0
      let gone := (List.range 16).filter fun t => old.testBit t && !new.testBit t
      let e := e.put PCIE_STATUS_VF_EN new
      gone.foldl (fun e t => (e.readsLost t).cfgReset t) e

def execVfEnable (en : Bool) (num : Nat) (ari : Bool) (s : State) : Out := s.eff fun e => e.vfEnable en num ari

/-- The channels of a tenant in a function-level reset halt with their residue (R582). -/
def Engine.flrDma (e : Engine) (k : Nat) : Engine :=
  let st := e.dmaState k
  if st = dIdle ∨ st = dHalted then e
  else if (e.dmaCh k).desc.isEmpty then e.dmaFetchFault k kLinkdown 0
  else match e.dmaStand k false with
    | some q => e.dmaBurstFault k q kLinkdown q.src q.spa false true
    | none => e

/-- A function-level reset of VF `t` begins (R582): the tenant loses the host, the VF's
configuration returns to reset, its aperture is 0, and its channels halt. -/
def Engine.flrVf (e : Engine) (t : Nat) : Engine :=
  let e := (e.put ⟨PCIE_FLR_PEND, t, 1⟩ 1).tenantLost t
  let e := [2 * t, 2 * t + 1].foldl Engine.flrDma e
  (e.cfgReset t).wr (PCIE_VF_APERTURE t) 0#32

/-- FLR_START of VF `f`, or of the PF (16), which applies it to every VF. -/
def Engine.flrStart (e : Engine) (f : Nat) : Engine :=
  if e.on PCIE_STATUS_LINK_UP = false then e
  else if f = 16 then
    if e.on PCIE_FLR_PEND_PF then e else (List.range 16).foldl Engine.flrVf (e.put PCIE_FLR_PEND_PF 1)
  else if f < 16 ∧ e.funcUp f = true ∧ (e.get PCIE_FLR_PEND_VF).testBit f = false then e.flrVf f
  else e

def execFlrStart (f : Nat) (s : State) : Out := s.eff fun e => e.flrStart f

/-- The reset of VF `t` completes and FLR is raised to the ring and to the tenant. -/
def Engine.flrVfDone (e : Engine) (t : Nat) : Engine :=
  if (e.get PCIE_FLR_PEND_VF).testBit t then
    let e := (e.put ⟨PCIE_FLR_PEND, t, 1⟩ 0).updXlat fun x => { x with dropped := Tbl.set 0 x.dropped t 0 }
    e.raiseT t (pcieEvt 0x03 .note 0xFF t 0)
  else e

/-- FLR_COMPLETE: of the PF, every VF's and then the PF's own configuration (R582). -/
def Engine.flrDone (e : Engine) (f : Nat) : Engine :=
  if f = 16 then
    if e.on PCIE_FLR_PEND_PF then
      let e := (List.range 16).foldl Engine.flrVfDone e
      (e.pfReset.put PCIE_FLR_PEND_PF 0).raise (pcieEvt 0x03 .note 0xFF 16 0)
    else e
  else if e.on PCIE_FLR_PEND_PF then e
  else e.flrVfDone (f % 16)

def execFlrComplete (f : Nat) (s : State) : Out := s.eff fun e => e.flrDone f

/-! ### The boot ROM (R583 to R591) -/

/-- The sources of R583, in order: 0 QSPI offset 0, 1 QSPI at BOOT_ALT, 2 PCIe push. -/
def bootSrcs (src alt : Nat) (gpio0 : Bool) : List Nat :=
  let q := if alt = 0 then [0] else [0, 1]
  match src with
  | 0 => if gpio0 then [2] else q
  | 1 => q
  | 2 => [2]
  | _ => q ++ [2]

/-- The boot ROM tries its next source, or has none left: FAILED, which serves PCIe push alone
unless BOOT_SRC is 1 (R588). -/
def Engine.bootNext (e : Engine) : Engine :=
  match e.pcie.boot.srcs with
  | src :: rest =>
    let e := e.updPcie fun p => { p with boot := { p.boot with srcs := rest } }
    if src = 2 then e.bootWait 1
    else (e.put PCIE_BOOT_STATUS_STATE 2).put PCIE_BOOT_STATUS_SRC src
  | [] =>
    let serve := bitsOf e.fuseCfg 1 2 != 1
    let e := (e.put PCIE_BOOT_STATUS_STATE 4).updPcie fun p => { p with boot := { p.boot with serve := serve } }
    if serve then e.updPcie fun p => { p with pfMem := true } else e

/-- The band record of R613: words 0 to 39 of PWR_KEEP, when word 40 checks. -/
def Engine.bandRecord (e : Engine) : Option (List Word) :=
  let ws := (List.range 40).map fun k => e.rd (PWR_KEEP k)
  if e.on PWR_KEEP_CFG_BANDREC && e.rd (PWR_KEEP 40) == ~~~ (ws.foldl (· ^^^ ·) 0#32) then some ws else none

/-- The VCO band table loaded from a record (R613). -/
def Engine.bandLoad (e : Engine) (ws : List Word) : Engine :=
  let bits := (ws.zipIdx).foldl (fun a p => a + p.1.toNat * 2 ^ (32 * p.2)) 0
  (List.range 32).foldl (fun e n =>
    let x := bits / 2 ^ (40 * n) % 2 ^ 40
    let e := (e.put (CLK_BAND_LO_LO n) x).put (CLK_BAND_HI_HI n) (x / 2 ^ 17)
    (e.put (CLK_BAND_LO_CODE n) (x / 2 ^ 34)).put (CLK_BAND_LO_VALID n) (x / 2 ^ 39)) e

/-- BOOT_ROM_START: after the fuse load (R621). In RETIRED and INVALID no image is loaded, and
an interrupted erasure goes on (R640, R641); otherwise a wake may load the band record (R613),
and the first source is tried. -/
def Engine.bootStart (e : Engine) : Engine :=
  if e.on FUSE_STATUS_LOADED = false ∨ e.pcie.boot.rom = true ∨ e.pcie.boot.handed = true then e
  else
    let e := e.updPcie fun p => { p with boot := { p.boot with rom := true } }
    if e.lc = 3 ∨ e.lc = 7 then
      let e := if e.lc = 3 then e.updSec fun s => { s with erase := true } else e
      (e.put PCIE_BOOT_STATUS_STATE 4).put PCIE_BOOT_STATUS_ERR 0
    else
      let e := match e.bandRecord with
        | some ws => if e.get PWR_RESET_CAUSE_LAST = 7 then e.bandLoad ws else e
        | none => e
      let srcs := bootSrcs (bitsOf e.fuseCfg 1 2) (bitsOf e.fuseCfg 8 8) e.pcie.boot.gpio0
      (e.updPcie fun p => { p with boot := { p.boot with srcs := srcs } }).bootNext

def execBootRomStart (s : State) : Out := s.eff Engine.bootStart

/-! ### Images (R584 to R587, R643) -/

/-- `n` bytes of an image from `o`, and their little-endian value. -/
def imgBytes (m : List Byte) (o n : Nat) : List Byte := (m.drop o).take n
def imgLe (m : List Byte) (o n : Nat) : Nat := (imgBytes m o n).foldr (fun b a => b.toNat + 256 * a) 0

/-- [a, a + n) lies in the control core's instruction memory, its data memory or the ingots (R585). -/
def bootRange (a n : Nat) : Bool :=
  decide (0x61040000 ≤ a ∧ a + n ≤ 0x61080000) || decide (0x61000000 ≤ a ∧ a + n ≤ 0x61040000)
    || decide (0x80000000 ≤ a ∧ a + n ≤ 0x82800000)

/-- The entry point is in the control core's instruction memory or the loaded range of an ingot. -/
def bootEntry (m : List Byte) : Bool :=
  let load := imgLe m 0x0C 4
  let entry := imgLe m 0x10 4
  decide (0x61040000 ≤ entry ∧ entry < 0x61080000)
    || (decide (0x80000000 ≤ load) && decide (load ≤ entry ∧ entry < load + imgLe m 8 4))

/-- The format check of R586: reserved fields, FLAGS, LENGTH and the ranges of R585. -/
def imgFormat (m : List Byte) : Bool :=
  let zero (o n : Nat) : Bool := imgLe m o n == 0
  let len := imgLe m 8 4
  zero 0x16 2 && zero 0x24 12 && zero 0x80 32 && zero 0xE0 32 && imgLe m 6 2 < 4
    && 16 ≤ len && len ≤ 8388608 && len % 16 == 0 && bootRange (imgLe m 0x0C 4) len && bootEntry m

/-- KEYHASH slot `k` as bytes. -/
def Engine.keyHash (e : Engine) (k : Nat) : List Byte :=
  wordBytes ((List.range 8).map fun i => e.rd (FUSE_SHADOW (8 + 8 * k + i)))

/-- Checks 1 to 4 of R586 in their order, as the lifecycle applies them (R643): the reason of
the first that fails. -/
def Engine.imgCheck (e : Engine) (m : List Byte) : Option Nat :=
  let blank := e.lc == 0
  let key := imgLe m 0x14 1
  let pub := imgBytes m 0x40 64
  if m.length < 256 then some 8
  else if imgLe m 0 4 ≠ 0x96161A9E ∨ imgLe m 4 2 ≠ 1 then some 1
  else if imgFormat m = false then some 2
  else if blank && imgLe m 6 2 % 2 == 1 && !e.on SEC_STATUS_KEY_OK then some 2
  else if m.length < 256 + imgLe m 8 4 then some 8
  else if blank then none
  else if 4 ≤ key ∨ Config.sha256 pub ≠ e.keyHash key then some 3
  else if (e.get SEC_STATUS_REVOKED).testBit key then some 4
  else if imgLe m 0x15 1 < e.get SEC_STATUS_SVN_MIN then some 5
  else
    let msg := imgBytes m 0 0xA0 ++ imgBytes m 256 (imgLe m 8 4)
    if Config.ecdsaP256 pub (imgBytes m 0xA0 64) (Config.sha256 msg) then none else some 6

/-- The payload to load: as stored, or decrypted with the image key (R587); none when the tag
does not match or no key is loaded. -/
def Engine.imgPayload (e : Engine) (m : List Byte) : Option (List Byte) :=
  let p := imgBytes m 256 (imgLe m 8 4)
  if imgLe m 6 2 % 2 = 0 then some p
  else if e.on SEC_STATUS_KEY_OK then
    Config.aesGcm (wordBytes (e.derive (labelBytes "BX-IMG"))) (imgBytes m 0x18 12) (imgBytes m 0 0x30) p
      (imgBytes m 0x30 16)
  else none

/-- Bytes stored from address `a` on. -/
def Engine.stBs (e : Engine) (a : Nat) (bs : List Byte) : Engine :=
  (bs.zipIdx).foldl (fun e p => e.stB (a + p.2) p.1) e

/-- Control goes to the image (R637, R644): every CC register is zero but G1 and G2, the
vectors are the ROM's, and CC runs at ENTRY in SUPER with IE 0. Fuse mismatches and a wake by
a two-wire match are told now (R601, R637). -/
def Engine.handOver (e : Engine) (entry : Nat) : Engine :=
  let e := (e.put PCIE_BOOT_STATUS_STATE 3).put CC_MON_VBASE_VBASE Config.romVectors
  let x : CoreCtx := { pc := entry, mode := 1 }
  let x := (x.wrG 1 (e.rd PCIE_BOOT_STATUS)).wrG 2 (e.rd SEC_STATUS)
  let e := e.updCore 16 fun k => { k with ctx := [(0, x)], bank := 0, wait := .run, resv := none, deferred := none }
  let e := e.updPcie fun p => { p with boot := { p.boot with rom := false, handed := true, serve := false } }
  let e := if e.sec.tell then
      (e.updSec fun s => { s with tell := false }).raise (fuseEvt 0x01 .fault 0xFF (e.get FUSE_STATUS_MISMATCH))
    else e
  match e.twb.dorm with
  | some a => (e.updTwb fun t => { t with dorm := none }).raise (twbEvt 0x01 .note 0xFF 1 a)
  | none => e

/-- The image failed with reason `err`: the next source is tried (R583, R586). -/
def Engine.imgFail (e : Engine) (err : Nat) : Engine := (e.put PCIE_BOOT_STATUS_ERR err).bootNext

/-- BOOT_IMAGE_CHECK: the bytes that the current source gave, or none for a read error; the
image is checked, loaded and handed control, or fails (R586 to R588). After a tag that does not
match, the decrypted bytes are zero. -/
def Engine.bootImage (e : Engine) (img : Option (List Byte)) : Engine :=
  if (e.pcie.boot.rom && e.get PCIE_BOOT_STATUS_STATE == 2 && !e.pcie.boot.lost) = false then e
  else match img with
    | none => e.imgFail 8
    | some m => match e.imgCheck m with
      | some err => e.imgFail err
      | none =>
        let load := imgLe m 0x0C 4
        match e.imgPayload m with
        | some p => ((e.stBs load p).put PCIE_BOOT_STATUS_ERR 0).handOver (imgLe m 0x10 4)
        | none => (e.clearBytes load (imgLe m 8 4)).imgFail 7

def execBootImageCheck (img : Option (List Byte)) (s : State) : Out := s.eff fun e => e.bootImage img

end Sys2Proof.Machine
end

