-- ==== Sys2Proof/Machine/Twb.lean ====
section
/-!
DEFINITION. The two-wire target: addresses, transactions, clock stretching and sleep (chapter
"Host Link, Boot and Two-Wire Target", R592 to R602).
-/
namespace Sys2Proof.Machine

/-- A two-wire event of tenant `t` (R606). -/
def Engine.twbTell (e : Engine) (t code w2 w3 : Nat) : Engine :=
  e.raiseT t (twbEvt code .warn (0x10 + t) w2 w3)

def Engine.updTxn (e : Engine) (f : TwbTxn → TwbTxn) : Engine :=
  e.updTwb fun t => { t with txn := t.txn.map f }

/-- Offset `o` is within the reach of a transaction: a mailbox target reaches the mailbox part
of the page, a register window all of it but the MSI-X structures (R594). -/
def twbReach (win : Bool) (o : Nat) : Bool :=
  if win then !(decide (0xE000 ≤ o ∧ o < 0xE080) || decide (0xE800 ≤ o ∧ o < 0xE808)) else decide (o < 0x2100)

/-- The mailbox refuses the two-wire hallmark at a host-side register of a direction (R354, R594). -/
def Engine.twbRefused (e : Engine) (t o : Nat) : Bool :=
  decide (0x100 ≤ o ∧ o < 0x300) && !e.mHost t (twbSender t)

/-- A written word reaches its target, or is discarded (R594). -/
def Engine.twbPut (e : Engine) (x : TwbTxn) (o : Nat) (w : Word) : Engine :=
  if twbReach x.win o then (e.pageDo (twbSender x.tenant) true x.tenant o (some w)).2 else e

/-- A held word is performed (R596). -/
def Engine.twbRelease (e : Engine) (x : TwbTxn) : Engine :=
  match x.held with
  | some (o, w) => (e.twbPut x o w).updTxn fun x => { x with held := none }
  | none => e

/-- A transaction ends, at a STOP or a repeated START, with `part` bytes of an incomplete word:
a held word is performed, bytes written are discarded with TW_PARTIAL, and a word read in part
is consumed with TW_SHORT_READ (R596, R597). -/
def Engine.twbEnd (e : Engine) (part : Nat) : Engine :=
  match e.twb.txn with
  | none => e
  | some x =>
    let part := part % 4
    let e := e.twbRelease x
    let e := if part = 0 then e
      else match x.off with
        | some o =>
          if x.read then e.twbTell x.tenant 0x03 ((o + 0xFFFC) % 0x10000) 0
          else e.twbTell x.tenant 0x02 o part
        | none => e
    (e.updTwb fun t => { t with txn := none }).put TWB_STATUS_BUSY 0

/-- TWB does not acknowledge an address by R600 or R601 (R605). -/
def Engine.twbNack (e : Engine) : Engine := e.count TWB_COUNT_NACKS

/-- The register path is awake (R600). -/
def Engine.twbAwake (e : Engine) : Bool := e.mode != 2 || e.twb.awake

/-- TWB_ADDRESS_MATCH: a START and the address byte `a`, a read or not; after the address of a
write, the two offset bytes `off`. `part` bytes of a word of the transaction it ends, if it is
a repeated START, are incomplete. A read goes on from the offset that a write to the same
address set (R593, R595, R600 to R602). -/
def Engine.twbMatch (e : Engine) (a : Nat) (read : Bool) (off : Option Nat) (part : Nat) : Engine :=
  let prev := e.twb.txn
  let e := e.twbEnd part
  if e.on TWB_CTRL_EN = false then e
  else match twbFind (e.on TWB_CFG_MASKED) e.twbWords a with
    | none => e
    | some (w, t) =>
      let e := e.put TWB_STATUS_LAST a
      if e.on TWB_CTRL_ACCEPT = false then e.twbNack
      else if e.twbAwake = false then
        let e := e.twbNack
        if e.twb.wake.isSome then e
        else (e.updTwb fun t => { t with wake := some a }).raise (twbEvt 0x01 .note 0xFF 0 a)
      else
        let o := if read then (match prev with | some p => if p.addr = a ∧ p.read = false then p.off else none | none => none)
          else off.map fun o => o % 0x10000 / 4 * 4
        let x : TwbTxn := { addr := a, tenant := t, win := bitOf w 16, read := read, off := o }
        (e.updTwb fun t => { t with txn := some x }).put TWB_STATUS_BUSY 1

def execTwbAddressMatch (a : Nat) (read : Bool) (off : Option Nat) (part : Nat) (s : State) : Out :=
  s.eff fun e => e.twbMatch (a % 128) read off part

/-- The offset after the word at `o` (R595). -/
def nextOff (o : Nat) : Nat := (o + 4) % 0x10000

/-- TWB_WRITE_WORD: a word at an offset with bits [2:0] zero is held; its successor performs
both, and every other word is performed at once (R596). -/
def Engine.twbWrite (e : Engine) (w : Word) : Engine :=
  match e.twb.txn with
  | some x =>
    match x.read, x.off with
    | false, some o =>
      let e := e.twbRelease x
      let e := e.updTxn fun x => { x with off := some (nextOff o) }
      if o % 8 = 0 then e.updTxn fun x => { x with held := some (o, w) } else e.twbPut x o w
    | _, _ => e
  | none => e

def execTwbWriteWord (w : Word) (s : State) : Out := s.eff fun e => e.twbWrite w

/-- TWB_READ_WORD: the word is read when its first byte is due; out of reach or refused it
reads 0xFFFF_FFFF, and a read that must wait stretches the clock (R594, R597, R598). A read
with no offset set gives a value the manual does not state. -/
def Engine.twbRead (e : Engine) : Engine :=
  match e.twb.txn with
  | some x =>
    if x.read = false ∨ x.waits = true then e
    else match x.off with
      | none => Engine.answer e.fresh
      | some o =>
        let e := e.updTxn fun x => { x with off := some (nextOff o) }
        if twbReach x.win o = false ∨ e.twbRefused x.tenant o = true then { e with rdata := 0xFFFFFFFF#32 }
        else
          let r := e.pageDo (twbSender x.tenant) true x.tenant o none
          match r.1 with
          | .done w => { r.2 with rdata := w }
          | .abort => { r.2 with rdata := 0xFFFFFFFF#32 }
          | .wait => r.2.updTxn fun x => { x with waits := true }
  | none => e

def execTwbReadWord (s : State) : Out := s.eff Engine.twbRead

/-- TWB_STOP: the transaction ends; one that the way to LISTEN had to wait for lets the
register path sleep (R602). -/
def Engine.twbStop (e : Engine) (part : Nat) : Engine :=
  if e.twb.txn.isNone then e
  else
    let e := e.twbEnd part
    if e.twb.hold then e.updTwb fun t => { t with hold := false, awake := false } else e

def execTwbStop (part : Nat) (s : State) : Out := s.eff fun e => e.twbStop part

/-- TW_STRETCH: the stretch limit is reached while an access waits (R598): a read sends 0xFF
bytes, and its word is consumed (Corners "Stretch limit reached during a pop"); a write
completes internally. -/
def Engine.twbStretch (e : Engine) : Engine :=
  let mine (w : ApWait) : Bool := w.twb && w.write.isNone
  if e.pcie.ap.any (·.twb) = false then e
  else
    let e := e.count TWB_COUNT_STRETCHES
    match e.twb.txn, e.pcie.ap.find? mine with
    | some x, some w =>
      if x.waits then
        let e := e.updPcie fun p => { p with ap := p.ap.filter fun w => !mine w }
        let e : Engine := { e.updTxn fun x => { x with waits := false } with rdata := 0xFFFFFFFF#32 }
        (e.twbTell x.tenant 0x04 w.off 0).twbTell x.tenant 0x03 w.off 0
      else e
    | _, _ => e

def execTwStretch (s : State) : Out := s.eff Engine.twbStretch

/-- TWB_LINGER_EXPIRE: LINGER ms after the last STOP in LISTEN the register path sleeps (R600). -/
def execTwbLingerExpire (s : State) : Out :=
  s.eff fun e => if e.mode = 2 ∧ e.twb.txn = none then e.updTwb fun t => { t with awake := false } else e

/-- TW_WAKE: the register path, woken by an address in LISTEN, is ready (R600). -/
def execTwWake (s : State) : Out :=
  s.eff fun e =>
    if e.twb.wake.isSome then e.updTwb fun t => { t with wake := none, awake := true } else e

/-- TWB_DORMANT_MATCH: an address byte in DORMANT matches: it is not acknowledged, and with
PWR_CFG.TWB_WAKE it requests a wake (R601, R614). -/
def Engine.twbDormant (e : Engine) (a : Nat) : Engine :=
  if e.pwr.dormant = false ∨ e.pwr.off = true then e
  else match twbFind (e.on TWB_CFG_MASKED) e.twbWords a with
    | some _ =>
      if e.on PWR_CFG_TWB_WAKE then
        (e.updTwb fun t => { t with dorm := if t.dorm.isSome then t.dorm else some a }).wakeFrom 3 false
      else e
    | none => e

def execTwbDormantMatch (a : Nat) (s : State) : Out := s.ao fun e => e.twbDormant (a % 128)

end Sys2Proof.Machine
end

