-- ==== Sys2Proof/Machine/DbgPort.lean ====
section
/-!
DEFINITION. The debug port: the TAP, debug accesses, requests for a session and its commands
(chapter "Lifecycle, Secure Boot and Debug", R646 to R663).
-/
namespace Sys2Proof.Machine

/-! ### Sessions (R648 to R652) -/

/-- REQ_REFUSED: 1 LIFECYCLE, 2 CONSENT, 3 PAIR, 4 POWER, 5 WAIT, 6 SCOPE (R665). -/
def Engine.dbgRefused (e : Engine) (reason : Nat) : Engine := e.dbgEvt 0x04 .warn reason 0 false 0xE0

/-- The level, tenants and ENGINE that a DBG_REQ word asks for. -/
def reqLevel (v : Word) : Nat := bitsOf v 17 2

/-- Why a request cannot be granted at all (R650, R662). -/
def Engine.dbgDenied (e : Engine) (v : Word) : Option Nat :=
  if e.lc = 3 ∨ e.lc = 7 then some 1
  else if e.lc = 2 ∧ reqLevel v = 2 then
    if bitOf v 16 then some 6
    else if (bitsOf v 0 16) &&& (65535 - e.get SEC_CONSENT_T) ≠ 0 then some 2
    else none
  else none

/-- The request needs a response (R662). -/
def Engine.dbgNeedsAuth (e : Engine) (v : Word) : Bool := e.lc == 2 || (e.lc == 1 && reqLevel v == 2)

/-- The session opens over the scope asked for (R649); in PRODUCTION an INVASIVE one stays at
OBSERVE in LISTEN (R661, R662). -/
def Engine.dbgOpen (e : Engine) (v : Word) : Engine :=
  let e := e.sessionClose 0
  let held := decide (e.lc = 2) && decide (e.mode = 2) && decide (reqLevel v = 2)
  let e := (e.wr DBG_SCOPE (v &&& 0x1FFFF#32)).put DBG_STATUS_LEVEL (if held then 1 else reqLevel v)
  let e := e.updDbg fun d => { d with level := if held then some 2 else none }
  e.dbgEvt 0x01 .note (bitsOf v 0 17) (reqLevel v) true 0xE0

/-- No challenge is outstanding: DBG_CHAL reads zero. -/
def Engine.chalClear (e : Engine) : Engine :=
  (List.range 8).foldl (fun e k => e.wr (DBG_CHAL k) 0#32) (e.put DBG_STATUS_AUTH_PEND 0)

/-- A fresh challenge from the random source. -/
def Engine.challenge (e : Engine) (v : Word) : Engine :=
  let e := (List.range 8).foldl (fun e k => let (w, e) := e.fresh; e.wr (DBG_CHAL k) w) e
  (e.put DBG_STATUS_AUTH_PEND 1).updDbg fun d => { d with req := v }

/-- A write of DBG_REQ (R649, R650, R652). -/
def Engine.dbgRequest (e : Engine) (v : Word) : Engine :=
  if bitOf v 31 = false then e
  else if reqLevel v = 0 then e.sessionClose 0
  else if reqLevel v = 3 then e
  else match e.dbgDenied v with
    | some r => e.dbgRefused r
    | none =>
      if e.dbgNeedsAuth v = false then e.dbgOpen v
      else if e.on DBG_STATUS_WAIT then e.dbgRefused 5
      else e.challenge v

/-- DBG_REQUEST. -/
def execDbgRequest (v : Word) (s : State) : Out := s.eff fun e => e.dbgRequest v

/-- The response is HMAC-SHA-256(K, CHAL ‖ REQ ‖ DEVID) (R642, R649). -/
def Engine.dbgAnswered (e : Engine) : Bool :=
  let words (f : Nat → Nat) (n : Nat) : List Word := (List.range n).map fun k => e.rd (f k)
  let key := e.derive (labelBytes (if reqLevel e.dbg.req = 2 then "BX-DBG-INV" else "BX-DBG-OBS"))
  let msg := wordBytes (words DBG_CHAL 8 ++ [e.dbg.req] ++ words (fun k => FUSE_SHADOW (6 + k)) 2)
  e.on SEC_STATUS_KEY_OK && Config.hmacSha256 (wordBytes key) msg == words DBG_RESP 8

/-- A write of DBG_AUTH.SUBMIT (R649). What R650 refuses is refused when the session would
open. -/
def Engine.dbgSubmit (e : Engine) : Engine :=
  if e.on DBG_STATUS_AUTH_PEND = false then e
  else
    let v := e.dbg.req
    let ok := e.dbgAnswered
    let e := e.chalClear
    if ok = false then (e.put DBG_STATUS_WAIT 1).raise
      { block := 0x1C, code := 0x03, sev := .warn, hm := 0xE0, w2 := v.toNat, w3 := 0 }
    else match e.dbgDenied v with
      | some r => e.dbgRefused r
      | none => e.dbgOpen v

/-- DBG_AUTH_SUBMIT. -/
def execDbgAuthSubmit (s : State) : Out := s.eff Engine.dbgSubmit

/-- DBG_CHALLENGE_EXPIRE: 10 s without an answer. -/
def execDbgChallengeExpire (s : State) : Out :=
  s.eff fun e => if e.on DBG_STATUS_AUTH_PEND then e.chalClear else e

/-- DBG_WAIT_END: 1 s after a wrong response. -/
def execDbgWaitEnd (s : State) : Out := s.eff fun e => e.put DBG_STATUS_WAIT 0

/-- DBG_CLOSE. -/
def execDbgClose (s : State) : Out := s.eff fun e => e.sessionClose 0

/-! ### Commands of a session -/

/-- What a debug command answers: done, waiting, refused or faulted, as Capture-DR shows it. -/
def dpOk : Nat := 0
def dpBusy : Nat := 1
def dpRefused : Nat := 2
def dpFault : Nat := 3

/-- An action waits for what stands in its way to go. -/
def Engine.dbgWaits (e : Engine) (act : DbgAct) : Nat × Engine :=
  (dpBusy, e.updDbg fun d => { d with wait := d.wait ++ [act] })

/-- In lockstep an action on paired state needs the engine to leave its pair (R538, R663). -/
def Engine.dbgLeave (e : Engine) (act : DbgAct) : Nat × Engine :=
  if e.cpOn DUO_CFG_DEBUG_LEAVE then e.duoAnnounce.dbgWaits act else (dpRefused, e.dbgRefused 3)

/-- An action on something that is powered down: in BLANK and DEVELOP it requests RUN and
waits, in PRODUCTION it is refused (R662). -/
def Engine.dbgPower (e : Engine) (act : DbgAct) : Nat × Engine :=
  if e.lc < 2 then (e.requestRun 7).dbgWaits act else (dpRefused, e.dbgRefused 4)

def maskCores (m : Nat) : List Nat := (List.range 17).filter m.testBit

/-- Core `c` is asked to halt (R654, R655): a locked sequence ends first, or breaks with FORCE. -/
def Engine.haltAsk (e : Engine) (c : Nat) : Engine :=
  if (e.coreOf c).halted then e
  else if (e.ctxOf c).lk then
    let e := e.updCore c fun k => { k with deferred := some (.halt, (k.deferred.map (·.2)).getD e.now) }
    if e.on DBG_CTRL_FORCE then e.lockBreak c else e
  else e.debugHalt c

/-- The named cores are attached (R648). -/
def Engine.allAttached (e : Engine) (m : Nat) : Bool := (maskCores m).all e.attached

/-- A write of DBG_HALT. -/
def Engine.dbgHalt (e : Engine) (m : Nat) : Nat × Engine :=
  if maskCores m = [] then (dpOk, e)
  else if e.dbg.level.isSome then (dpRefused, e.dbgRefused 4)
  else if e.allAttached m = false then (dpRefused, e)
  else if (maskCores m).all e.corePowered = false then e.dbgPower (.halt m)
  else if e.lockstep then e.dbgLeave (.halt m)
  else (dpOk, (maskCores m).foldl Engine.haltAsk e)

/-- DBG_HALT. -/
def execDbgHalt (m : Nat) (s : State) : Out := s.eff fun e => (e.dbgHalt m).2

/-- A write of DBG_RESUME. -/
def Engine.dbgResume (e : Engine) (m : Nat) : Nat × Engine :=
  if e.allAttached m = false then (dpRefused, e) else (dpOk, (maskCores m).foldl Engine.resumeCore e)

/-- DBG_RESUME. -/
def execDbgResume (m : Nat) (s : State) : Out := s.eff fun e => (e.dbgResume m).2

/-- A write of DBG_STEP (R656): a halted core executes one instruction. -/
def Engine.dbgStep (e : Engine) (m : Nat) : Nat × Engine :=
  if maskCores m = [] then (dpOk, e)
  else if e.allAttached m = false then (dpRefused, e)
  else if e.lockstep then e.dbgLeave (.step m)
  else (dpOk, (maskCores m).foldl (fun e c => e.updCore c fun k => { k with step := k.step || k.halted }) e)

/-- DBG_STEP. -/
def execDbgStep (m : Nat) (s : State) : Out := s.eff fun e => (e.dbgStep m).2

/-- A write of DBG_CMD.RESET (R618, R648): an INVASIVE session with ENGINE in scope; in lockstep
the engine leaves its pair first (R530). -/
def Engine.dbgReset (e : Engine) : Nat × Engine :=
  if e.get DBG_STATUS_LEVEL ≠ 2 ∨ bitOf (e.rd DBG_SCOPE) 16 = false then (dpRefused, e)
  else (dpOk, if e.lockstep then e.resetAsk 6 else e.resetWith 6)

/-- DEBUG_RESET. -/
def execDebugReset (s : State) : Out := s.eff fun e => e.dbgReset.2

/-- A write of DBG_CTRL (R652, R653, R659, R660). -/
def Engine.dbgCtrl (e : Engine) (v : Word) : Engine :=
  let inv := e.get DBG_STATUS_LEVEL == 2
  let open_ := inv && decide (e.lc < 2)
  if bitOf v 8 then e.sessionClose 0
  else
    let e := if e.lc = 2 ∧ bitOf v 2 = true then e.dbgRefused 1 else e
    let e := if inv then (e.putB DBG_CTRL_SIDEFX (bitOf v 0)).putB DBG_CTRL_FORCE (bitOf v 1) else e
    let e := if open_ && bitOf (e.rd DBG_SCOPE) 16 then e.putB DBG_CTRL_WDT_HOLD (bitOf v 2) else e
    if open_ then e.putB DBG_CTRL_PWR_HOLD (bitOf v 3) else e

/-- A write to a DBG register through the port (R648, R664). -/
def Engine.dbgRegWrite (e : Engine) (off : Nat) (v : Word) : Nat × Engine :=
  let a := 0x401C0000 + off
  match off with
  | 0x004 => (dpOk, e.dbgRequest v)
  | 0x00C => (dpOk, e.dbgCtrl v)
  | 0x010 => (dpOk, if bitOf v 0 then e.dbgSubmit else e)
  | 0x060 => e.dbgHalt (bitsOf v 0 17)
  | 0x064 => e.dbgResume (bitsOf v 0 17)
  | 0x068 => e.dbgStep (bitsOf v 0 17)
  | 0x070 => if bitOf v 0 then e.dbgReset else (dpOk, e)
  | _ =>
    if 0x040 ≤ off ∧ off < 0x060 ∧ off % 4 = 0 then (dpOk, e.wr a v)
    else if 0x080 ≤ off ∧ off < 0x0A0 ∧ e.get DBG_STATUS_LEVEL ≠ 2 then (dpRefused, e)
    else (dpOk, e.fieldWrite a v)

/-! ### Debug accesses (R647, R648, R662, R663) -/

/-- The tenant that a block's ownership rule gives address `a` to, if any (R647). -/
def Engine.dbgOwner (e : Engine) (a : Nat) : Option Nat :=
  let o := offOf a
  let k := blkOf a
  match ingotOf a with
  | some n =>
    let w := e.ingotOwner n
    if 0x10 ≤ w ∧ w < 0x20 then some (e.coreTenant (w - 0x10))
    else if 0x30 ≤ w ∧ w < 0x40 then some (w - 0x30)
    else none
  | none =>
    if 0x60000000 ≤ a ∧ a < 0x61000000 then some (e.coreTenant ((a - 0x60000000) / 0x100000))
    else if isTableAddr a then e.entryOwner a
    else if (e.pairOwner (a / 8 * 8)).isSome && isPairAddr a then e.pairOwner (a / 8 * 8)
    else if k = 0x04 ∧ o < 0x40 then some (o / 4)
    else if k = 0x05 ∧ 0x100 ≤ o ∧ o < 0x300 ∧ ¬(o < 0x200 ∧ o % 16 < 8) then some (o / 16 % 16)
    else if k = 0x05 ∧ 0x300 ≤ o ∧ o < 0x340 then some (e.coreTenant ((o - 0x300) / 4))
    else if k = 0x07 ∧ 0x100 ≤ o ∧ o < 0x300 then some ((o - 0x100) / 32)
    else if k = 0x08 ∧ o ≠ 0x800 ∧ o ≠ 0x804 then some (o / 0x1000)
    else if k = 0x09 then some (o / 0x1000)
    else if k = 0x0D ∧ SAFE_PARAM_VA0 0 ≤ a ∧ a < SAFE_PARAM_VA0 16 then some ((a - SAFE_PARAM_VA0 0) / 16)
    else if k = 0x17 ∧ 0x040 ≤ o ∧ o < 0x080 then some ((o - 0x040) / 4)
    else if k = 0x17 ∧ 0x080 ≤ o ∧ o < 0x0C0 then some ((o - 0x080) / 4)
    else if 0x20 ≤ k ∧ k < 0x30 then some (e.coreTenant (k - 0x20))
    else none

/-- Address `a` is in the session's scope (R648). -/
def Engine.dbgInScope (e : Engine) (a : Nat) : Bool := bitOf (e.rd DBG_SCOPE) ((e.dbgOwner a).getD 16)

/-- The core whose registers or local memory lie at `a`. -/
def dbgCore (a : Nat) : Option Nat :=
  if 0x60000000 ≤ a ∧ a < 0x61000000 then some ((a - 0x60000000) / 0x100000)
  else if 0x20 ≤ blkOf a ∧ blkOf a < 0x30 then some (blkOf a - 0x20)
  else none

/-- What lies at `a` is powered down in the present mode (R608, R610). -/
def Engine.dbgDown (e : Engine) (a : Nat) : Bool :=
  match dbgCore a with
  | some c => !e.corePowered c
  | none =>
    e.mode == 2 && ([0x0A, 0x0B, 0x0C, 0x0E, 0x0F, 0x10, 0x11, 0x12].contains (blkOf a)
      || decide (0x50000000 ≤ a ∧ a < 0x50400000))

/-- An address reachable at every level: DBG, SEC_STATUS, FUSE_STATUS and FUSE_SHADOW (R647). -/
def dbgAlways (a : Nat) : Bool :=
  decide (blkOf a = 0x1C) || a == SEC_STATUS || a == FUSE_STATUS
    || decide (FUSE_SHADOW 0 ≤ a ∧ a < FUSE_SHADOW 64)

/-- Memory that a debug access reaches answers now, makes it wait, or faults (R308, R314). -/
def Engine.dbgMem (e : Engine) (a : Nat) : Grant × Engine :=
  match ingotOf a with
  | some n =>
    match e.retReq (n / 8) with
    | (.go, e) => (if 2 ≤ e.get (INGOT_STATE_STATE n) then .wait else .go, e)
    | (g, e) => (g, e)
  | none => (match dbgCore a with
    | some c => if 0x60000000 ≤ a ∧ (e.coreOf c).scrub.isSome = true then .wait else .go
    | none => .go, e)

/-- An access completes with a status and read data. -/
def Engine.dpDone (e : Engine) (stat : Nat) (w : Word) : Engine :=
  { e.updDbg fun d => { d with stat := stat, data := w } with rdata := w }

/-- An access within the session's level and scope: a write, a peek, or with SIDEFX a read as
its owner's (R648, R653). -/
def Engine.dpGo (e : Engine) (write : Bool) (a : Nat) (v : Word) : Engine :=
  let by_ : Sender := { hm := 0xE0 + (e.dbgOwner a).getD 0 }
  if write then (e.regWrite by_ a v).dpDone dpOk 0#32
  else
    let r := if e.on DBG_CTRL_SIDEFX then e.regRead by_ a else e.peek by_ a
    r.2.dpDone dpOk r.1

/-- An access that is not to a register reachable at every level. -/
def Engine.dpScoped (e : Engine) (write : Bool) (a : Nat) (v : Word) : Engine :=
  let act := if write then DbgAct.write a v else DbgAct.read a
  let lvl := e.get DBG_STATUS_LEVEL
  let shut (r : Nat × Engine) : Engine := r.2.dpDone r.1 0#32
  if lvl = 0 ∨ e.dbgInScope a = false then e.dpDone dpRefused 0#32
  else if write = true ∧ e.dbg.level.isSome = true then shut (dpRefused, e.dbgRefused 4)
  else if write = true ∧ lvl ≠ 2 then e.dpDone dpRefused 0#32
  else if e.dbgDown a then
    if lvl = 2 ∧ (write = true ∨ e.mode = 1) then shut (e.dbgPower act) else shut (dpRefused, e.dbgRefused 4)
  else if e.lockstep && e.pairedAddr a && (write || e.on DBG_CTRL_SIDEFX) then shut (e.dbgLeave act)
  else
    let (g, e) := e.dbgMem a
    match g with
    | .wait => shut (e.dbgWaits act)
    | .fault _ => e.dpDone dpFault 0#32
    | .go => e.dpGo write a v

/-- A debug access: 1 read, 2 write. -/
def Engine.dpAccess (e : Engine) (write : Bool) (a : Nat) (v : Word) : Engine :=
  let e := e.updDbg fun d => { d with addr := a }
  if dbgAlways a && !write then
    let r := e.fieldRead a
    r.2.dpDone dpOk r.1
  else if blkOf a = 0x1C then
    let r := e.dbgRegWrite (offOf a) v
    r.2.dpDone r.1 0#32
  else e.dpScoped write a v

/-- Actions that waited are tried again: those for which nothing stands in the way any more take
effect (R662, R663). -/
def Engine.dbgRetry (e : Engine) : Engine :=
  if e.dbg.wait = [] ∨ e.lockstep = true then e
  else
    let w := e.dbg.wait
    w.foldl (fun e act => match act with
      | .halt m => (e.dbgHalt m).2
      | .step m => (e.dbgStep m).2
      | .write a v => e.dpAccess true a v
      | .read a => e.dpAccess false a 0#32) (e.updDbg fun d => { d with wait := [] })

/-! ### The TAP (R646, R652) -/

/-- EXTEST, CLAMP and HIGHZ drive or float the boundary. -/
def tapDrives (ir : Nat) : Bool := ir == 0 || ir == 3 || ir == 4

/-- The instruction `ir` is available (R646). -/
def Engine.tapAvail (e : Engine) (ir : Nat) : Bool :=
  let lc := !(e.lc == 3 || e.lc == 7)
  if tapDrives ir then e.live && lc && !e.pcie.boot.handed
  else if ir = 1 then e.live && lc
  else if ir = 8 then e.live
  else true

/-- An instruction is selected; one that is not available selects BYPASS. Leaving EXTEST, CLAMP
or HIGHZ resets the engine with cause DEBUG. -/
def Engine.tapSelect (e : Engine) (ir : Nat) : Engine :=
  let new := if e.tapAvail ir then ir else 0x1F
  let leaves := tapDrives e.dbg.ir && !tapDrives new && e.live
  let e := e.updDbg fun d => { d with ir := new }
  if leaves then
    (if e.lockstep then e.resetAsk 6 else e.resetWith 6).updDbg fun d => { d with ir := new }
  else e

/-- A TAP instruction while the port has power. -/
def State.tap (s : State) (f : Engine → Engine) : Out := s.ao fun e => if e.pwr.off then e else f e

/-- EXTEST: the boundary outputs take the values shifted in, or those preloaded. -/
def execExtest (cells : Option (List Bool)) (s : State) : Out :=
  s.tap fun e =>
    let e := e.tapSelect 0
    match cells with
    | some l => if e.dbg.ir = 0 then e.updDbg fun d => { d with latch := l } else e
    | none => e

/-- SAMPLE_PRELOAD: the balls are sampled and the boundary values for EXTEST are preloaded. -/
def execSamplePreload (sampled cells : List Bool) (s : State) : Out :=
  s.tap fun e =>
    let e := e.tapSelect 1
    if e.dbg.ir = 1 then e.updDbg fun d => { d with scan := sampled, latch := cells } else e

/-- The identity code. -/
def idcode (u : Tbl Word) : Word :=
  BitVec.ofNat 32 (2 * 2 ^ 28 + 0x9616 * 2 ^ 12 + bitsOf (fuseWord u 3) 16 11 * 2 + 1)

/-- IDCODE. -/
def execIdcode (s : State) : Out :=
  s.tap fun e => { e.tapSelect 2 with rdata := idcode s.fuse }

/-- CLAMP. -/
def execClamp (s : State) : Out := s.tap fun e => e.tapSelect 3

/-- HIGHZ. -/
def execHighz (s : State) : Out := s.tap fun e => e.tapSelect 4

/-- BYPASS: every other code (R646). -/
def execBypass (s : State) : Out := s.tap fun e => e.tapSelect 0x1F

/-- WAKEREQ: in DORMANT a wake; otherwise no effect (R612, R646). -/
def execWakereq (s : State) : Out :=
  s.tap fun e =>
    let e := e.tapSelect 9
    if e.pwr.dormant then e.wakeFrom 7 false else e

/-- TEST_LOGIC_RESET (R646, R652). -/
def execTestLogicReset (s : State) : Out :=
  s.tap fun e =>
    let e := e.tapSelect 2
    if e.live then e.sessionClose 1 else e

/-- DPACC: an Update-DR with OP `op`, 0 none, 1 read, 2 write (R647). While an access waits no
other starts, but the registers reachable at every level stay so. -/
def execDpacc (op a : Nat) (v : Word) (s : State) : Out :=
  s.tap fun e =>
    let e := e.tapSelect 8
    let waits := e.dbg.wait.any fun x => match x with | .write _ _ | .read _ => true | _ => false
    if e.dbg.ir ≠ 8 ∨ ¬(op = 1 ∨ op = 2) ∨ (waits = true ∧ dbgAlways a = false) then e
    else e.dpAccess (op == 2) (a % 2 ^ 32) v

end Sys2Proof.Machine
end

