-- ==== Sys2Proof/Machine/DuoApply.lean ====
section
/-!
DEFINITION. DUO: forwarded items take effect, the pair enters lockstep and an announced
departure takes place (chapter "Engine Pairing, Fail-Over and Return", R507, R515, R519, R530).
-/
namespace Sys2Proof.Machine

/-- An immediate arm of group `g` that the primary accepted, on the standby: it makes its own
checks, and a refusal is a divergence (R426). -/
def Engine.armForwarded (e : Engine) (by_ : Sender) (g blk : Nat) : Engine :=
  if e.standbyRole = false then e
  else
    let (e, ok) := e.safeArm by_ g none
    let (e, ok) := if ok then e.safeChecked g (some (blk * e.nSamp)) else (e, false)
    if ok then e else e.duoDiverge 0 (e.pairEsc (blk * e.nSamp))

/-- A forwarded H2E message becomes visible (R375). -/
def Engine.msgForwarded (e : Engine) (by_ : Sender) (t : Nat) (ws : List Word) : Engine :=
  let h := ws.headD 0#32
  let x := e.mdir t 0
  let e := e.setMdir t 0 { x with fwd := x.fwd - ws.length }
  if e.mBlock t 0 then
    let e := (e.wr (mHdr t 0) h).wr (mHdrc t 0) (ws.getD 1 0#32)
    let e := ((ws.drop 2).zipIdx).foldl (fun e q => e.wr (mMsg t 0 (q.2 + 2)) q.1) e
    let e := (e.setMdir t 0 { e.mdir t 0 with full := true }).mArrived t 0 h by_
    e.consentMsg t by_.hm h (ws.getD 2 0#32)
  else e.mComplete t 0 ws by_

/-- A forwarded item takes effect: a pair's value as its register's own rule applies it, and
everything else as the write or the message it was (R519). -/
def Engine.applyItem (e : Engine) (it : FwdItem) : Engine :=
  match it.act with
  | .msg t ws => e.msgForwarded it.by_ t ws
  | .write a v =>
    if a = SAFE_CMD ∧ bitOf v 8 = true then e.armForwarded it.by_ (bitsOf v 0 4) it.blk
    else if a = SAFE_CMD then e.safeCmdHere it.by_ v
    else if isPairEven a then e.cpEffect it.by_ a v
    else e.writeHere it.by_ a v

/-- An item's time has come: b* is its block, and a message is visible from its block's first
sample (R375, R519). Before the standby's entry, what targets a block before J applies on
arrival (R515). -/
def Engine.itemDue (e : Engine) (it : FwdItem) : Bool :=
  let early := match e.duo.plan.join with
    | some j => e.standbyRole && !e.lockstep && decide (it.blk < j)
    | none => false
  early || (!(e.standbyRole && !e.lockstep) && (match it.act with
    | .write _ _ => decide (it.blk ≤ e.bStar)
    | .msg _ _ => decide (it.blk ≤ e.block)))

/-- FORWARDED_APPLY: the items that are due, in the order the primary accepted them. In ENTER
they are no static writes of their own (R515). -/
def Engine.forwardedApply (e : Engine) : Engine :=
  let dirty := e.staticDirty
  let due := e.duo.items.filter e.itemDue
  let e := e.updDuo fun d => { d with items := d.items.filter fun it => !e.itemDue it }
  let e := due.foldl Engine.applyItem e
  if e.duoState = duoEnter ∧ e.standbyRole = false ∧ dirty = false then e.snap else e

def execForwardedApply (s : State) : Out := s.eff Engine.forwardedApply

/-- The engine is in lockstep from block J on, in CONVERGE (R515, R516). DMA bursts are numbered
from the entry, as HOSTDATA frames name them (R504, R521). -/
def Engine.lockstepOn (e : Engine) : Engine :=
  let e := (e.put DUO_CTRL_LOCKSTEP 1).put DUO_CTRL_STATE duoConverge
  let e := (List.range 32).foldl (fun e k => e.updDmaCh k fun c => { c with nb := 0 }) e
  e.updDuo fun d => { d with
    plan := { d.plan with join := none }, convTicks := 0, host := [], snapRegs := [], snapMem := [] }

/-- The standby's items named pair blocks of the primary before it had its offset (R507). -/
def Engine.itemsRenumber (e : Engine) : Engine :=
  e.updDuo fun d => { d with items := d.items.map fun it => { it with blk := it.blk - e.escOfs / e.nSamp } }

/-- LOCKSTEP_ENTRY at block J: the primary enters unless a static page was written outside
forwarding, which takes the pair back to COPY; the standby sets its ESC offset and starts. -/
def Engine.lockstepEntry (e : Engine) : Engine :=
  match e.duo.plan.join with
  | none => e
  | some j =>
    if e.duoState ≠ duoEnter then e
    else if e.standbyRole then
      if e.stopped = false then e
      else
        let o := j * e.nSamp - e.tick.esc
        let e := (e.put DUO_ESC_OFS_LO_OFS o).put DUO_ESC_OFS_HI_OFS (o / 2 ^ 32)
        ((e.put TICK_CFG_RUN 1).updTick fun t => { t with startReq := true }).itemsRenumber.lockstepOn
    else if e.block < j then e
    else if e.staticDirty then
      ((e.put DUO_CTRL_STATE duoCopy).updDuo fun d => { d with plan := { d.plan with join := none } }).snap
    else e.lockstepOn

def execLockstepEntry (s : State) : Out := s.eff Engine.lockstepEntry

/-- DEPARTURE_AT_F: the engine leaves, and what waited for it takes place: a relock, a debug
action, the outputs' disabled states (R71, R530, R531, R663). -/
def Engine.departure (e : Engine) : Engine :=
  let was := e.lockstep || e.duo.plan.leave.isSome
  let e := e.departNow
  if was && !e.lockstep && e.duo.plan.leave.isNone then
    let e := if e.clk.departing then (e.updClk fun c => { c with departing := false }).relockApplied else e
    e.dbgRetry.spkSettle
  else e

def execDepartureAtF (s : State) : Out := s.eff Engine.departure

end Sys2Proof.Machine
end

