-- ==== Sys2Proof/Machine/Cycle.lean ====
section
/-!
DEFINITION. One FABRIC cycle: what the engine does by itself when no command waits.
-/
namespace Sys2Proof.Machine

/-- The complement-paired writes completed in the last cycle take effect, in order (R11). -/
def Engine.pairsTake (e : Engine) : Engine :=
  let due := e.cpDue
  due.foldl (fun e p => e.cpEffect p.by_ p.addr p.val) { e with cpDue := [] }

/-- One FABRIC cycle (DESIGN CHOICE, log entry 2): the events of
the last cycle are delivered in order (R38), network time advances (R113), complete pairs take effect (R11), counters that
reached zero make their tasks READY (R274), FULL rises or falls (R363, R364), one host write is
transmitted (R324), accesses that wait are tried again (R308, R314), and debug actions whose
obstacle is gone take effect (R662). -/
def Engine.cycle (e : Engine) : Engine :=
  let e : Engine := { e with now := e.now + 1 }
  (((e.flushEvents.timeCycle.pairsTake).schedCycle.mbxCycle).hostTransmit.apRetryAll).dbgRetry

end Sys2Proof.Machine
end

