-- ==== Sys2Proof/Machine/Alu.lean ====
section
/-!
DEFINITION. Integer and logic instructions, comparisons, the step instructions and
the predicate operations (chapter "Isalorin Arithmetic and MAC Instructions", R199 to
R208; R244).
-/
namespace Sys2Proof.Machine

/-- ADD: ra + rb, wrap (R199). -/
def execAdd (i : Issue) (rd ra rb : Nat) (s : State) : Out :=
  s.eff fun e => e.aluR i rd ra rb (aluAdd)

/-- SUB: ra − rb, wrap (R199). -/
def execSub (i : Issue) (rd ra rb : Nat) (s : State) : Out :=
  s.eff fun e => e.aluR i rd ra rb (aluSub)

/-- ADDS: the signed saturating sum (R199, R200). -/
def execAdds (i : Issue) (rd ra rb : Nat) (s : State) : Out :=
  s.eff fun e => e.aluR i rd ra rb (aluAdds)

/-- SUBS: the signed saturating difference (R199, R200). -/
def execSubs (i : Issue) (rd ra rb : Nat) (s : State) : Out :=
  s.eff fun e => e.aluR i rd ra rb (aluSubs)

/-- AND: ra AND rb (R199). -/
def execAnd (i : Issue) (rd ra rb : Nat) (s : State) : Out :=
  s.eff fun e => e.aluR i rd ra rb (fun a b => aluLogic (a &&& b))

/-- OR: ra OR rb (R199). -/
def execOr (i : Issue) (rd ra rb : Nat) (s : State) : Out :=
  s.eff fun e => e.aluR i rd ra rb (fun a b => aluLogic (a ||| b))

/-- XOR: ra XOR rb (R199). -/
def execXor (i : Issue) (rd ra rb : Nat) (s : State) : Out :=
  s.eff fun e => e.aluR i rd ra rb (fun a b => aluLogic (a ^^^ b))

/-- ANDN: ra AND NOT rb (R199). -/
def execAndn (i : Issue) (rd ra rb : Nat) (s : State) : Out :=
  s.eff fun e => e.aluR i rd ra rb (fun a b => aluLogic (a &&& ~~~ b))

/-- SHL: ra shifted left by rb[5:0] (R199, R205). -/
def execShl (i : Issue) (rd ra rb : Nat) (s : State) : Out :=
  s.eff fun e => e.aluR i rd ra rb (fun a b => aluShift .shl a (bitsOf b 0 6))

/-- SHR: ra shifted right logically by rb[5:0] (R199, R205). -/
def execShr (i : Issue) (rd ra rb : Nat) (s : State) : Out :=
  s.eff fun e => e.aluR i rd ra rb (fun a b => aluShift .shr a (bitsOf b 0 6))

/-- SRA: ra shifted right arithmetically by rb[5:0] (R199, R205). -/
def execSra (i : Issue) (rd ra rb : Nat) (s : State) : Out :=
  s.eff fun e => e.aluR i rd ra rb (fun a b => aluShift .sra a (bitsOf b 0 6))

/-- MIN: the signed smaller operand (R199). -/
def execMin (i : Issue) (rd ra rb : Nat) (s : State) : Out :=
  s.eff fun e => e.aluR i rd ra rb (fun a b => aluPlain (if b.toInt < a.toInt then b else a))

/-- MAX: the signed larger operand (R199). -/
def execMax (i : Issue) (rd ra rb : Nat) (s : State) : Out :=
  s.eff fun e => e.aluR i rd ra rb (fun a b => aluPlain (if a.toInt < b.toInt then b else a))

/-- MINU: the unsigned smaller operand (R199). -/
def execMinu (i : Issue) (rd ra rb : Nat) (s : State) : Out :=
  s.eff fun e => e.aluR i rd ra rb (fun a b => aluPlain (if b.toNat < a.toNat then b else a))

/-- MAXU: the unsigned larger operand (R199). -/
def execMaxu (i : Issue) (rd ra rb : Nat) (s : State) : Out :=
  s.eff fun e => e.aluR i rd ra rb (fun a b => aluPlain (if a.toNat < b.toNat then b else a))

/-- PEAK: the larger of ra and mag(rb) (R199, R200). -/
def execPeak (i : Issue) (rd ra rb : Nat) (s : State) : Out :=
  s.eff fun e => e.aluR i rd ra rb (aluPeak)

/-- MOV: ra (R201). -/
def execMov (i : Issue) (rd ra : Nat) (s : State) : Out :=
  s.eff fun e => e.aluU i rd ra (aluPlain)

/-- NEG: 0 − ra, wrap (R201). -/
def execNeg (i : Issue) (rd ra : Nat) (s : State) : Out :=
  s.eff fun e => e.aluU i rd ra (aluNeg)

/-- NOT: NOT ra (R201). -/
def execNot (i : Issue) (rd ra : Nat) (s : State) : Out :=
  s.eff fun e => e.aluU i rd ra (fun a => aluLogic (~~~ a))

/-- ABS: mag(ra) (R201). -/
def execAbs (i : Issue) (rd ra : Nat) (s : State) : Out :=
  s.eff fun e => e.aluU i rd ra (aluAbs)

/-- CLZ: the leading zero bits of ra (R201). -/
def execClz (i : Issue) (rd ra : Nat) (s : State) : Out :=
  s.eff fun e => e.aluU i rd ra (fun a => aluPlain (BitVec.ofNat 32 (clz32 a)))

/-- CLS: the bits after bit 31 equal to bit 31 (R201). -/
def execCls (i : Issue) (rd ra : Nat) (s : State) : Out :=
  s.eff fun e => e.aluU i rd ra (fun a => aluPlain (BitVec.ofNat 32 (cls32 a)))

/-- LOG2: log2 in log format (R207). -/
def execLog2 (i : Issue) (rd ra : Nat) (s : State) : Out :=
  s.eff fun e => e.aluU i rd ra (aluLog2)

/-- EXP2: 2^y × 2^31, correctly rounded (R208). -/
def execExp2 (i : Issue) (rd ra : Nat) (s : State) : Out :=
  s.eff fun e => e.aluU i rd ra (aluExp2 31 0x7FFFFFFF)

/-- EXP2G: 2^y × 2^20 as an s3.20 gain, correctly rounded (R208). -/
def execExp2g (i : Issue) (rd ra : Nat) (s : State) : Out :=
  s.eff fun e => e.aluU i rd ra (aluExp2 20 0x7FFFFF)

/-- ADDI: ra + I (R202). -/
def execAddi (i : Issue) (rd ra imm : Nat) (s : State) : Out :=
  s.eff fun e => e.aluI i rd ra imm true (aluAdd)

/-- ANDI: ra AND I (R202). -/
def execAndi (i : Issue) (rd ra imm : Nat) (s : State) : Out :=
  s.eff fun e => e.aluI i rd ra imm false (fun a b => aluLogic (a &&& b))

/-- ORI: ra OR I (R202). -/
def execOri (i : Issue) (rd ra imm : Nat) (s : State) : Out :=
  s.eff fun e => e.aluI i rd ra imm false (fun a b => aluLogic (a ||| b))

/-- XORI: ra XOR I (R202). -/
def execXori (i : Issue) (rd ra imm : Nat) (s : State) : Out :=
  s.eff fun e => e.aluI i rd ra imm false (fun a b => aluLogic (a ^^^ b))

/-- SHLI: SHL by an immediate amount of 0 to 31 (R202). -/
def execShli (i : Issue) (rd ra k : Nat) (s : State) : Out :=
  s.eff fun e => e.aluU i rd ra (fun a => aluShift .shl a (k % 32))

/-- SHRI: SHR by an immediate amount of 0 to 31 (R202). -/
def execShri (i : Issue) (rd ra k : Nat) (s : State) : Out :=
  s.eff fun e => e.aluU i rd ra (fun a => aluShift .shr a (k % 32))

/-- SRAI: SRA by an immediate amount of 0 to 31 (R202). -/
def execSrai (i : Issue) (rd ra k : Nat) (s : State) : Out :=
  s.eff fun e => e.aluU i rd ra (fun a => aluShift .sra a (k % 32))

/-- MOVI: the immediate (R202). -/
def execMovi (i : Issue) (rd imm : Nat) (s : State) : Out :=
  s.eff fun e => e.aluI i rd 0 imm true (fun _ b => aluPlain b)

/-- CMP: Q[qd] is ra cond rb (R203). -/
def execCmp (i : Issue) (qd cond ra rb : Nat) (s : State) : Out :=
  s.eff fun e => e.issueCtx i {} fun x => x.wrQ qd (cmpCond cond (x.rdG ra) (x.rdG rb))

/-- CMPI: Q[qd] is ra cond I (R203). -/
def execCmpi (i : Issue) (qd cond ra imm : Nat) (s : State) : Out :=
  s.eff fun e => e.issueCtx i { ext := true } fun x =>
    x.wrQ qd (cmpCond cond (x.rdG ra) (x.imm true imm))

/-- One step of unsigned division on rem = G[d], quo = G[d+1] (R206). -/
def CoreCtx.divStep (x : CoreCtx) (d b : Nat) : CoreCtx :=
  let t := 2 * (x.rdG d).toNat + (x.rdG (d + 1)).toNat / 2 ^ 31
  let dv := (x.rdG b).toNat
  let q := x.rdG (d + 1) <<< 1
  let (t, q) := if dv ≤ t then (t - dv, q ||| 1#32) else (t, q)
  (x.wrG d (BitVec.ofNat 32 t)).wrG (d + 1) q

/-- DIVS (R206); rd must be even and not 0. -/
def execDivs (i : Issue) (rd rb : Nat) (s : State) : Out :=
  s.eff fun e => e.issueCtx i { illegal := rd % 2 == 1 || rd == 0 } fun x => x.divStep rd rb

/-- One step of integer square root on rem, root, rad = G[d], G[d+1], G[d+2] (R206). -/
def CoreCtx.sqrStep (x : CoreCtx) (d : Nat) : CoreCtx :=
  let rad := x.rdG (d + 2)
  let root := x.rdG (d + 1)
  let rem := (x.rdG d <<< 2) ||| (rad >>> 30)
  let trial := (root <<< 2) ||| 1#32
  let (rem, root) :=
    if trial.toNat ≤ rem.toNat then (rem - trial, (root <<< 1) ||| 1#32) else (rem, root <<< 1)
  ((x.wrG d rem).wrG (d + 1) root).wrG (d + 2) (rad <<< 2)

/-- SQRS (R206); rd must be a multiple of 4 from 4 to 28. -/
def execSqrs (i : Issue) (rd : Nat) (s : State) : Out :=
  s.eff fun e => e.issueCtx i { illegal := rd % 4 != 0 || rd == 0 } fun x => x.sqrStep rd

/-- A predicate operation of two predicates, each with its inversion (R244). -/
def Engine.predOp (e : Engine) (i : Issue) (qd qa : Nat) (ia : Bool) (qb : Nat) (ib : Bool)
    (f : Bool → Bool → Bool) : Engine :=
  e.issueCtx i {} fun x => x.wrQ qd (f (x.rdQ qa != ia) (x.rdQ qb != ib))

/-- PRED_AND (R244). -/
def execPredAnd (i : Issue) (qd qa : Nat) (ia : Bool) (qb : Nat) (ib : Bool) (s : State) : Out :=
  s.eff fun e => e.predOp i qd qa ia qb ib (fun a b => a && b)

/-- PRED_OR (R244). -/
def execPredOr (i : Issue) (qd qa : Nat) (ia : Bool) (qb : Nat) (ib : Bool) (s : State) : Out :=
  s.eff fun e => e.predOp i qd qa ia qb ib (fun a b => a || b)

/-- PRED_XOR (R244). -/
def execPredXor (i : Issue) (qd qa : Nat) (ia : Bool) (qb : Nat) (ib : Bool) (s : State) : Out :=
  s.eff fun e => e.predOp i qd qa ia qb ib (fun a b => a != b)

/-- PFLAG: a flag condition to Q[qd]; FC 10 to 15 are reserved (R244). -/
def execPflag (i : Issue) (qd fc : Nat) (s : State) : Out :=
  s.eff fun e => e.issueCtx i { illegal := decide (10 ≤ fc) } fun x => x.wrQ qd (x.flagCond fc)

end Sys2Proof.Machine
end

