-- ==== Sys2Proof/Machine/Dispatch.lean ====
section
/-!
DEFINITION. The dispatch: one arm per command, each one direct call of that command's meaning.
-/
namespace Sys2Proof.Machine

/-- The effect of a command on everything but the queue. -/
def exec (i : Instr) (s : State) : Host.Outcome State Fault Refusal :=
  match i with
  | .registerWrite by_ a v => Sys2Proof.Machine.execRegisterWrite by_ a v s
  | .cpEvenWrite by_ a v => Sys2Proof.Machine.execCpEvenWrite by_ a v s
  | .cpOddWrite by_ a v => Sys2Proof.Machine.execCpOddWrite by_ a v s
  | .cpPairTimeout a => Sys2Proof.Machine.execCpPairTimeout a s
  | .unmappedAccess by_ a write => Sys2Proof.Machine.execUnmappedAccess by_ a write s
  | .tickCfgWrite by_ v => Sys2Proof.Machine.execTickCfgWrite by_ v s
  | .tickRunStart by_ => Sys2Proof.Machine.execTickRunStart by_ s
  | .deferredTickStart => Sys2Proof.Machine.execDeferredTickStart s
  | .tickStopRequest => Sys2Proof.Machine.execTickStopRequest s
  | .tickStopHold => Sys2Proof.Machine.execTickStopHold s
  | .tickStart => Sys2Proof.Machine.execTickStart s
  | .guardStart => Sys2Proof.Machine.execGuardStart s
  | .sysEscLoRead by_ => Sys2Proof.Machine.execSysEscLoRead by_ s
  | .evrOverflow => Sys2Proof.Machine.execEvrOverflow s
  | .sysEvrCfgWrite len v => Sys2Proof.Machine.execSysEvrCfgWrite len v s
  | .sysKeyWrite by_ v => Sys2Proof.Machine.execSysKeyWrite by_ v s
  | .sysResetWrite by_ v => Sys2Proof.Machine.execSysResetWrite by_ v s
  | .clkTgtCommit by_ v => Sys2Proof.Machine.execClkTgtCommit by_ v s
  | .smallStepApply => Sys2Proof.Machine.execSmallStepApply s
  | .pllLockDeclared => Sys2Proof.Machine.execPllLockDeclared s
  | .relockDone => Sys2Proof.Machine.execRelockDone s
  | .relockTimeout => Sys2Proof.Machine.execRelockTimeout s
  | .pllAcquireStart v => Sys2Proof.Machine.execPllAcquireStart v s
  | .calMeasureStart by_ v => Sys2Proof.Machine.execCalMeasureStart by_ v s
  | .calMeasureDone count => Sys2Proof.Machine.execCalMeasureDone count s
  | .lpoCalUpdate count => Sys2Proof.Machine.execLpoCalUpdate count s
  | .lockLost => Sys2Proof.Machine.execLockLost s
  | .lockRegained => Sys2Proof.Machine.execLockRegained s
  | .lockLossTimeout => Sys2Proof.Machine.execLockLossTimeout s
  | .freqMonitorWindow count => Sys2Proof.Machine.execFreqMonitorWindow count s
  | .xtalFail => Sys2Proof.Machine.execXtalFail s
  | .clkGateWrite v => Sys2Proof.Machine.execClkGateWrite v s
  | .clkGateClose unit => Sys2Proof.Machine.execClkGateClose unit s
  | .refGateEnd n present ppt => Sys2Proof.Machine.execRefGateEnd n present ppt s
  | .refLos n => Sys2Proof.Machine.execRefLos n s
  | .refEvent n ph => Sys2Proof.Machine.execRefEvent n ph s
  | .vrefFrameStart off ph => Sys2Proof.Machine.execVrefFrameStart off ph s
  | .refUpdate => Sys2Proof.Machine.execRefUpdate s
  | .refHistorySample => Sys2Proof.Machine.execRefHistorySample s
  | .refPtpQualWrite v => Sys2Proof.Machine.execRefPtpQualWrite v s
  | .refFreqWrite by_ v => Sys2Proof.Machine.execRefFreqWrite by_ v s
  | .refPhaseStepWrite by_ v => Sys2Proof.Machine.execRefPhaseStepWrite by_ v s
  | .realignCommand v => Sys2Proof.Machine.execRealignCommand v s
  | .realignApply => Sys2Proof.Machine.execRealignApply s
  | .timeIncrCommit by_ v => Sys2Proof.Machine.execTimeIncrCommit by_ v s
  | .timeStep by_ v => Sys2Proof.Machine.execTimeStep by_ v s
  | .timeNowCapture by_ => Sys2Proof.Machine.execTimeNowCapture by_ s
  | .timeLatchCapture by_ => Sys2Proof.Machine.execTimeLatchCapture by_ s
  | .txtsPop => Sys2Proof.Machine.execTxtsPop s
  | .taqArm by_ ix v => Sys2Proof.Machine.execTaqArm by_ ix v s
  | .taqCancel by_ ix v => Sys2Proof.Machine.execTaqCancel by_ ix v s
  | .taqCutoff => Sys2Proof.Machine.execTaqCutoff s
  | .timedPatchApply => Sys2Proof.Machine.execTimedPatchApply s
  | .timedMuteStart => Sys2Proof.Machine.execTimedMuteStart s
  | .timedGpioChange => Sys2Proof.Machine.execTimedGpioChange s
  | .add ix rd ra rb => Sys2Proof.Machine.execAdd ix rd ra rb s
  | .sub ix rd ra rb => Sys2Proof.Machine.execSub ix rd ra rb s
  | .adds ix rd ra rb => Sys2Proof.Machine.execAdds ix rd ra rb s
  | .subs ix rd ra rb => Sys2Proof.Machine.execSubs ix rd ra rb s
  | .and ix rd ra rb => Sys2Proof.Machine.execAnd ix rd ra rb s
  | .or ix rd ra rb => Sys2Proof.Machine.execOr ix rd ra rb s
  | .xor ix rd ra rb => Sys2Proof.Machine.execXor ix rd ra rb s
  | .andn ix rd ra rb => Sys2Proof.Machine.execAndn ix rd ra rb s
  | .shl ix rd ra rb => Sys2Proof.Machine.execShl ix rd ra rb s
  | .shr ix rd ra rb => Sys2Proof.Machine.execShr ix rd ra rb s
  | .sra ix rd ra rb => Sys2Proof.Machine.execSra ix rd ra rb s
  | .min ix rd ra rb => Sys2Proof.Machine.execMin ix rd ra rb s
  | .max ix rd ra rb => Sys2Proof.Machine.execMax ix rd ra rb s
  | .minu ix rd ra rb => Sys2Proof.Machine.execMinu ix rd ra rb s
  | .maxu ix rd ra rb => Sys2Proof.Machine.execMaxu ix rd ra rb s
  | .peak ix rd ra rb => Sys2Proof.Machine.execPeak ix rd ra rb s
  | .mov ix rd ra => Sys2Proof.Machine.execMov ix rd ra s
  | .neg ix rd ra => Sys2Proof.Machine.execNeg ix rd ra s
  | .not ix rd ra => Sys2Proof.Machine.execNot ix rd ra s
  | .abs ix rd ra => Sys2Proof.Machine.execAbs ix rd ra s
  | .clz ix rd ra => Sys2Proof.Machine.execClz ix rd ra s
  | .cls ix rd ra => Sys2Proof.Machine.execCls ix rd ra s
  | .log2 ix rd ra => Sys2Proof.Machine.execLog2 ix rd ra s
  | .exp2 ix rd ra => Sys2Proof.Machine.execExp2 ix rd ra s
  | .exp2g ix rd ra => Sys2Proof.Machine.execExp2g ix rd ra s
  | .addi ix rd ra imm => Sys2Proof.Machine.execAddi ix rd ra imm s
  | .andi ix rd ra imm => Sys2Proof.Machine.execAndi ix rd ra imm s
  | .ori ix rd ra imm => Sys2Proof.Machine.execOri ix rd ra imm s
  | .xori ix rd ra imm => Sys2Proof.Machine.execXori ix rd ra imm s
  | .shli ix rd ra k => Sys2Proof.Machine.execShli ix rd ra k s
  | .shri ix rd ra k => Sys2Proof.Machine.execShri ix rd ra k s
  | .srai ix rd ra k => Sys2Proof.Machine.execSrai ix rd ra k s
  | .movi ix rd imm => Sys2Proof.Machine.execMovi ix rd imm s
  | .cmp ix qd cond ra rb => Sys2Proof.Machine.execCmp ix qd cond ra rb s
  | .cmpi ix qd cond ra imm => Sys2Proof.Machine.execCmpi ix qd cond ra imm s
  | .divs ix rd rb => Sys2Proof.Machine.execDivs ix rd rb s
  | .sqrs ix rd => Sys2Proof.Machine.execSqrs ix rd s
  | .mac ix fmt an ga gb clr => Sys2Proof.Machine.execMac ix fmt an ga gb clr s
  | .msu ix fmt an ga gb clr => Sys2Proof.Machine.execMsu ix fmt an ga gb clr s
  | .dot2 ix fmt an ga gb sub clr => Sys2Proof.Machine.execDot2 ix fmt an ga gb sub clr s
  | .macp ix fmt an ga gb sub clr => Sys2Proof.Machine.execMacp ix fmt an ga gb sub clr s
  | .bq ix an gx gc pp => Sys2Proof.Machine.execBq ix an gx gc pp s
  | .aclr ix an => Sys2Proof.Machine.execAclr ix an s
  | .amov ix an am => Sys2Proof.Machine.execAmov ix an am s
  | .ald ix an ga => Sys2Proof.Machine.execAld ix an ga s
  | .aadd ix an am => Sys2Proof.Machine.execAadd ix an am s
  | .asub ix an am => Sys2Proof.Machine.execAsub ix an am s
  | .ashl ix an k => Sys2Proof.Machine.execAshl ix an k s
  | .asra ix an k => Sys2Proof.Machine.execAsra ix an k s
  | .aneg ix an => Sys2Proof.Machine.execAneg ix an s
  | .rda ix gd an sh rm sm => Sys2Proof.Machine.execRda ix gd an sh rm sm s
  | .sta ix an pn pm sh rm sm => Sys2Proof.Machine.execSta ix an pn pm sh rm sm s
  | .ext ix x20 => Sys2Proof.Machine.execExt ix x20 s
  | .ldw ix g ad => Sys2Proof.Machine.execLdw ix g ad s
  | .ldd ix g ad => Sys2Proof.Machine.execLdd ix g ad s
  | .stw ix g ad => Sys2Proof.Machine.execStw ix g ad s
  | .std ix g ad => Sys2Proof.Machine.execStd ix g ad s
  | .ld2 ix gd ge pn pmn pm pmm wide => Sys2Proof.Machine.execLd2 ix gd ge pn pmn pm pmm wide s
  | .mtp ix k n g => Sys2Proof.Machine.execMtp ix k n g s
  | .mfp ix k n g => Sys2Proof.Machine.execMfp ix k n g s
  | .pstep ix n imm => Sys2Proof.Machine.execPstep ix n imm s
  | .ldl ix gd ga => Sys2Proof.Machine.execLdl ix gd ga s
  | .stc ix gd gs ga => Sys2Proof.Machine.execStc ix gd gs ga s
  | .br ix off => Sys2Proof.Machine.execBr ix off s
  | .brl ix off => Sys2Proof.Machine.execBrl ix off s
  | .jr ix gd ga => Sys2Proof.Machine.execJr ix gd ga s
  | .loop ix n body => Sys2Proof.Machine.execLoop ix n body s
  | .loops ix => Sys2Proof.Machine.execLoops ix s
  | .predAnd ix qd qa ia qb ib => Sys2Proof.Machine.execPredAnd ix qd qa ia qb ib s
  | .predOr ix qd qa ia qb ib => Sys2Proof.Machine.execPredOr ix qd qa ia qb ib s
  | .predXor ix qd qa ia qb ib => Sys2Proof.Machine.execPredXor ix qd qa ia qb ib s
  | .pflag ix qd fc => Sys2Proof.Machine.execPflag ix qd fc s
  | .mfs ix g sr => Sys2Proof.Machine.execMfs ix g sr s
  | .mts ix g sr => Sys2Proof.Machine.execMts ix g sr s
  | .lock ix => Sys2Proof.Machine.execLock ix s
  | .unlock ix => Sys2Proof.Machine.execUnlock ix s
  | .fence ix => Sys2Proof.Machine.execFence ix s
  | .gap ix k => Sys2Proof.Machine.execGap ix k s
  | .wft ix => Sys2Proof.Machine.execWft ix s
  | .wftWake c => Sys2Proof.Machine.execWftWake c s
  | .split ix g => Sys2Proof.Machine.execSplit ix g s
  | .trap ix code => Sys2Proof.Machine.execTrap ix code s
  | .brk ix => Sys2Proof.Machine.execBrk ix s
  | .rte ix => Sys2Proof.Machine.execRte ix s
  | .tready ix ga => Sys2Proof.Machine.execTready ix ga s
  | .tcancel ix ga => Sys2Proof.Machine.execTcancel ix ga s
  | .tyield ix => Sys2Proof.Machine.execTyield ix s
  | .tdone ix status => Sys2Proof.Machine.execTdone ix status s
  | .taskComplete c => Sys2Proof.Machine.execTaskComplete c s
  | .waiti ix => Sys2Proof.Machine.execWaiti ix s
  | .waitiWake => Sys2Proof.Machine.execWaitiWake s
  | .ieset ix gd b => Sys2Proof.Machine.execIeset ix gd b s
  | .moncall ix service => Sys2Proof.Machine.execMoncall ix service s
  | .isync ix => Sys2Proof.Machine.execIsync ix s
  | .irqEntry => Sys2Proof.Machine.execIrqEntry s
  | .preemption c d => Sys2Proof.Machine.execPreemption c d s
  | .lockBreak c => Sys2Proof.Machine.execLockBreak c s
  | .remoteLoadComplete c slot => Sys2Proof.Machine.execRemoteLoadComplete c slot s
  | .coreDmaStarve c k => Sys2Proof.Machine.execCoreDmaStarve c k s
  | .coreTenantWrite by_ c v => Sys2Proof.Machine.execCoreTenantWrite by_ c v s
  | .scrubDone c => Sys2Proof.Machine.execScrubDone c s
  | .schedSubmit by_ d => Sys2Proof.Machine.execSchedSubmit by_ d s
  | .schedReady by_ v => Sys2Proof.Machine.execSchedReady by_ v s
  | .schedCancel by_ d => Sys2Proof.Machine.execSchedCancel by_ d s
  | .schedFree by_ d => Sys2Proof.Machine.execSchedFree by_ d s
  | .schedRangeCommit by_ t v => Sys2Proof.Machine.execSchedRangeCommit by_ t v s
  | .taskDispatch u => Sys2Proof.Machine.execTaskDispatch u s
  | .taskMigrate d c => Sys2Proof.Machine.execTaskMigrate d c s
  | .taskAbort c => Sys2Proof.Machine.execTaskAbort c s
  | .schedCqPop by_ t => Sys2Proof.Machine.execSchedCqPop by_ t s
  | .accelJobComplete kind => Sys2Proof.Machine.execAccelJobComplete kind s
  | .ingotHandover by_ n v => Sys2Proof.Machine.execIngotHandover by_ n v s
  | .drainComplete n => Sys2Proof.Machine.execDrainComplete n s
  | .ingotScrubDone n => Sys2Proof.Machine.execIngotScrubDone n s
  | .retentionRequest by_ g v => Sys2Proof.Machine.execRetentionRequest by_ g v s
  | .retEntered g => Sys2Proof.Machine.execRetEntered g s
  | .retWoken g => Sys2Proof.Machine.execRetWoken g s
  | .ingotStarve k n => Sys2Proof.Machine.execIngotStarve k n s
  | .windowCommit by_ t w v => Sys2Proof.Machine.execWindowCommit by_ t w v s
  | .faultRecordClear t v => Sys2Proof.Machine.execFaultRecordClear t v s
  | .hostReadCompletion hx data => Sys2Proof.Machine.execHostReadCompletion hx data s
  | .hostReadTimeout hx => Sys2Proof.Machine.execHostReadTimeout hx s
  | .dmaStart by_ k => Sys2Proof.Machine.execDmaStart by_ k s
  | .dmaResume by_ k => Sys2Proof.Machine.execDmaResume by_ k s
  | .dmaAbort by_ k => Sys2Proof.Machine.execDmaAbort by_ k s
  | .dmaDescFetch k => Sys2Proof.Machine.execDmaDescFetch k s
  | .dmaBurst k => Sys2Proof.Machine.execDmaBurst k s
  | .dmaDescComplete k => Sys2Proof.Machine.execDmaDescComplete k s
  | .mbxHdrWrite by_ t d v => Sys2Proof.Machine.execMbxHdrWrite by_ t d v s
  | .mbxHdrcWrite by_ t d v => Sys2Proof.Machine.execMbxHdrcWrite by_ t d v s
  | .mbxHdrTimeout t d => Sys2Proof.Machine.execMbxHdrTimeout t d s
  | .mbxDataWrite by_ t d v => Sys2Proof.Machine.execMbxDataWrite by_ t d v s
  | .mbxPop by_ t d => Sys2Proof.Machine.execMbxPop by_ t d s
  | .mbxGo by_ t d => Sys2Proof.Machine.execMbxGo by_ t d s
  | .mbxHdrRead by_ t d => Sys2Proof.Machine.execMbxHdrRead by_ t d s
  | .mbxFlush by_ t v => Sys2Proof.Machine.execMbxFlush by_ t v s
  | .evqPop by_ t => Sys2Proof.Machine.execEvqPop by_ t s
  | .evqOverflow t => Sys2Proof.Machine.execEvqOverflow t s
  | .doorbellRing by_ t v => Sys2Proof.Machine.execDoorbellRing by_ t v s
  | .doorbellWake by_ t => Sys2Proof.Machine.execDoorbellWake by_ t s
  | .patchEntryWrite by_ k d v => Sys2Proof.Machine.execPatchEntryWrite by_ k d v s
  | .routeMuteCmd by_ v => Sys2Proof.Machine.execRouteMuteCmd by_ v s
  | .contributionWrite by_ k c w0 w1 => Sys2Proof.Machine.execContributionWrite by_ k c w0 w1 s
  | .sumxListWrite by_ k n v => Sys2Proof.Machine.execSumxListWrite by_ k n v s
  | .sumxSumJob => Sys2Proof.Machine.execSumxSumJob s
  | .sumxFinishJob => Sys2Proof.Machine.execSumxFinishJob s
  | .tapPeakCapture by_ k => Sys2Proof.Machine.execTapPeakCapture by_ k s
  | .loudBlock m => Sys2Proof.Machine.execLoudBlock m s
  | .chainWrite by_ c ix v => Sys2Proof.Machine.execChainWrite by_ c ix v s
  | .coefWrite by_ k w v => Sys2Proof.Machine.execCoefWrite by_ k w v s
  | .eqaClear by_ v => Sys2Proof.Machine.execEqaClear by_ v s
  | .eqaChainJob => Sys2Proof.Machine.execEqaChainJob s
  | .safeArm by_ g => Sys2Proof.Machine.execSafeArm by_ g s
  | .safeArmCheckDone g => Sys2Proof.Machine.execSafeArmCheckDone g s
  | .safeDisarm by_ g => Sys2Proof.Machine.execSafeDisarm by_ g s
  | .safeClrinc by_ g => Sys2Proof.Machine.execSafeClrinc by_ g s
  | .safeSwap g => Sys2Proof.Machine.execSafeSwap g s
  | .syncDone g => Sys2Proof.Machine.execSyncDone g s
  | .sapInputFrame g bits phase lines margin => Sys2Proof.Machine.execSapInputFrame g bits phase lines margin s
  | .sapOutputFrame g bad => Sys2Proof.Machine.execSapOutputFrame g bad s
  | .sapClockLoss g => Sys2Proof.Machine.execSapClockLoss g s
  | .madiRxFrame p f => Sys2Proof.Machine.execMadiRxFrame p f s
  | .madiRxNosig p => Sys2Proof.Machine.execMadiRxNosig p s
  | .madiTxFrame p => Sys2Proof.Machine.execMadiTxFrame p s
  | .netFrameReceive p fr fcsOk hb => Sys2Proof.Machine.execNetFrameReceive p fr fcsOk hb s
  | .legLoss f p => Sys2Proof.Machine.execLegLoss f p s
  | .flowLoss f => Sys2Proof.Machine.execFlowLoss f s
  | .mediaPacketLaunch f => Sys2Proof.Machine.execMediaPacketLaunch f s
  | .controlFrameTransmit p => Sys2Proof.Machine.execControlFrameTransmit p s
  | .flowEnable by_ tx f => Sys2Proof.Machine.execFlowEnable by_ tx f s
  | .flowDisable by_ tx f => Sys2Proof.Machine.execFlowDisable by_ tx f s
  | .linkUp p => Sys2Proof.Machine.execLinkUp p s
  | .linkDown p => Sys2Proof.Machine.execLinkDown p s
  | .heartbeat m esc state role prop count phase mcc => Sys2Proof.Machine.execHeartbeat m esc state role prop count phase mcc s
  | .digest m esc ds => Sys2Proof.Machine.execDigest m esc ds s
  | .fwdWrite m a v esc => Sys2Proof.Machine.execFwdWrite m a v esc s
  | .fwdTaq m ix esc => Sys2Proof.Machine.execFwdTaq m ix esc s
  | .fwdMsg m t ws esc => Sys2Proof.Machine.execFwdMsg m t ws esc s
  | .mirror m port first esc ws => Sys2Proof.Machine.execMirror m port first esc ws s
  | .hostdata m k burst ws => Sys2Proof.Machine.execHostdata m k burst ws s
  | .copy m a round ws => Sys2Proof.Machine.execCopy m a round ws s
  | .join m es => Sys2Proof.Machine.execJoin m es s
  | .enter m esc => Sys2Proof.Machine.execEnter m esc s
  | .reclaim m esc => Sys2Proof.Machine.execReclaim m esc s
  | .switch m esc => Sys2Proof.Machine.execSwitch m esc s
  | .relinquish m esc => Sys2Proof.Machine.execRelinquish m esc s
  | .leave m esc => Sys2Proof.Machine.execLeave m esc s
  | .svlRetransmit => Sys2Proof.Machine.execSvlRetransmit s
  | .linkFail => Sys2Proof.Machine.execLinkFail s
  | .trained lanes => Sys2Proof.Machine.execTrained lanes s
  | .laneDown l => Sys2Proof.Machine.execLaneDown l s
  | .laneUp l => Sys2Proof.Machine.execLaneUp l s
  | .linkHeartbeatLost => Sys2Proof.Machine.execLinkHeartbeatLost s
  | .netHeartbeatAbsent => Sys2Proof.Machine.execNetHeartbeatAbsent s
  | .duoJoin by_ p => Sys2Proof.Machine.execDuoJoin by_ p s
  | .copyRoundEnd => Sys2Proof.Machine.execCopyRoundEnd s
  | .lockstepEntry => Sys2Proof.Machine.execLockstepEntry s
  | .paired => Sys2Proof.Machine.execPaired s
  | .joinConvergeTimeout => Sys2Proof.Machine.execJoinConvergeTimeout s
  | .forwardedApply => Sys2Proof.Machine.execForwardedApply s
  | .failover => Sys2Proof.Machine.execFailover s
  | .primaryGoesSolo => Sys2Proof.Machine.execPrimaryGoesSolo s
  | .revertHoldReached => Sys2Proof.Machine.execRevertHoldReached s
  | .duoSwitch by_ => Sys2Proof.Machine.execDuoSwitch by_ s
  | .roleSwap => Sys2Proof.Machine.execRoleSwap s
  | .duoLeave by_ => Sys2Proof.Machine.execDuoLeave by_ s
  | .departureAtF => Sys2Proof.Machine.execDepartureAtF s
  | .jackDetEdge level => Sys2Proof.Machine.execJackDetEdge level s
  | .jackInsertConfirm => Sys2Proof.Machine.execJackInsertConfirm s
  | .jackRemoved => Sys2Proof.Machine.execJackRemoved s
  | .jackClass zl zr ca cb => Sys2Proof.Machine.execJackClass zl zr ca cb s
  | .buttonSample code => Sys2Proof.Machine.execButtonSample code s
  | .btnPress k => Sys2Proof.Machine.execBtnPress k s
  | .btnRelease => Sys2Proof.Machine.execBtnRelease s
  | .btnLong => Sys2Proof.Machine.execBtnLong s
  | .spkCfgWrite by_ v => Sys2Proof.Machine.execSpkCfgWrite by_ v s
  | .spkTrip => Sys2Proof.Machine.execSpkTrip s
  | .spkSoftstartDone => Sys2Proof.Machine.execSpkSoftstartDone s
  | .spkRetry => Sys2Proof.Machine.execSpkRetry s
  | .spkAttemptsReset => Sys2Proof.Machine.execSpkAttemptsReset s
  | .spkFinalClear by_ => Sys2Proof.Machine.execSpkFinalClear by_ s
  | .spkThermalEnter temp => Sys2Proof.Machine.execSpkThermalEnter temp s
  | .spkThermalExit temp => Sys2Proof.Machine.execSpkThermalExit temp s
  | .silSleep o => Sys2Proof.Machine.execSilSleep o s
  | .silWake o => Sys2Proof.Machine.execSilWake o s
  | .ringSampleWrite sample slots => Sys2Proof.Machine.execRingSampleWrite sample slots s
  | .ringCntCapture by_ => Sys2Proof.Machine.execRingCntCapture by_ s
  | .fetchGo by_ v => Sys2Proof.Machine.execFetchGo by_ v s
  | .fetchComplete => Sys2Proof.Machine.execFetchComplete s
  | .pcieLinkDown kind => Sys2Proof.Machine.execPcieLinkDown kind s
  | .pcieLinkUp speed => Sys2Proof.Machine.execPcieLinkUp speed s
  | .flrStart f => Sys2Proof.Machine.execFlrStart f s
  | .flrComplete f => Sys2Proof.Machine.execFlrComplete f s
  | .apertureAccess t o write => Sys2Proof.Machine.execApertureAccess t o write s
  | .apertureAbort t => Sys2Proof.Machine.execApertureAbort t s
  | .pfMsiTrigger by_ v => Sys2Proof.Machine.execPfMsiTrigger by_ v s
  | .vfMsiTrigger by_ t v => Sys2Proof.Machine.execVfMsiTrigger by_ t v s
  | .bootRomStart => Sys2Proof.Machine.execBootRomStart s
  | .bootPushGo by_ => Sys2Proof.Machine.execBootPushGo by_ s
  | .bootImageCheck img => Sys2Proof.Machine.execBootImageCheck img s
  | .qspiCommand by_ v => Sys2Proof.Machine.execQspiCommand by_ v s
  | .cmdDone data => Sys2Proof.Machine.execCmdDone data s
  | .twbAddressMatch a read off part => Sys2Proof.Machine.execTwbAddressMatch a read off part s
  | .twbWriteWord w => Sys2Proof.Machine.execTwbWriteWord w s
  | .twbReadWord => Sys2Proof.Machine.execTwbReadWord s
  | .twbStop part => Sys2Proof.Machine.execTwbStop part s
  | .twStretch => Sys2Proof.Machine.execTwStretch s
  | .twbLingerExpire => Sys2Proof.Machine.execTwbLingerExpire s
  | .twWake => Sys2Proof.Machine.execTwWake s
  | .twbDormantMatch a => Sys2Proof.Machine.execTwbDormantMatch a s
  | .pwrCmdRun by_ => Sys2Proof.Machine.execPwrCmdRun by_ s
  | .pwrCmdIdle by_ => Sys2Proof.Machine.execPwrCmdIdle by_ s
  | .pwrCmdListen by_ => Sys2Proof.Machine.execPwrCmdListen by_ s
  | .pwrCmdDormant by_ => Sys2Proof.Machine.execPwrCmdDormant by_ s
  | .pwrKeyWrite by_ v => Sys2Proof.Machine.execPwrKeyWrite by_ v s
  | .pwrReqRun by_ => Sys2Proof.Machine.execPwrReqRun by_ s
  | .idleEntry => Sys2Proof.Machine.execIdleEntry s
  | .idleExit => Sys2Proof.Machine.execIdleExit s
  | .listenEntry => Sys2Proof.Machine.execListenEntry s
  | .listenExit => Sys2Proof.Machine.execListenExit s
  | .dormantEntry => Sys2Proof.Machine.execDormantEntry s
  | .dormantWake => Sys2Proof.Machine.execDormantWake s
  | .wakePinRequest level => Sys2Proof.Machine.execWakePinRequest level s
  | .powerOnReset up => Sys2Proof.Machine.execPowerOnReset up s
  | .resetNReset low gpio0 => Sys2Proof.Machine.execResetNReset low gpio0 s
  | .supplyReset ok => Sys2Proof.Machine.execSupplyReset ok s
  | .softwareReset => Sys2Proof.Machine.execSoftwareReset s
  | .fuseLoad => Sys2Proof.Machine.execFuseLoad s
  | .gpioOutWrite by_ v => Sys2Proof.Machine.execGpioOutWrite by_ v s
  | .gpioEdge k level => Sys2Proof.Machine.execGpioEdge k level s
  | .wdtStart by_ => Sys2Proof.Machine.execWdtStart by_ s
  | .wdtEarly => Sys2Proof.Machine.execWdtEarly s
  | .wdtServiceWrite by_ v c => Sys2Proof.Machine.execWdtServiceWrite by_ v c s
  | .wdtExpiry => Sys2Proof.Machine.execWdtExpiry s
  | .watchdogReset => Sys2Proof.Machine.execWatchdogReset s
  | .fuseProgGo by_ => Sys2Proof.Machine.execFuseProgGo by_ s
  | .progDone => Sys2Proof.Machine.execProgDone s
  | .lcAdvanceCmd by_ v => Sys2Proof.Machine.execLcAdvanceCmd by_ v s
  | .retireEraseDone => Sys2Proof.Machine.execRetireEraseDone s
  | .fuseBlow => Sys2Proof.Machine.execFuseBlow s
  | .lcAdvance => Sys2Proof.Machine.execLcAdvance s
  | .derive => Sys2Proof.Machine.execDerive s
  | .extest cells => Sys2Proof.Machine.execExtest cells s
  | .samplePreload sampled cells => Sys2Proof.Machine.execSamplePreload sampled cells s
  | .idcode => Sys2Proof.Machine.execIdcode s
  | .clamp => Sys2Proof.Machine.execClamp s
  | .highz => Sys2Proof.Machine.execHighz s
  | .bypass => Sys2Proof.Machine.execBypass s
  | .wakereq => Sys2Proof.Machine.execWakereq s
  | .dpacc op a v => Sys2Proof.Machine.execDpacc op a v s
  | .testLogicReset => Sys2Proof.Machine.execTestLogicReset s
  | .dbgRequest v => Sys2Proof.Machine.execDbgRequest v s
  | .dbgAuthSubmit => Sys2Proof.Machine.execDbgAuthSubmit s
  | .dbgChallengeExpire => Sys2Proof.Machine.execDbgChallengeExpire s
  | .dbgClose => Sys2Proof.Machine.execDbgClose s
  | .dbgHalt m => Sys2Proof.Machine.execDbgHalt m s
  | .dbgResume m => Sys2Proof.Machine.execDbgResume m s
  | .dbgStep m => Sys2Proof.Machine.execDbgStep m s
  | .debugReset => Sys2Proof.Machine.execDebugReset s
  | .assayScrub => Sys2Proof.Machine.execAssayScrub s
  | .trackEntryExpire => Sys2Proof.Machine.execTrackEntryExpire s
  | .quarLifted by_ addr => Sys2Proof.Machine.execQuarLifted by_ addr s
  | .avsMeasurement counts mv => Sys2Proof.Machine.execAvsMeasurement counts mv s
  | .thermalReading t0 t1 t2 t3 => Sys2Proof.Machine.execThermalReading t0 t1 t2 t3 s
  | .thermStop => Sys2Proof.Machine.execThermStop s
  | .levelDwellStep => Sys2Proof.Machine.execLevelDwellStep s
  | .registerRead by_ a => Sys2Proof.Machine.execRegisterRead by_ a s
  | .storeAccepted c host => Sys2Proof.Machine.execStoreAccepted c host s
  | .samplePeriod mic => Sys2Proof.Machine.execSamplePeriod mic s
  | .svlFrameError k => Sys2Proof.Machine.execSvlFrameError k s
  | .reclaimAckTimeout => Sys2Proof.Machine.execReclaimAckTimeout s
  | .hpLimit sides => Sys2Proof.Machine.execHpLimit sides s
  | .cueSuppliesAbsent vdd vdda => Sys2Proof.Machine.execCueSuppliesAbsent vdd vdda s
  | .dbgWaitEnd => Sys2Proof.Machine.execDbgWaitEnd s
  | .vfEnable en num ari => Sys2Proof.Machine.execVfEnable en num ari s
  | .msixUnmask f v => Sys2Proof.Machine.execMsixUnmask f v s

end Sys2Proof.Machine
end

