-- ==== Sys2Proof/Machine/Step.lean ====
section
/-!
DEFINITION. One step: the command at the front of the queue, or one FABRIC cycle when none waits.
-/
namespace Sys2Proof.Machine

/-- A step of the block: the oldest waiting command takes effect; with none waiting the engine
runs one FABRIC cycle (DESIGN CHOICE, log entry 2). -/
def step (s : State) : Host.Outcome State Fault Refusal :=
  match s.pending with
  | [] => s.eff Engine.cycle
  | c :: cs => exec c { s with pending := cs }

/-- The state with the command that a word spells in front of its queue; no word of the table's
numbering spells one. -/
def State.withFetchWord (s : State) (nbits w : Nat) : State :=
  match decodeTableWord nbits w with
  | some c => { s with pending := c :: s.pending }
  | none => s

end Sys2Proof.Machine
end

