-- ==== Sys2Proof/Safety.lean ====
section
/-!
DEFINITION. What the claims call safe: the reachable shape of the state, and what must hold
between two states that one step joins.
-/
namespace Sys2Proof.Machine

/-- The fuse array is in its canonical form: word numbers rise and no listed word is unblown. -/
def State.fuseWf (s : State) : Bool := Tbl.wf (fun _ => 0#32) s.fuse

/-- A blown fuse bit stays blown from `s` to `t` (R636, R638). -/
def State.fuseGrows (s t : State) : Prop := ∀ i, fuseBlown s.fuse i = true → fuseBlown t.fuse i = true

/-- Memory lists no address twice, in rising order, and no byte that reads as unlisted. -/
def State.memoryWf (s : State) : Bool := memWf s.eng.mem

/-- The register table has the same form. -/
def State.regsWf (s : State) : Bool := Tbl.wf resetWord s.eng.regs

/-- The engine outside the always-on domain is powered and out of reset (R608, R612, R617). -/
def State.awake (s : State) : Bool := s.eng.live

/-- Core `i.core` executes the instruction `i` announces: the engine is awake, the core holds a
running task (the control core always), is powered, neither halted nor stepped by debug, and waits
for nothing; its PC lies in its fetch spaces; the word is a legal encoding; an EXT prefix waits only
where the instruction accepts one; the predicate holds; the mode is at least `mode`; and the core is
in no locked sequence, or in one that allows the instruction and has not used up its 16 (R162, R163,
R177, R185, R195, R196, R222). -/
def Engine.runs (e : Engine) (i : Issue) (mode : Nat) (acceptsExt lockable : Bool) : Bool :=
  let x := e.ctxOf i.core
  e.live && e.issuing i.core && !(e.coreOf i.core).step && e.fetchable i.core x.pc && !i.bad
    && (x.ext.isNone || acceptsExt) && x.executes i && decide (mode ≤ x.mode)
    && (!x.lk || (lockable && decide (x.lockN < 16)))

/-- The running context of core `c`. -/
def State.ctx (s : State) (c : Nat) : CoreCtx := s.eng.ctxOf c

/-- The state with the running context of core `c` made `x` and nothing else changed. -/
def State.withCtx (s : State) (c : Nat) (x : CoreCtx) : State := { s with eng := s.eng.setCtx c x }

/-- The context with `r` in register `rd` (discarded when that is G0), Z and N of `r` when `zn`
says so, and the other flags as given. -/
def CoreCtx.result (x : CoreCtx) (rd : Nat) (r : Word) (zn c v sat : Bool) : CoreCtx :=
  { x with g := if rd = 0 then x.g else Tbl.set 0#32 x.g rd r
           z := if zn then decide (r = 0#32) else x.z, n := if zn then r.getLsbD 31 else x.n
           c := c, v := v, sat := sat }

/-- The state with `f` applied to the engine: queue and fuses unchanged. -/
def State.on (s : State) (f : Engine → Engine) : State := { s with eng := f s.eng }

/-- The outcome of a command that does `f` to the engine and nothing else. -/
def State.does (s : State) (f : Engine → Engine) : Out := .next (s.on f)

/-- The commands of the always-on domain and of the test port, which act while the rest of the
engine has no power or is held in reset (R608, R612, R617, R646). -/
def alwaysOn : Instr → Bool
  | .powerOnReset _ | .resetNReset _ _ | .supplyReset _ | .wakePinRequest _ | .dormantWake | .wdtEarly | .wdtExpiry
  | .watchdogReset | .twbDormantMatch _ | .extest _ | .samplePreload _ _ | .idcode | .clamp | .highz | .bypass
  | .wakereq | .dpacc _ _ _ | .testLogicReset => true
  | _ => false

/-- The commands that end a blow of fuses. -/
def blowsFuses : Instr → Bool
  | .progDone | .retireEraseDone => true
  | _ => false

end Sys2Proof.Machine
end

