-- ==== Sys2Proof/Certificates/Slice0/Obligations.lean ====
section
/-!
DEFINITION. The statements about the model: each says what the manual's rules say of the
commands it names. `Engine.runs`, `State.withCtx` and the other terms stand in Safety.lean.
-/
open Sys2Proof Sys2Proof.Machine

/-- ADD, SUB, ADDS, SUBS, AND, OR, XOR, ANDN: result, flags and frame (R199, R200, R204). SHL, SHR, SRA, MIN, MAX, MINU, MAXU, PEAK: result, flags and
frame (R199, R200, R204, R205). MOV, NEG, NOT, ABS, CLZ, CLS for every operand; LOG2, EXP2 and EXP2G at values the rules fix (R201, R204, R207, R208).
-/
def Obligations.RegisterForms : Prop :=
  (∀ (s : State) (i : Issue) (rd ra rb : Nat), s.eng.runs i 0 false true = true →
    let x := s.ctx i.core
    let a := x.rdG ra
    let b := x.rdG rb
    let carry := decide (2 ^ 32 ≤ a.toNat + b.toNat)
    let noBorrow := decide (b.toNat ≤ a.toNat)
    let sum := a.toInt + b.toInt
    let dif := a.toInt - b.toInt
    let ovs := decide (sum < -2147483648 ∨ 2147483647 < sum)
    let ovd := decide (dif < -2147483648 ∨ 2147483647 < dif)
    let held (v : Int) : Word := if v < -2147483648 then 0x80000000#32 else if 2147483647 < v then 0x7FFFFFFF#32 else BitVec.ofInt 32 v
    let done (y : CoreCtx) : Out := .next (s.withCtx i.core y.advance)
    exec (.add i rd ra rb) s = done (x.result rd (a + b) true carry ovs x.sat) ∧
    exec (.sub i rd ra rb) s = done (x.result rd (a - b) true noBorrow ovd x.sat) ∧
    exec (.adds i rd ra rb) s = done (x.result rd (held sum) true carry ovs (x.sat || ovs)) ∧
    exec (.subs i rd ra rb) s = done (x.result rd (held dif) true noBorrow ovd (x.sat || ovd)) ∧
    exec (.and i rd ra rb) s = done (x.result rd (a &&& b) true x.c x.v x.sat) ∧
    exec (.or i rd ra rb) s = done (x.result rd (a ||| b) true x.c x.v x.sat) ∧
    exec (.xor i rd ra rb) s = done (x.result rd (a ^^^ b) true x.c x.v x.sat) ∧
    exec (.andn i rd ra rb) s = done (x.result rd (a &&& ~~~ b) true x.c x.v x.sat)) ∧
  (∀ (s : State) (i : Issue) (rd ra rb : Nat), s.eng.runs i 0 false true = true →
    let x := s.ctx i.core
    let a := x.rdG ra
    let b := x.rdG rb
    let k := b.toNat % 64
    let sign := a.getLsbD 31
    let mag := if b = 0x80000000#32 then 0x7FFFFFFF#32 else if b.getLsbD 31 then -b else b
    let done (y : CoreCtx) : Out := .next (s.withCtx i.core y.advance)
    exec (.shl i rd ra rb) s = done (x.result rd (if k < 32 then a <<< k else 0#32) true
      (if k = 0 then x.c else if k < 32 then a.getLsbD (32 - k) else false) x.v x.sat) ∧
    exec (.shr i rd ra rb) s = done (x.result rd (if k < 32 then a >>> k else 0#32) true
      (if k = 0 then x.c else if k < 32 then a.getLsbD (k - 1) else false) x.v x.sat) ∧
    exec (.sra i rd ra rb) s = done (x.result rd (if k < 32 then a.sshiftRight k else if sign then 0xFFFFFFFF#32 else 0#32) true
      (if k = 0 then x.c else if k < 32 then a.getLsbD (k - 1) else sign) x.v x.sat) ∧
    exec (.min i rd ra rb) s = done (x.result rd (if a.toInt ≤ b.toInt then a else b) false x.c x.v x.sat) ∧
    exec (.max i rd ra rb) s = done (x.result rd (if a.toInt < b.toInt then b else a) false x.c x.v x.sat) ∧
    exec (.minu i rd ra rb) s = done (x.result rd (if a.toNat ≤ b.toNat then a else b) false x.c x.v x.sat) ∧
    exec (.maxu i rd ra rb) s = done (x.result rd (if a.toNat < b.toNat then b else a) false x.c x.v x.sat) ∧
    exec (.peak i rd ra rb) s = done (x.result rd (if a.toNat < mag.toNat then mag else a) false x.c x.v x.sat)) ∧
  (∀ (s : State) (i : Issue) (rd ra : Nat), s.eng.runs i 0 false true = true →
    let x := s.ctx i.core
    let a := x.rdG ra
    let least := decide (a = 0x80000000#32)
    let done (y : CoreCtx) : Out := .next (s.withCtx i.core y.advance)
    let plain (v : Word) : Out := done (x.result rd v false x.c x.v x.sat)
    exec (.mov i rd ra) s = plain a ∧
    exec (.neg i rd ra) s = done (x.result rd (-a) true (decide (a = 0#32)) least x.sat) ∧
    exec (.not i rd ra) s = done (x.result rd (~~~ a) true x.c x.v x.sat) ∧
    exec (.abs i rd ra) s = done (x.result rd (if least then 0x7FFFFFFF#32 else if a.getLsbD 31 then -a else a) true x.c least (x.sat || least)) ∧
    (∃ k, exec (.clz i rd ra) s = plain (BitVec.ofNat 32 k) ∧ k ≤ 32 ∧ (∀ j, 32 - k ≤ j → j < 32 → a.getLsbD j = false) ∧ (k < 32 → a.getLsbD (31 - k) = true)) ∧
    (∃ k, exec (.cls i rd ra) s = plain (BitVec.ofNat 32 k) ∧ k ≤ 31 ∧ (∀ j, 31 - k ≤ j → j < 31 → a.getLsbD j = a.getLsbD 31) ∧ (k < 31 → a.getLsbD (30 - k) ≠ a.getLsbD 31)) ∧
    (∃ v, exec (.log2 i rd ra) s = plain v ∧ (a = 0#32 → v = 0x80000000#32) ∧ (a = 0x80000000#32 → v = 0#32)) ∧
    (∃ v f, exec (.exp2 i rd ra) s = done (x.result rd v false x.c x.v (x.sat || f)) ∧ (a = 0xFC000000#32 → v = 0x40000000#32 ∧ f = false) ∧ (a = 0x04000000#32 → v = 0x7FFFFFFF#32 ∧ f = true)) ∧
    (∃ v f, exec (.exp2g i rd ra) s = done (x.result rd v false x.c x.v (x.sat || f)) ∧ (a = 0xFC000000#32 → v = 0x00080000#32 ∧ f = false) ∧ (a = 0x0C000000#32 → v = 0x007FFFFF#32 ∧ f = true)))

/-- ADDI, ANDI, ORI, XORI, MOVI, SHLI, SHRI, SRAI, CMP, CMPI: result, flags and frame (R197, R202 to R205, R222). DIVS, SQRS, the predicate operations
and PFLAG: result and frame (R206, R244). -/
def Obligations.ImmediateStepAndPredicateForms : Prop :=
  (∀ (s : State) (i : Issue) (rd ra rb imm : Nat), s.eng.runs i 0 true true = true → imm < 4096 →
    let x := s.ctx i.core
    let a := x.rdG ra
    let b := x.rdG rb
    let immS : Word := match x.ext with
      | some (hi, _) => BitVec.ofNat 32 (hi % 2 ^ 20 * 4096 + imm)
      | none => if imm < 2048 then BitVec.ofNat 32 imm else BitVec.ofInt 32 ((imm : Int) - 4096)
    let immZ : Word := match x.ext with
      | some (hi, _) => BitVec.ofNat 32 (hi % 2 ^ 20 * 4096 + imm)
      | none => BitVec.ofNat 32 imm
    let sum := a.toInt + immS.toInt
    let past := decide (sum < -2147483648 ∨ 2147483647 < sum)
    let holds (cond : Nat) (a b : Word) : Bool := match cond with
      | 0 => decide (a = b) | 1 => decide (a ≠ b) | 2 => decide (a.toInt < b.toInt)
      | 3 => decide (b.toInt ≤ a.toInt) | 4 => decide (a.toNat < b.toNat) | 5 => decide (b.toNat ≤ a.toNat)
      | 6 => decide (a.toInt ≤ b.toInt) | _ => decide (b.toInt < a.toInt)
    let compared (qd : Nat) (v : Bool) : CoreCtx := if qd = 0 then x else { x with q := Tbl.set false x.q qd v }
    let done (y : CoreCtx) : Out := .next (s.withCtx i.core y.advance)
    exec (.addi i rd ra imm) s = done (x.result rd (a + immS) true (decide (2 ^ 32 ≤ a.toNat + immS.toNat)) past x.sat) ∧
    exec (.andi i rd ra imm) s = done (x.result rd (a &&& immZ) true x.c x.v x.sat) ∧
    exec (.ori i rd ra imm) s = done (x.result rd (a ||| immZ) true x.c x.v x.sat) ∧
    exec (.xori i rd ra imm) s = done (x.result rd (a ^^^ immZ) true x.c x.v x.sat) ∧
    exec (.movi i rd imm) s = done (x.result rd immS false x.c x.v x.sat) ∧
    (∀ qd cond, exec (.cmpi i qd cond ra imm) s = done (compared qd (holds cond a immS))) ∧
    (x.ext = none →
      (∀ qd cond, exec (.cmp i qd cond ra rb) s = done (compared qd (holds cond a b))) ∧
      ∀ k, k < 32 →
        exec (.shli i rd ra k) s = done (x.result rd (a <<< k) true (if k = 0 then x.c else a.getLsbD (32 - k)) x.v x.sat) ∧
        exec (.shri i rd ra k) s = done (x.result rd (a >>> k) true (if k = 0 then x.c else a.getLsbD (k - 1)) x.v x.sat) ∧
        exec (.srai i rd ra k) s = done (x.result rd (a.sshiftRight k) true (if k = 0 then x.c else a.getLsbD (k - 1)) x.v x.sat))) ∧
  (∀ (s : State) (i : Issue), s.eng.runs i 0 false true = true →
    let x := s.ctx i.core
    let done (y : CoreCtx) : Out := .next (s.withCtx i.core y.advance)
    let toQ (qd : Nat) (v : Bool) : CoreCtx := if qd = 0 then x else { x with q := Tbl.set false x.q qd v }
    (∀ rd rb, rd % 2 = 0 → rd ≠ 0 →
      let t := 2 * (x.rdG rd).toNat + (x.rdG (rd + 1)).toNat / 2 ^ 31
      let d := (x.rdG rb).toNat
      let quo := 2 * (x.rdG (rd + 1)).toNat + (if d ≤ t then 1 else 0)
      let rem := if d ≤ t then t - d else t
      exec (.divs i rd rb) s = done ((x.wrG rd (BitVec.ofNat 32 rem)).wrG (rd + 1) (BitVec.ofNat 32 quo))) ∧
    (∀ rd, rd % 4 = 0 → rd ≠ 0 →
      let rem := 4 * (x.rdG rd).toNat % 2 ^ 32 + (x.rdG (rd + 2)).toNat / 2 ^ 30
      let trial := 4 * (x.rdG (rd + 1)).toNat % 2 ^ 32 + 1
      let root := 2 * (x.rdG (rd + 1)).toNat + (if trial ≤ rem then 1 else 0)
      exec (.sqrs i rd) s = done (((x.wrG rd (BitVec.ofNat 32 (if trial ≤ rem then rem - trial else rem))).wrG
        (rd + 1) (BitVec.ofNat 32 root)).wrG (rd + 2) (BitVec.ofNat 32 (4 * (x.rdG (rd + 2)).toNat)))) ∧
    (∀ qd qa qb ia ib,
      let p := x.rdQ qa != ia
      let q := x.rdQ qb != ib
      exec (.predAnd i qd qa ia qb ib) s = done (toQ qd (p && q)) ∧
      exec (.predOr i qd qa ia qb ib) s = done (toQ qd (p || q)) ∧
      exec (.predXor i qd qa ia qb ib) s = done (toQ qd (p != q))) ∧
    (∀ qd fc, fc < 10 →
      let f := if fc < 2 then x.z else if fc < 4 then x.n else if fc < 6 then x.c else if fc < 8 then x.v else x.sat
      exec (.pflag i qd fc) s = done (toQ qd (if fc % 2 = 0 then f else !f))))

/-- The accumulator family: values, saturation, SAT and frame (R157, R158, R209 to R212, R215, R218). -/
def Obligations.MultiplyAccumulate : Prop :=
  ∀ (s : State) (i : Issue) (fmt an am ga gb : Nat) (clr sub : Bool),
    s.eng.runs i 0 false true = true → i.core ≠ 16 → fmt < 5 →
    let x := s.ctx i.core
    let done (y : CoreCtx) : Out := .next (s.withCtx i.core y.advance)
    let align : Int := if fmt = 0 then 2 else if fmt = 1 then 4 else if fmt = 2 then 4096 else if fmt = 3 then 8 else 1
    let second (w : Word) : Int :=
      if fmt = 2 then (if w.toNat % 2 ^ 24 < 2 ^ 23 then ((w.toNat % 2 ^ 24 : Nat) : Int) else (w.toNat % 2 ^ 24 : Nat) - 2 ^ 24)
      else w.toInt
    let prod (k : Nat) (neg : Bool) : Int := (if neg then -1 else 1) * ((x.rdG (ga + k)).toInt * second (x.rdG (gb + k)) * align)
    let held (v : Int) : Int := max (-(2 ^ 71)) (min (2 ^ 71 - 1) v)
    let past (v : Int) : Bool := decide (v < -(2 ^ 71) ∨ 2 ^ 71 - 1 < v)
    let into (y : CoreCtx) (n : Nat) (v : Int) : CoreCtx :=
      { y with acc := Tbl.set 0 y.acc n (held v), sat := y.sat || past v }
    let old (n : Nat) : Int := if clr then 0 else x.rdA n
    exec (.mac i fmt an ga gb clr) s = done (into x an (old an + prod 0 false)) ∧
    exec (.msu i fmt an ga gb clr) s = done (into x an (old an + prod 0 true)) ∧
    (ga % 2 = 0 → gb % 2 = 0 →
      exec (.dot2 i fmt an ga gb sub clr) s = done (into x an (old an + (prod 0 sub + prod 1 sub))) ∧
      (an % 2 = 0 → exec (.macp i fmt an ga gb sub clr) s =
        done (into (into x an (old an + prod 0 sub)) (an + 1) (old (an + 1) + prod 1 sub)))) ∧
    exec (.aclr i an) s = done (into x an 0) ∧
    exec (.amov i an am) s = done (into x an (x.rdA am)) ∧
    exec (.ald i an ga) s = done (into x an ((x.rdG ga).toInt * 2 ^ 32)) ∧
    exec (.aadd i an am) s = done (into x an (x.rdA an + x.rdA am)) ∧
    exec (.asub i an am) s = done (into x an (x.rdA an - x.rdA am)) ∧
    exec (.aneg i an) s = done (into x an (-(x.rdA an))) ∧
    (∀ k, k < 16 →
      exec (.ashl i an k) s = done (into x an (x.rdA an * 2 ^ k)) ∧
      ∃ q : Int, exec (.asra i an k) s = done (into x an q) ∧ q * 2 ^ k ≤ x.rdA an ∧ x.rdA an < (q + 1) * 2 ^ k) ∧
    (∀ gd rm sm, rm < 3 → sm < 3 → ∀ d : Nat, 1 ≤ d → d ≤ 64 →
      let trunc := decide (rm = 2 ∨ (rm = 0 ∧ x.rmode = true))
      let clip := decide (sm = 1 ∨ (sm = 0 ∧ x.saten = true))
      ∃ r : Int,
        (if trunc then r * 2 ^ d ≤ x.rdA an ∧ x.rdA an < (r + 1) * 2 ^ d
          else (2 * r - 1) * 2 ^ d ≤ 2 * x.rdA an ∧ 2 * x.rdA an < (2 * r + 1) * 2 ^ d) ∧
        exec (.rda i gd an ((32 + 64 - d) % 64) rm sm) s =
          done ({ x with sat := x.sat || (clip && decide (r < -2147483648 ∨ 2147483647 < r)) }.wrG gd
            (if clip ∧ r < -2147483648 then 0x80000000#32 else if clip ∧ 2147483647 < r then 0x7FFFFFFF#32 else BitVec.ofInt 32 r)))

/-- LDW, LDD and LD2 from memory that answers at once (R160, R225 to R228). `Engine.access` is the check the meaning makes (R161, R162, R177, R318);
the core's own stores still under way do not cover the words. STW, STD and STA to memory that takes the store at once (R160, R219, R225, R226). -/
def Obligations.LocalLoadsAndStores : Prop :=
  (∀ (s : State) (i : Issue),
    let c := i.core
    let x := s.ctx c
    let free (pa n : Nat) : Prop := ∀ p ∈ (s.eng.coreOf c).posted, p.host = true ∨ pa + 4 * n ≤ p.pa ∨ p.pa + 4 * p.ws.length ≤ pa
    (∀ g ad pa, s.eng.runs i 0 (lsExt ad) true = true →
      s.eng.access c (x.lsAddr ad) 1 false false = (.go (.mem pa), s.eng) → free pa 1 →
      exec (.ldw i g ad) s = .next (s.withCtx c (CoreCtx.putPtrs (x.lsPtr ad) (x.wrG g (s.eng.ldW pa))).advance)) ∧
    (∀ g ad pa, s.eng.runs i 0 (lsExt ad) true = true → g % 2 = 0 →
      s.eng.access c (x.lsAddr ad) 2 false false = (.go (.mem pa), s.eng) → free pa 2 →
      exec (.ldd i g ad) s = .next (s.withCtx c
        (CoreCtx.putPtrs (x.lsPtr ad) ((x.wrG g (s.eng.ldW pa)).wrG (g + 1) (s.eng.ldW (pa + 4)))).advance)) ∧
    (∀ gd ge pn pmn pm pmm pa pb, s.eng.runs i 0 false true = true → gd ≠ ge → (pn = pm → pmn = false ∧ pmm = false) →
      s.eng.access c (x.rdP pn).toNat 1 false false = (.go (.mem pa), s.eng) → free pa 1 →
      s.eng.access c (x.rdP pm).toNat 1 false false = (.go (.mem pb), s.eng) → free pb 1 →
      exec (.ld2 i gd ge pn pmn pm pmm false) s = .next (s.withCtx c
        (CoreCtx.putPtrs (x.lsPtr (.ptr pn pmn) ++ x.lsPtr (.ptr pm pmm))
          ((x.wrG gd (s.eng.ldW pa)).wrG ge (s.eng.ldW pb))).advance)) ∧
    (∀ gd ge pn pmn pm pmm pa pb, s.eng.runs i 0 false true = true → gd ≠ ge → gd % 2 = 0 → ge % 2 = 0 →
      (pn = pm → pmn = false ∧ pmm = false) →
      s.eng.access c (x.rdP pn).toNat 2 false false = (.go (.mem pa), s.eng) → free pa 2 →
      s.eng.access c (x.rdP pm).toNat 2 false false = (.go (.mem pb), s.eng) → free pb 2 →
      exec (.ld2 i gd ge pn pmn pm pmm true) s = .next (s.withCtx c
        (CoreCtx.putPtrs (x.lsPtr (.ptr pn pmn) ++ x.lsPtr (.ptr pm pmm))
          ((((x.wrG gd (s.eng.ldW pa)).wrG (gd + 1) (s.eng.ldW (pa + 4))).wrG ge (s.eng.ldW pb)).wrG (ge + 1)
            (s.eng.ldW (pb + 4)))).advance))) ∧
  (∀ (s : State) (i : Issue),
    let c := i.core
    let x := s.ctx c
    let stored (t : State) (pa : Nat) (ws : List Word) (y : CoreCtx) : Prop :=
      t.ctx c = y.advance ∧ t.eng.ldWs pa ws.length = ws ∧
      (∀ a, a < pa ∨ pa + 4 * ws.length ≤ a → t.eng.ldB a = s.eng.ldB a) ∧
      t.eng.regs = s.eng.regs ∧ t.pending = s.pending ∧ t.fuse = s.fuse
    (c ≠ 16 ∨ (s.eng.forwarding = false ∧ s.eng.isStandby = false)) →
    (∀ g ad pa, s.eng.runs i 0 (lsExt ad) true = true →
      s.eng.access c (x.lsAddr ad) 1 true false = (.go (.mem pa), s.eng) →
      ∃ t, exec (.stw i g ad) s = .next t ∧ stored t pa [x.rdG g] (CoreCtx.putPtrs (x.lsPtr ad) x)) ∧
    (∀ g ad pa, s.eng.runs i 0 (lsExt ad) true = true → g % 2 = 0 →
      s.eng.access c (x.lsAddr ad) 2 true false = (.go (.mem pa), s.eng) →
      ∃ t, exec (.std i g ad) s = .next t ∧ stored t pa [x.rdG g, x.rdG (g + 1)] (CoreCtx.putPtrs (x.lsPtr ad) x)) ∧
    (∀ an pn pm sh rm sm pa, s.eng.runs i 0 false true = true → c ≠ 16 → rm < 3 → sm < 3 →
      s.eng.access c (x.rdP pn).toNat 1 true false = (.go (.mem pa), s.eng) →
      let r := x.narrowed an sh rm sm
      ∃ t, exec (.sta i an pn pm sh rm sm) s = .next t ∧
        stored t pa [r.1] { CoreCtx.putPtrs (x.lsPtr (.ptr pn pm)) x with sat := x.sat || r.2 }))

/-- The checks of an access of an Anvil core, in their order (R161, R162, R177, R233, R318, R420, R658). -/
def Obligations.AccessChecks : Prop :=
  ∀ (e : Engine) (c va n : Nat) (write atomic : Bool), c < 16 →
    (va % (4 * n) ≠ 0 → e.access c va n write atomic = (.fault 0x05 0 0, e)) ∧
    (va % (4 * n) = 0 → va < 0x40000 →
      (atomic = true → e.access c va n write atomic = (.fault 0x06 0 0, e)) ∧
      (atomic = false → (write = true → e.paramArmed (localAddr c va) = false) →
        e.access c va n write atomic =
          (if e.watched c va write then .fault 0x0D 0 0 else .go (.mem (0x60000000 + c * 0x100000 + va)), e))) ∧
    (va % (4 * n) = 0 → 0x40000 ≤ va →
      (e.window (e.coreTenant c) va = none → e.access c va n write atomic = (.fault 0x07 kNowin 0, e)) ∧
      (∀ w, e.window (e.coreTenant c) va = some w → (if write then w.w else w.r) = false →
        e.access c va n write atomic = (.fault 0x07 kRights 0, e)))

/-- LDL, STC, REMOTE_LOAD_COMPLETE and STORE_ACCEPTED (R170, R187, R228, R231, R232). -/
def Obligations.RemoteLoadsAndAtomics : Prop :=
  ∀ (s : State) (i : Issue) (gd gs ga pa : Nat) (ready : Bool),
    let c := i.core
    let x := s.ctx c
    let va := (x.rdG ga).toNat
    let item : LoadItem := { dst := gd, wide := false, va := va, pa := pa, ldl := true, acc := ready }
    let p : Posted := { pa := pa, ws := [x.rdG gs], acc := ready, stc := true, va := va, hm := s.eng.coreHm c }
    (s.eng.runs i 0 false true = true → s.eng.access c va 1 false true = (.go (.remote pa ready), s.eng) →
      exec (.ldl i gd ga) s = .next { s with eng := s.eng.setWait c (.load [item] []) }) ∧
    (s.eng.live = true → (s.eng.coreOf c).wait = .load [item] [] → (s.eng.coreOf c).posted = [] →
      (s.eng.coreOf c).step = false → ready = true →
      ∃ t, exec (.remoteLoadComplete c 0) s = .next t ∧ t.ctx c = (x.wrG gd (s.eng.ldW pa)).advance ∧
        (t.eng.coreOf c).resv = some (pa / 8 * 8) ∧ (t.eng.coreOf c).wait = .run ∧
        t.eng.mem = s.eng.mem ∧ t.eng.regs = s.eng.regs ∧ t.pending = s.pending) ∧
    (s.eng.runs i 0 false true = true → s.eng.access c va 1 true true = (.go (.remote pa ready), s.eng) →
      ((s.eng.coreOf c).resv ≠ some (pa / 8 * 8) →
        ∃ t, exec (.stc i gd gs ga) s = .next t ∧ t.ctx c = (x.wrG gd 0#32).advance ∧
          (t.eng.coreOf c).resv = none ∧ (t.eng.coreOf c).posted = (s.eng.coreOf c).posted ∧ t.eng.mem = s.eng.mem) ∧
      ((s.eng.coreOf c).resv = some (pa / 8 * 8) →
        ∃ t, exec (.stc i gd gs ga) s = .next t ∧ t.ctx c = x ∧ (t.eng.coreOf c).wait = .stc gd ∧
          (t.eng.coreOf c).resv = none ∧ (t.eng.coreOf c).posted = (s.eng.coreOf c).posted ++ [p] ∧ t.eng.mem = s.eng.mem)) ∧
    (s.eng.live = true → c ≠ 16 → (s.eng.coreOf c).wait = .stc gd → (s.eng.coreOf c).posted = [p] →
      (s.eng.coreOf c).step = false → ready = true →
      ∃ t, exec (.storeAccepted c false) s = .next t ∧ t.ctx c = (x.wrG gd 1#32).advance ∧ t.eng.ldW pa = x.rdG gs ∧
        (∀ a, a < pa ∨ pa + 4 ≤ a → t.eng.ldB a = s.eng.ldB a) ∧ (t.eng.coreOf c).wait = .run ∧
        (t.eng.coreOf c).posted = [])

/-- BQ: An, gx, the state in memory, Pp and frame (R213 to R216). -/
def Obligations.BiquadStep : Prop :=
  ∀ (s : State) (i : Issue) (an gx gc pp : Nat),
    let c := i.core
    let x := s.ctx c
    let p := (x.rdP pp).toNat
    let a := 0x60000000 + c * 0x100000 + p
    s.eng.runs i 0 false true = true → c ≠ 16 → 1 ≤ gc → gc ≤ 27 → p % 8 = 0 → p + 16 ≤ 0x40000 →
    (x.rdL pp = 0 ∨ ((x.rdB pp).toNat ≤ p ∧ p + 16 ≤ (x.rdB pp).toNat + 4 * x.rdL pp)) → s.eng.bqCheck c p = none →
    let st (k : Nat) : Int := (s.eng.ldW (a + 4 * k)).toInt
    let g (k : Nat) : Int := (x.rdG (gc + k)).toInt
    let sum := 4 * (g 0 * (x.rdG gx).toInt + g 1 * st 0 + g 2 * st 1 - g 3 * st 2 - g 4 * st 3)
    let av := max (-(2 ^ 71)) (min (2 ^ 71 - 1) sum)
    let r := narrow av 0 x.rmode x.saten
    ∃ t, exec (.bq i an gx gc pp) s = .next t ∧
      (t.ctx c).rdA an = av ∧ (∀ n, n ≠ an → (t.ctx c).rdA n = x.rdA n) ∧
      (gx ≠ 0 → (t.ctx c).rdG gx = r.1) ∧ (∀ n, n ≠ gx → (t.ctx c).rdG n = x.rdG n) ∧
      (t.ctx c).sat = (x.sat || decide (sum ≠ av) || r.2) ∧
      ((t.ctx c).z = x.z ∧ (t.ctx c).n = x.n ∧ (t.ctx c).c = x.c ∧ (t.ctx c).v = x.v) ∧
      (t.ctx c).rdP pp = x.postMod pp 4#32 ∧ (∀ n, n ≠ pp → (t.ctx c).rdP n = x.rdP n) ∧
      t.eng.ldWs a 4 = [x.rdG gx, s.eng.ldW a, r.1, s.eng.ldW (a + 8)] ∧
      (∀ b, b < a ∨ a + 16 ≤ b → t.eng.ldB b = s.eng.ldB b) ∧ t.eng.regs = s.eng.regs

/-- EXT, MTP, MFP, PSTEP, MFS, MTS (R153, R160, R175, R222, R223, R230, R245, R246). Post-modify addressing (R160). -/
def Obligations.PointersAndSpecialRegisters : Prop :=
  (∀ (s : State) (i : Issue) (n g : Nat),
    let x := s.ctx i.core
    let v := x.rdG g
    let done (y : CoreCtx) : Out := .next (s.withCtx i.core y.advance)
    (∀ x20, x20 < 2 ^ 20 → s.eng.runs i 0 false true = true → i.q = 0 → i.inv = false →
      (∀ k, k < x.depth → (Tbl.get 0#32 x.lend k).toNat ≠ x.pc) →
      exec (.ext i x20) s = .next (s.withCtx i.core { x with
        ext := some (x20, x.pc), pc := (x.pc + 4) % 2 ^ 32, lockN := if x.lk then x.lockN + 1 else 0 })) ∧
    (s.eng.runs i 0 false true = true →
      exec (.mtp i .p n g) s = done { x with p := Tbl.set 0#32 x.p n v } ∧
      exec (.mtp i .b n g) s = done { x with b := Tbl.set 0#32 x.b n v } ∧
      exec (.mtp i .l n g) s = done { x with l := Tbl.set 0 x.l n (v.toNat % 2 ^ 20) } ∧
      exec (.mtp i .m n g) s = done { x with m := Tbl.set 0#32 x.m n v } ∧
      exec (.mfp i .p n g) s = done (x.wrG g (x.rdP n)) ∧
      exec (.mfp i .b n g) s = done (x.wrG g (x.rdB n)) ∧
      exec (.mfp i .l n g) s = done (x.wrG g (BitVec.ofNat 32 (x.rdL n))) ∧
      exec (.mfp i .m n g) s = done (x.wrG g (x.rdM n)) ∧
      (∀ sr, sr < 15 → exec (.mfs i g sr) s = done (x.wrG g (s.eng.readSr i.core sr)))) ∧
    (∀ imm, s.eng.runs i 0 true true = true → exec (.pstep i n imm) s = done (x.wrP n (x.postMod n (x.imm true imm)))) ∧
    (∀ sr, sr < 13 → s.eng.runs i (if sr = 2 ∨ 9 ≤ sr then 1 else 0) false true = true →
      (sr = 2 → v.toNat % 4 ≤ x.mode) → exec (.mts i g sr) s = done (x.writeSr sr v))) ∧
  (∀ (x : CoreCtx) (n : Nat) (step : Word),
    let p := (x.rdP n).toNat
    let b := (x.rdB n).toNat
    let l := x.rdL n
    let q := (x.postMod n step).toNat
    (l = 0 → (q : Int) = ((p : Int) + 4 * step.toInt) % 2 ^ 32) ∧
    (0 < l → b + 4 * l ≤ 2 ^ 32 → b ≤ q ∧ q < b + 4 * l ∧ ((4 * l : Nat) : Int) ∣ ((p : Int) + 4 * step.toInt - q)))

/-- BR, BRL, JR, LOOP, LOOPS, LOCK, UNLOCK (R182, R185, R238, R239, R241, R242). Where a core goes on (R182, R183). -/
def Obligations.BranchesLoopsAndLocks : Prop :=
  (∀ (s : State) (i : Issue), 
    let c := i.core
    let x := s.ctx c
    let goes (y : CoreCtx) : Out := .next (s.withCtx c y)
    (s.eng.runs i 0 false false = true →
      (∀ off : Nat, off < 2 ^ 23 →
        let d : Int := if off < 2 ^ 22 then off else (off : Int) - 2 ^ 23
        let target := (((x.pc : Int) + 4 * d) % 2 ^ 32).toNat
        exec (.br i off) s = goes (x.jump target) ∧
        exec (.brl i off) s = goes ((x.wrG 31 (BitVec.ofNat 32 (x.pc + 4))).jump target)) ∧
      (∀ gd ga, exec (.jr i gd ga) s = goes ((x.wrG gd (BitVec.ofNat 32 (x.pc + 4))).jump ((x.rdG ga).toNat / 4 * 4))) ∧
      exec (.lock i) s = goes { x.advance with lk := true, lockN := 0 } ∧
      (∀ n body,
        let cnt := match n with | .reg ga => min (x.rdG ga).toNat 65536 | .imm k => min (k % 4096) 65536
        x.ext = none → 
        (cnt = 0 → exec (.loop i n body) s = goes { x with pc := (x.pc + 4 + 4 * body + 4) % 2 ^ 32 }) ∧
        (0 < cnt → x.depth < 2 → exec (.loop i n body) s = goes { x with
          depth := x.depth + 1, pc := (x.pc + 4) % 2 ^ 32
          lcnt := Tbl.set 0#32 x.lcnt x.depth (BitVec.ofNat 32 cnt)
          lbeg := Tbl.set 0#32 x.lbeg x.depth (BitVec.ofNat 32 (x.pc + 4))
          lend := Tbl.set 0#32 x.lend x.depth (BitVec.ofNat 32 (x.pc + 4 + 4 * body)) })) ∧
      (x.depth < 2 → Tbl.get 0#32 x.lcnt x.depth ≠ 0#32 → (Tbl.get 0#32 x.lbeg x.depth).toNat ≤ (Tbl.get 0#32 x.lend x.depth).toNat →
        ∃ t, exec (.loops i) s = .next t ∧ (t.ctx c).depth = x.depth + 1 ∧ (t.ctx c).pc = (x.pc + 4) % 2 ^ 32 ∧
          (∀ k, Tbl.get 0#32 (t.ctx c).lcnt k = Tbl.get 0#32 x.lcnt k ∧ Tbl.get 0#32 (t.ctx c).lbeg k = Tbl.get 0#32 x.lbeg k ∧
            Tbl.get 0#32 (t.ctx c).lend k = Tbl.get 0#32 x.lend k) ∧ (t.ctx c).g = x.g ∧ t.eng.mem = s.eng.mem ∧ t.eng.regs = s.eng.regs)) ∧
    (s.eng.runs i 0 false true = true → (s.eng.coreOf c).deferred = none →
      exec (.unlock i) s = goes { x.advance with lk := false, lockN := 0 })) ∧
  (∀ (x : CoreCtx),
    let next := (x.pc + 4) % 2 ^ 32
    let atEnd (k : Nat) : Prop := (Tbl.get 0#32 x.lend k).toNat = x.pc
    let cnt (k : Nat) : Nat := (Tbl.get 0#32 x.lcnt k).toNat
    let y := x.advance
    (x.depth = 0 → y.pc = next ∧ y.depth = 0) ∧
    (∀ k, k < 2 → x.depth = k + 1 → ¬ atEnd k → y.pc = next ∧ y.depth = x.depth ∧ y.lcnt = x.lcnt) ∧
    (∀ k, k < 2 → x.depth = k + 1 → atEnd k → 1 < cnt k →
      y.pc = (Tbl.get 0#32 x.lbeg k).toNat ∧ y.depth = x.depth ∧ (Tbl.get 0#32 y.lcnt k).toNat = cnt k - 1 ∧
      ∀ j, j ≠ k → Tbl.get 0#32 y.lcnt j = Tbl.get 0#32 x.lcnt j) ∧
    (x.depth = 1 → atEnd 0 → cnt 0 ≤ 1 → y.pc = next ∧ y.depth = 0) ∧
    (x.depth = 2 → atEnd 1 → cnt 1 ≤ 1 →
      (¬ atEnd 0 → y.pc = next ∧ y.depth = 1) ∧
      (atEnd 0 → cnt 0 ≤ 1 → y.pc = next ∧ y.depth = 0) ∧
      (atEnd 0 → 1 < cnt 0 → y.pc = (Tbl.get 0#32 x.lbeg 0).toNat ∧ y.depth = 1 ∧ (Tbl.get 0#32 y.lcnt 0).toNat = cnt 0 - 1)) ∧
    (y.g = x.g ∧ y.acc = x.acc ∧ y.p = x.p ∧ y.q = x.q ∧ y.z = x.z ∧ y.n = x.n ∧ y.c = x.c ∧ y.v = x.v ∧ y.sat = x.sat ∧
      y.mode = x.mode ∧ y.lk = x.lk ∧ y.lbeg = x.lbeg ∧ y.lend = x.lend ∧ y.ext = none))

/-- GAP, FENCE, ISYNC, WFT, WFT_WAKE, WAITI, WAITI_WAKE, IESET (R236, R237, R251, R252, R259, R260, R261). TREADY, TCANCEL, TYIELD, TDONE,
TASK_COMPLETE, SPLIT (R236, R250, R254 to R256). -/
def Obligations.WaitingAndTaskInstructions : Prop :=
  (∀ (s : State) (i : Issue),
    let c := i.core
    let x := s.ctx c
    let waits (y : CoreCtx) (w : CoreWait) : Out := .next (s.on fun e => (e.setCtx c y).updCore c fun k => { k with wait := w })
    let goesOn (y : CoreCtx) : Out := .next (s.on fun e => (e.updCore c fun k => { k with wait := .run }).setCtx c y.advance)
    (∀ k, s.eng.runs i 0 false false = true → exec (.gap i k) s = .next (s.withCtx c x.advance)) ∧
    (s.eng.runs i 0 false true = true →
      ((s.eng.coreOf c).posted = [] → exec (.fence i) s = goesOn x) ∧
      ((s.eng.coreOf c).posted ≠ [] → exec (.fence i) s = .next (s.on fun e => e.updCore c fun k => { k with wait := .fence }))) ∧
    (s.eng.runs i 0 false false = true → x.awaited = none →
      (s.eng.stopped = false → exec (.wft i) s = waits { x with awaited := some (s.eng.block + 1) } .wft) ∧
      (s.eng.stopped = true → exec (.wft i) s = waits { x with awaited := some s.eng.block } .wft)) ∧
    (∀ t, s.eng.live = true → (s.eng.coreOf c).step = false → (s.eng.coreOf c).wait = .wft → x.awaited = some t →
      (s.eng.stopped = false → t ≤ s.eng.block → ∃ u, exec (.wftWake c) s = .next u ∧ (u.ctx c) = { x with awaited := none }.advance ∧
        (u.eng.coreOf c).wait = .run ∧ u.eng.mem = s.eng.mem ∧ u.eng.regs = s.eng.regs) ∧
      (s.eng.stopped = true ∨ s.eng.block < t → exec (.wftWake c) s = .next s)) ∧
    (c = 16 → s.eng.runs i 1 false true = true →
      (s.eng.irqPending = false → ∃ u, exec (.waiti i) s = .next u ∧ (u.eng.coreOf c).wait = .waiti ∧ u.ctx c = x ∧
        u.eng.mem = s.eng.mem ∧ u.eng.regs = s.eng.regs) ∧
      ((s.eng.coreOf c).posted = [] → exec (.isync i) s = goesOn x) ∧
      ((s.eng.coreOf c).posted ≠ [] → exec (.isync i) s = .next (s.on fun e => e.updCore c fun k => { k with wait := .isync })) ∧
      (∀ gd b, exec (.ieset i gd b) s = .next (s.withCtx c { x.wrG gd (if x.ie then 1#32 else 0#32) with ie := b }.advance))) ∧
    (s.eng.live = true → (s.eng.coreOf 16).step = false → (s.eng.coreOf 16).wait = .waiti → s.eng.irqPending = true →
      let y := s.ctx 16
      let done1 (e : Engine) : Engine := (e.updCore 16 fun k => { k with wait := .run }).setCtx 16 y.advance
      ((y.ie && !y.te && !y.lk) = false → exec .waitiWake s = .next (s.on done1)) ∧
      ((y.ie && !y.te && !y.lk) = true → exec .waitiWake s = .next (s.on fun e => (done1 e).trap 16 0x10 y.advance.pc)))) ∧
  (∀ (s : State) (i : Issue) (g : Nat),
    let c := i.core
    let x := s.ctx c
    let d := (x.rdG g).toNat % 4096
    let by_ := s.eng.coreSender c
    (s.eng.runs i 0 false true = true → s.eng.schedMay by_ d = true →
      ((s.eng.coreOf c).posted = [] →
        (∀ k, k < 4 → tPending ≤ s.eng.get (dState d) → s.eng.get (dState d) ≤ tPreempted → s.eng.get (dDep d k) ≠ 0 →
          (∀ j, j < k → s.eng.get (dDep d j) = 0) →
          exec (.tready i g) s = .next (s.on fun e =>
            ((e.put (dDep d k) (e.get (dDep d k) - 1)).updCore c fun k => { k with wait := .run }).setCtx c x.advance))) ∧
      ((s.eng.coreOf c).posted ≠ [] → exec (.tready i g) s = .next (s.on fun e => e.updCore c fun k => { k with wait := .tready d })) ∧
      ((s.eng.get (dState d) = tPending ∨ s.eng.get (dState d) = tReady) →
        exec (.tcancel i g) s = .next (s.on fun e => ((e.setCtx c x.advance).endTask d tCancelled rUnrun 0).stepEnd c))) ∧
    (c < 16 → s.eng.runs i 0 false false = true → ∀ r, (s.eng.coreOf c).task = some r →
      ((s.withCtx c x.advance).eng.yieldTo c r = none → exec (.tyield i) s = .next (s.withCtx c x.advance)) ∧
      (∀ n, (s.withCtx c x.advance).eng.yieldTo c r = some n → exec (.tyield i) s = .next (s.on fun e =>
        (((e.setCtx c x.advance).put (dState r) tPreempted).freezeCtx c r).dispatch c n)) ∧
      (∀ st, exec (.tdone i st) s = .next (s.on fun e => e.updCore c fun k => { k with wait := .tdone (st % 256) }))) ∧
    (∀ st r, s.eng.live = true → (s.eng.coreOf c).wait = .tdone st → (s.eng.coreOf c).task = some r → (s.eng.coreOf c).posted = [] →
      (s.eng.desc r).ending ≠ some rMissed →
      exec (.taskComplete c) s = .next (s.on fun e => ((e.endCtx c).endTask r tDone rComplete st).coreNext c)) ∧
    (∀ gd r, c < 16 → s.eng.runs i 0 false true = true → (s.eng.coreOf c).task = some r →
      exec (.split i gd) s = .next (s.withCtx c (x.wrG gd (BitVec.ofNat 32
        (s.eng.splitIndex s.eng.computeBlock (imgSgMask (s.eng.img r)) (s.eng.desc r).gate % 64
          + 2 ^ 16 * s.eng.paramBank (s.eng.coreTenant c) s.eng.computeBlock))).advance)))

/-- Taking a trap (R176 to R179), on a core that is not being debugged. -/
def Obligations.TrapEntry : Prop :=
  ∀ (e : Engine) (c vec pc addr slot : Nat),
    let x := e.ctxOf c
    let k := e.coreOf c
    let shown := e.showTrap c vec slot pc addr
    let entered (mode target : Nat) : Engine :=
      (shown.setCtx c { x with
          trapPsw := x.pswWord, trapPc := BitVec.ofNat 32 pc, trapCause := BitVec.ofNat 32 (vec + 2 ^ 8 * slot)
          trapAddr := BitVec.ofNat 32 addr, te := true, mode := mode, lk := false, lockN := 0, ext := none
          pc := target % 2 ^ 32 }).updCore c fun k => { k with resv := none, wait := .run, deferred := none }
    let base := e.get (CORE_TRAP_VBASE_VBASE c) * 2 ^ 10
    let monBase := e.get CC_MON_VBASE_VBASE * 2 ^ 10
    k.step = false → (∀ t, k.deferred ≠ some (.halt, t)) → c ≤ 16 →
    (c = 16 → x.te = false → x.mode ≠ 2 → vec ≠ 0x0E → e.trap c vec pc addr slot = entered 1 (base + 32 * vec)) ∧
    (c = 16 → x.te = false → (x.mode = 2 ∨ vec = 0x0E) → e.trap c vec pc addr slot = entered 2 (monBase + 32 * vec)) ∧
    (c = 16 → x.te = true → x.mode ≠ 2 → e.trap c vec pc addr slot = entered 2 (monBase + 32 * 0x1F)) ∧
    (c = 16 → x.te = true → x.mode = 2 →
      e.trap c vec pc addr slot = shown.updCore c fun k => { k with halted := true, resv := none }) ∧
    (c ≠ 16 → x.te = false → (e.rd (CORE_TRAP_HANDLE c)).getLsbD vec = true →
      e.trap c vec pc addr slot = entered 1 (base + 32 * vec)) ∧
    (c ≠ 16 → x.te = false → (e.rd (CORE_TRAP_HANDLE c)).getLsbD vec = false → k.task.isSome = true →
      e.trap c vec pc addr slot
        = (shown.coreEvt c 0x01 .fault (vec + 2 ^ 16 * x.task) addr (shown.coreHm c)).taskFaulted c vec) ∧
    (c ≠ 16 → x.te = true →
      e.trap c vec pc addr slot
        = (shown.coreEvt c 0x04 .fault (x.trapCause.toNat % 32) vec (shown.coreHm c)).taskFaulted c 0x1F) ∧
    (shown.rd (CORE_LAST_CAUSE c) = BitVec.ofNat 32 (vec + 2 ^ 8 * slot + 2 ^ 16 * x.task) ∧
      shown.rd (CORE_LAST_PC c) = BitVec.ofNat 32 pc ∧ shown.rd (CORE_LAST_ADDR c) = BitVec.ofNat 32 addr ∧
      ∀ a, a ≠ CORE_LAST_CAUSE c → a ≠ CORE_LAST_PC c → a ≠ CORE_LAST_ADDR c → shown.rd a = e.rd a)

/-- TRAP, BRK, MONCALL, RTE (R175, R177, R180, R247, R248, R259, R260). -/
def Obligations.TrapInstructions : Prop :=
  ∀ (s : State) (i : Issue) (code : Nat),
    let c := i.core
    let x := s.ctx c
    let ends (f : Engine → Engine) : Out := .next (s.on fun e => (f e).stepEnd c)
    (s.eng.runs i 0 false false = true →
      exec (.trap i code) s = ends (fun e => (e.setCtx c x.advance).trap c 0x0B x.advance.pc) ∧
      (s.eng.attached c = false → exec (.brk i) s = ends (fun e => e.trap c 0x0C x.trapAt)) ∧
      (s.eng.attached c = true → exec (.brk i) s = ends (fun e => e.debugHalt c))) ∧
    (s.eng.runs i 1 false true = true →
      (c = 16 → x.mode = 1 → exec (.moncall i code) s = ends (fun e => (e.setCtx c x.advance).trap c 0x0E x.advance.pc)) ∧
      (x.te = true → exec (.rte i) s = .next (s.withCtx c { x with
        mode := min x.mode (x.trapPsw.toNat % 4), te := false, ie := x.trapPsw.getLsbD 3, lk := false, lockN := 0
        depth := x.trapPsw.toNat / 32 % 4, ext := none, pc := x.trapPc.toNat })))

/-- The order of checks (R177, R185, R195, R196, R222, R223). -/
def Obligations.IssueOrder : Prop :=
  ∀ (e : Engine) (i : Issue) (n : Need) (f : Engine → Engine),
    let c := i.core
    let x := e.ctxOf c
    let illegal := i.bad || n.illegal || (x.ext.isSome && !n.ext)
    let locked := x.lk && (n.unlock || decide (16 ≤ x.lockN))
    (e.issuing c = false → e.issue i n f = e) ∧
    (e.issuing c = true → e.fetchable c x.pc = false →
      e.issue i n f = e.trap c 0x02 (match x.ext with | some (_, p) => p | none => x.pc)) ∧
    (e.issuing c = true → e.fetchable c x.pc = true →
      (illegal = true → e.issue i n f = e.trap c 0x00 x.trapAt) ∧
      (illegal = false →
        (x.rdQ i.q = i.inv → e.issue i n f = (e.setCtx c x.advance).stepEnd c) ∧
        (x.rdQ i.q ≠ i.inv →
          (x.mode < n.mode → e.issue i n f = e.trap c 0x01 x.trapAt) ∧
          (n.mode ≤ x.mode → locked = true → e.issue i n f = e.trap c 0x03 x.trapAt) ∧
          (n.mode ≤ x.mode → locked = false → e.issue i n f = (f e).stepEnd c))))

/-- IRQ_ENTRY, PREEMPTION, LOCK_BREAK, CORE_TENANT_WRITE, SCRUB_DONE, CORE_DMA_STARVE. -/
def Obligations.CoreEvents : Prop :=
  ∀ (s : State), s.awake = true →
    let k (c : Nat) := s.eng.coreOf c
    (s.eng.irqPending = true → (k 16).halted = false → (k 16).wait = .run →
      let x := s.ctx 16
      (x.ie = true → x.te = false → x.lk = false → exec .irqEntry s = s.does fun e =>
        (((e.updCore 16 fun k => { k with wait := .run }).updCtx 16 CoreCtx.boundary).trap 16 0x10 x.boundary.pc)) ∧
      (x.ie = true → x.te = false → x.lk = true → (k 16).deferred = none → exec .irqEntry s = s.does fun e =>
        e.updCore 16 fun k => { k with deferred := some (.irq, e.now) }) ∧
      (x.ie = false ∨ x.te = true → exec .irqEntry s = .next s)) ∧
    (∀ c d r, d < 4096 → (k c).task = some r → (k c).wait = .run → s.eng.on SCHED_CTRL_EN = true →
      s.eng.get (dState d) = tReady → imgKind (s.eng.img d) = 0 → s.eng.shedHold (s.eng.img d) = false →
      s.eng.preemptCore d = some c →
      ((s.ctx c).lk = false → exec (.preemption c d) s = s.does fun e =>
        ((e.put (dState r) tPreempted).freezeCtx c r).dispatch c d) ∧
      ((s.ctx c).lk = true → (k c).deferred = none → exec (.preemption c d) s = s.does fun e =>
        e.updCore c fun k => { k with deferred := some (.preempt d, e.now) })) ∧
    (∀ c t, (k c).deferred = some (.irq, t) → (s.ctx c).lk = true →
      (t + 32 ≤ s.eng.now → exec (.lockBreak c) s = s.does fun e =>
        ((((e.updCtx c fun x => { x with lk := false, lockN := 0 }).updCore c fun k => { k with resv := none }).count
          ⟨CORE_LOCK_BREAKS c, 0, 16⟩).coreEvt c 0x03 .note (s.ctx c).pc 1).updCore c fun k => { k with deferred := none }) ∧
      (s.eng.now < t + 32 → exec (.lockBreak c) s = .next s)) ∧
    (∀ by_ c v, s.eng.direct by_ (CORE_TENANT c) = true → by_.isCC = true → c < 16 → v.toNat % 16 ≠ s.eng.coreTenant c →
      (k c).task = none → (k c).pre = [] → (k c).scrub = none →
      exec (.coreTenantWrite by_ c v) s = s.does fun e =>
        ((e.wrCp (CORE_TENANT c) (v &&& 15#32)).clearBytes (localAddr c 0) 0x40000).updCore c fun k =>
          { k with ctx := [], bank := 0, scrub := some (e.now + 8192), resv := none }) ∧
    (∀ c t, (k c).scrub = some t →
      (t ≤ s.eng.now → exec (.scrubDone c) s = s.does fun e =>
        (e.updCore c fun k => { k with scrub := none }).coreEvt c 0x06 .note (e.coreTenant c) 0) ∧
      (s.eng.now < t → exec (.scrubDone c) s = .next s)) ∧
    (∀ c n, ((s.eng.dmaCh n).starved = false → exec (.coreDmaStarve c n) s = s.does fun e =>
        (e.updDmaCh n fun x => { x with starved := true }).coreEvt c 0x02 .warn n 0) ∧
      ((s.eng.dmaCh n).starved = true → exec (.coreDmaStarve c n) s = .next s))

/-- Access types (R8): bit `j` of register `a`, whose row gives masks by access type. REGISTER_WRITE, REGISTER_READ, UNMAPPED_ACCESS (R8, R32, R33,
R188). Rows that write paired state (R518, R520, R672), here in a pair or in quarantine. -/
def Obligations.RegisterAccesses : Prop :=
  (∀ (e : Engine) (a : Nat) (v : Word) (r : RegRow) (i : Nat), rowAt a = some (r, i) →
    let has (t : Acc) (j : Nat) : Bool := (r.mask (· == t)).getLsbD j
    (∀ j, ((e.fieldWrite a v).rd a).getLsbD j =
      if has .w1c j && v.getLsbD j then false
      else if has .rw j then v.getLsbD j else (e.rd a).getLsbD j) ∧
    (∀ b, b ≠ a → (e.fieldWrite a v).rd b = e.rd b) ∧ (e.fieldWrite a v).mem = e.mem ∧
    (∀ j, (e.fieldRead a).1.getLsbD j = ((e.rd a).getLsbD j && !has .wo j)) ∧
    (∀ j, ((e.fieldRead a).2.rd a).getLsbD j = ((e.rd a).getLsbD j && !has .rc j)) ∧
    (∀ b, b ≠ a → (e.fieldRead a).2.rd b = e.rd b)) ∧
  (∀ (s : State) (by_ : Sender), s.awake = true → by_.isCC = true → by_.isDebug = false →
    s.eng.isStandby = false → s.eng.forwarding = false →
    (∀ c k v, c < 16 → k < 0x10000 → let a := localAddr c (4 * k)
      exec (.registerWrite by_ a v) s = s.does (fun e => e.memWrite none a [v]) ∧
      exec (.registerRead by_ a) s = s.does (fun e => { e with rdata := e.ldW a })) ∧
    (∀ v, exec (.registerWrite by_ REF_VIDEO_CFG v) s = s.does (fun e => e.fieldWrite REF_VIDEO_CFG v) ∧
      exec (.registerRead by_ REF_VIDEO_CFG) s
        = s.does fun e => { (e.fieldRead REF_VIDEO_CFG).2 with rdata := (e.fieldRead REF_VIDEO_CFG).1 }) ∧
    (∀ a, 0x61100000 ≤ a → a < 0x80000000 →
      let noted (w : Nat) (e : Engine) : Engine :=
        e.raise { block := 0x00, code := 0x01, sev := .warn, hm := by_.hm, w2 := a, w3 := w }
      exec (.unmappedAccess by_ a false) s = s.does (fun e => { noted 0 e with rdata := 0#32 }) ∧
      exec (.unmappedAccess by_ a true) s = s.does (noted 1))) ∧
  (∀ (s : State) (by_ : Sender) (t n i : Nat) (v : Word) (b : Bool), s.awake = true → t < 16 → n < 80 → i < 2 →
    let e := s.eng
    let rows : List (Instr × Nat × Word) := [(.tickCfgWrite by_ v, TICK_CFG, v), (.tickRunStart by_, TICK_CFG, e.rd TICK_CFG ||| 0x100#32),
      (.taqArm by_ n v, taqAddr n 3, v ||| 0x40#32), (.taqCancel by_ n v, taqAddr n 3, v &&& 0xFFFFFFBF#32), (.coreTenantWrite by_ t v, CORE_TENANT t, v),
      (.schedSubmit by_ n, SCHED_SUBMIT, BitVec.ofNat 32 n), (.schedReady by_ v, SCHED_READY, v), (.schedCancel by_ n, SCHED_CANCEL, BitVec.ofNat 32 n),
      (.schedFree by_ n, SCHED_FREE, BitVec.ofNat 32 n), (.schedRangeCommit by_ t v, SCHED_RANGE t, v), (.ingotHandover by_ n v, INGOT_OWN n, v),
      (.retentionRequest by_ (n / 8) v, INGOT_RET (n / 8), v), (.windowCommit by_ t i v, XLAT_WIN_CTRL t i, v), (.dmaStart by_ (2 * t + i), DMA_CH_CMD t i, 1#32),
      (.dmaResume by_ (2 * t + i), DMA_CH_CMD t i, 2#32), (.dmaAbort by_ (2 * t + i), DMA_CH_CMD t i, 4#32), (.mbxFlush by_ t v, MBX_CTRL t, v),
      (.doorbellRing by_ t v, MBX_DB_RING t, v), (.doorbellWake by_ t, MBX_DB_WAKE t, 1#32), (.patchEntryWrite by_ i n v, patchAddr i n, v),
      (.routeMuteCmd by_ v, ROUTE_MUTE_CMD, v), (.contributionWrite by_ i n (some v) none, conAddr i n 0, v), (.contributionWrite by_ i n none (some v), conAddr i n 1, v),
      (.sumxListWrite by_ i n v, listAddr i n, v), (.chainWrite by_ n i v, chainAddr n i, v), (.coefWrite by_ i n v, coefAddr i n, v), (.eqaClear by_ v, EQA_CLEAR, v),
      (.flowEnable by_ b n, flowAddr b n 14, 1#32), (.flowDisable by_ b n, flowAddr b n 14, 0#32), (.gpioOutWrite by_ v, PWR_GPIO_OUT, v),
      (.clkTgtCommit by_ v, CLK_TGT, v), (.timeIncrCommit by_ v, TIME_INCR, v), (.timeStep by_ v, TIME_ADJ_CTRL, v)]
    ∀ c a w, (c, a, w) ∈ rows →
      (by_.forwards = true → pairedReg a = true → e.isStandby = true → exec c s = s.does fun e =>
        e.raise { block := 0x13, code := 0x0A, sev := .warn, hm := by_.hm, w2 := a, w3 := by_.hm % 2 ^ 32 }) ∧
      (by_.forwards = true → pairedReg a = true → e.isStandby = false → e.forwarding = true → e.frozen a = false →
        exec c s = s.does fun e => e.forward by_ (.write a w)) ∧
      (e.frozen a = true → (by_.forwards = false ∨ pairedReg a = false ∨ e.isStandby = false) → exec c s = s.does fun e =>
        e.raise { block := 0x15, code := 0x05, sev := .warn, hm := by_.hm, w2 := a, w3 := by_.hm }))

/-- CP_EVEN_WRITE, CP_ODD_WRITE, CP_PAIR_TIMEOUT (R10, R11, R667). -/
def Obligations.ComplementPairWrites : Prop :=
  ∀ (s : State) (by_ : Sender) (a : Nat) (v : Word), s.awake = true → a % 8 = 0 → 0x40000000 ≤ a → a < 0x50000000 →
    isPairEven a = true → isPairEven (a + 4) = false → s.eng.pairBars by_ a = false → s.eng.isStandby = false → s.eng.forwarding = false →
    s.eng.frozen a = false →
    let refused (hm reason : Nat) (e : Engine) : Engine := e.writeMismatch (e.pairOwner a) hm a reason
    let hold (p : Option CpPend) (e : Engine) : Engine := { e with cpPend := Tbl.set none e.cpPend a p }
    let odd := exec (.cpOddWrite by_ a v) s
    exec (.cpEvenWrite by_ a v) s = s.does (hold (some { val := v, hm := by_.hm, cyc := s.eng.now })) ∧
    (Tbl.get none s.eng.cpPend a = none → odd = s.does (refused by_.hm 0)) ∧
    (∀ p, Tbl.get none s.eng.cpPend a = some p →
      (p.hm ≠ by_.hm → odd = s.does (refused by_.hm 3)) ∧
      (p.hm = by_.hm → s.eng.now < p.cyc + 64 → v = ~~~ p.val →
        odd = s.does fun e => { hold none e with cpDue := e.cpDue ++ [{ addr := a, val := p.val, by_ := by_ }] }) ∧
      (p.hm = by_.hm → s.eng.now < p.cyc + 64 → v ≠ ~~~ p.val → odd = s.does fun e => refused by_.hm 1 (hold none e)) ∧
      (p.hm = by_.hm → p.cyc + 64 ≤ s.eng.now → odd = s.does fun e => refused by_.hm 2 (hold none e)) ∧
      (p.cyc + 64 ≤ s.eng.now → exec (.cpPairTimeout a) s = s.does fun e => refused p.hm 2 (hold none e)) ∧
      (s.eng.now < p.cyc + 64 → exec (.cpPairTimeout a) s = .next s))

/-- SAMPLE_PERIOD (R24, R27, R28). -/
def Obligations.EngineSampleCount : Prop :=
  ∀ (s : State) (mic : Word), s.awake = true → s.eng.mode ≠ 2 → s.eng.on CLK_STATUS_XFAIL = false →
    (s.eng.stopped = false → s.eng.tick.stopG = none → s.eng.tick.safeStop = false →
      ∃ t, exec (.samplePeriod mic) s = .next t ∧ t.eng.tick = { s.eng.tick with esc := s.eng.tick.esc + 1 } ∧
        t.pending = s.pending ∧ t.fuse = s.fuse) ∧
    (s.eng.stopped = true → s.eng.tick.startReq = false →
      ∃ t, exec (.samplePeriod mic) s = .next t ∧ t.eng.tick = s.eng.tick ∧ t.pending = s.pending ∧ t.fuse = s.fuse)

/-- TICK_CFG_WRITE, TICK_RUN_START, DEFERRED_TICK_START, TICK_STOP_REQUEST, TICK_STOP_HOLD, SYS_ESC_LO_READ. -/
def Obligations.TickControl : Prop :=
  ∀ (s : State) (by_ : Sender), s.awake = true →
    let e := s.eng
    let rejected (w : Nat) (e : Engine) : Engine :=
      e.raise { block := 0x00, code := 0x02, sev := .warn, hm := by_.hm, w2 := w }
    (∀ v : Word, e.direct by_ TICK_CFG = true → let len := v.toNat % 8
      let rate := v.toNat / 16 % 2
      (len = e.get TICK_CFG_LEN → rate = e.get TICK_CFG_RATE → exec (.tickCfgWrite by_ v) s = .next s) ∧
      (¬ (len = e.get TICK_CFG_LEN ∧ rate = e.get TICK_CFG_RATE) → (e.stopped = false ∨ 6 ≤ len) →
        exec (.tickCfgWrite by_ v) s = s.does (rejected v.toNat)) ∧
      (len ≠ e.get TICK_CFG_LEN → rate = e.get TICK_CFG_RATE → e.stopped = true → len < 6 →
        exec (.tickCfgWrite by_ v) s = s.does fun e => ((e.put TICK_CFG_LEN len).put TICK_CFG_RATE rate).timeoutCheck)) ∧
    (e.direct by_ TICK_CFG = true → (e.lc = 3 ∨ e.lc = 7 ∨ e.on ADAPT_STATUS_STOPPED = true) →
      exec (.tickRunStart by_) s = s.does (rejected (e.rd TICK_CFG ||| 0x100#32).toNat)) ∧
    (e.direct by_ TICK_CFG = true → e.lc ≠ 3 → e.lc ≠ 7 → e.on ADAPT_STATUS_STOPPED = false → e.stopped = true → e.on TICK_CFG_RUN = false →
      let ready (e : Engine) : Engine := (e.put TICK_CFG_RUN 1).capacityCheck
      ((ready e).get CLK_STATUS_STATE = 2 →
        exec (.tickRunStart by_) s = s.does fun e => (ready e).updTick fun t => { t with startReq := true }) ∧
      ((ready e).get CLK_STATUS_STATE ≠ 2 →
        exec (.tickRunStart by_) s = s.does fun e => (ready e).updTick fun t => { t with heldRun := true })) ∧
    (e.tick.heldRun = true → e.get CLK_STATUS_STATE = 2 → exec .deferredTickStart s = s.does fun e =>
      e.updTick fun t => { t with heldRun := false, startReq := true }) ∧
    (e.stopped = false → e.tick.stopG = none → exec .tickStopRequest s = s.does fun e =>
      (e.put TICK_CFG_RUN 0).updTick fun t => { t with
        startReq := false, heldRun := false, stopG := some ((t.esc / 32 + 1) * 32) }) ∧
    (let held (g : Nat) (e : Engine) : Engine := ((((((e.putB TICK_CFG_STOPPED true).updTick fun t => { t with
          stopG := none, safeStop := false, startReq := false, started := none, discard := [] }).updCue fun c =>
        { c with play := [] }).taqStop e.tick.esc).safeGuard e.tick.esc).updPwr fun p => { p with rise := 0 }).raise
          { block := 0x00, code := 0x05, sev := .note, w2 := g % 2 ^ 32, w3 := g / 2 ^ 32 };
      (∀ g, e.stopped = false → e.tick.safeStop = false → e.tick.stopG = some g → (g + 2 * e.nSamp + 31) / 32 * 32 ≤ e.tick.esc →
        exec .tickStopHold s = s.does fun e => (held g e).refWatch (held g e).relockHeld) ∧
      (e.stopped = false → e.tick.safeStop = true → e.tick.stopG = none → e.tick.safeHold ≤ e.tick.esc →
        exec .tickStopHold s = s.does fun e => (held e.tick.safeHold e).refWatch (held e.tick.safeHold e).relockHeld)) ∧
    exec (.sysEscLoRead by_) s = s.does fun e =>
      { e.capture SYS_ESC_LO by_.hm [e.tick.esc] with rdata := BitVec.ofNat 32 e.tick.esc }

/-- TICK_START and GUARD_START (R20 to R23, R286, R287). -/
def Obligations.TickAndGuardStart : Prop :=
  ∀ (s : State), s.awake = true →
    let e := s.eng
    let k := e.block
    (e.stopped = true → exec .tickStart s = .next s ∧ exec .guardStart s = .next s) ∧
    (e.stopped = false → e.tick.esc % e.nSamp = 0 → e.tick.started ≠ some k → exec .tickStart s = s.does fun e =>
      let a := (((((e.updTick fun t => { t with started := some k, startCyc := e.now }).updPwr fun p => { p with rise := 0 }).relockStep).timeLatch k).mediaLatch k).taqLatch
      let b := if 1 ≤ k ∧ a.tick.firstBlk ≤ k - 1 then a.computeEnter (k - 1) else a.adaptTick
      (((b.duoTick.resetAnnounce.ringTick).routePrune k).sumxPrune k).safePrune k) ∧
    (e.tick.started = some k → exec .tickStart s = .next s) ∧
    (∀ j, e.stopped = false → e.tick.started = some (j + 1) → e.tick.firstBlk ≤ j → e.tick.guardBlk ≠ some j →
      exec .guardStart s = s.does fun e =>
        let a := ((e.updTick fun t => { t with guardBlk := some j }).takeOutputs j).scatterAll j
        let b := if e.blockKept j then a.schedGuard j else a
        (((b.tapUpdate j).loudBlockIn j).safeGuard j).digestBlock j)

/-- SYS_EVR_CFG_WRITE, EVR_OVERFLOW, SYS_KEY_WRITE, SYS_RESET_WRITE (R39, R40, R44, R45). -/
def Obligations.EventRingAndSysReset : Prop :=
  ∀ (s : State) (by_ : Sender) (v : Word), s.awake = true →
    let e := s.eng
    let l := v.toNat % 32
    let key (k : KeySt) (e : Engine) : Engine := e.updTick fun t => { t with key := k }
    exec (.sysEvrCfgWrite false v) s
      = s.does (fun e => ((e.put SYS_EVR_BASE_ADDR (v.toNat / 4096)).put SYS_EVR_WR_IDX 0).put SYS_EVR_RD_IDX 0) ∧
    ((l = 0 ∨ (6 ≤ l ∧ l ≤ 15)) → exec (.sysEvrCfgWrite true v) s
      = s.does fun e => ((e.put SYS_EVR_LEN_LOG2 l).put SYS_EVR_WR_IDX 0).put SYS_EVR_RD_IDX 0) ∧
    ((1 ≤ l ∧ l ≤ 5) ∨ 15 < l → exec (.sysEvrCfgWrite true v) s = .next s) ∧
    (e.ringSize ≠ 0 → e.tick.evrLost ≠ 0 → e.ringFull = false → e.ringOwned = true →
      exec .evrOverflow s = s.does fun e => (e.ringPut { block := 0x00, code := 0x03, sev := .warn, w2 := e.tick.evrLost, esc := e.tick.esc % 2 ^ 32 }).updTick fun t => { t with evrLost := 0 }) ∧
    ((e.ringFull = true ∨ e.ringOwned = false) → exec .evrOverflow s = .next s) ∧
    (v = 0xC0DE#32 → exec (.sysKeyWrite by_ v) s = s.does (key { hm := by_.hm, step := 1, cyc := e.now })) ∧
    (v = 0x3F21#32 → e.tick.key.step = 1 → e.tick.key.hm = by_.hm →
      exec (.sysKeyWrite by_ v) s = s.does (key { hm := by_.hm, step := 2, cyc := e.now })) ∧
    (v ≠ 0xC0DE#32 → (v ≠ 0x3F21#32 ∨ e.tick.key.step ≠ 1 ∨ e.tick.key.hm ≠ by_.hm) →
      exec (.sysKeyWrite by_ v) s = s.does (key {})) ∧
    (let keyed := e.tick.key.step = 2 ∧ e.tick.key.hm = by_.hm ∧ e.tick.key.cyc ≤ e.now ∧ e.now < e.tick.key.cyc + 64;
      (keyed → e.lockstep = false → v.getLsbD 0 = true →
        exec (.sysResetWrite by_ v) s = s.does fun e => { key {} e with resetReq := some 4 }) ∧
      (keyed → v.getLsbD 0 = false → exec (.sysResetWrite by_ v) s = s.does (key {})) ∧
      (¬ keyed → exec (.sysResetWrite by_ v) s = s.does fun e =>
        e.raise { block := 0x00, code := 0x06, sev := .warn, hm := by_.hm, w2 := SYS_RESET }))

/-- CLK_TGT_COMMIT, SMALL_STEP_APPLY, PLL_LOCK_DECLARED, RELOCK_TIMEOUT, RELOCK_DONE, LOCK_LOST, LOCK_REGAINED, LOCK_LOSS_TIMEOUT. -/
def Obligations.ClockTargets : Prop :=
  ∀ (s : State) (by_ : Sender), s.awake = true →
    let e := s.eng
    let state := e.get CLK_STATUS_STATE
    let watch (f : Engine → Engine) : Out := s.does fun e => e.refWatch (f e)
    let note (code : Nat) (sev : Sev) (hm w : Nat) (e : Engine) : Engine :=
      e.raise { block := 0x01, code := code, sev := sev, hm := hm, w2 := w }
    let small (w : Nat) : Prop := max w e.clkWord - min w e.clkWord ≤ 16492674416 ∧
      e.clk.bandLo * 2 ^ 40 ≤ w * 1024 ∧ w * 1024 < e.clk.bandHi * 2 ^ 40
    let apply (w : Nat) (e : Engine) : Engine :=
      ((e.setClkWord w).putB CLK_STATUS_NOBAND false).updClk fun c => { c with lastApply := some e.now }
    let unheld (e : Engine) : Engine := (e.putB CLK_STATUS_STEP_PEND false).updClk fun c => { c with held := none, heldHm := 0xFF }
    (∀ v : Word,
      let t (e : Engine) := e.wrCp CLK_TGT (v &&& 0x7FFF#32)
      let w := v.toNat % 2 ^ 15 * 2 ^ 32 + e.get CLK_TGT_LO_FRAC
      let inReach := 100 * 2 ^ 40 - 131941395333 ≤ w ∧ w ≤ 100 * 2 ^ 40 + 131941395333
      (e.direct by_ CLK_TGT = true → e.cpOn CLK_SEL_REFDRV = true → exec (.clkTgtCommit by_ v) s = watch fun e => note 0x09 .warn by_.hm v.toNat e) ∧
      (e.direct by_ CLK_TGT = true → e.cpOn CLK_SEL_REFDRV = false →
        (¬ inReach → exec (.clkTgtCommit by_ v) s = watch fun e => note 0x0A .warn by_.hm v.toNat e) ∧
        (inReach → state = 0 → exec (.clkTgtCommit by_ v) s
          = watch fun e => ((unheld (t e)).setClkWord w).putB CLK_STATUS_NOBAND false) ∧
        (inReach → (state ≠ 0 ∧ state ≠ 2) ∨ (state = 2 ∧ e.stepHeld = true) → exec (.clkTgtCommit by_ v) s
          = watch fun e => ((t e).putB CLK_STATUS_STEP_PEND true).updClk fun c => { c with held := some w, heldHm := by_.hm }) ∧
        (inReach → state = 2 → e.stepHeld = false → small w → exec (.clkTgtCommit by_ v) s = watch fun e => apply w (t e)) ∧
        (inReach → state = 2 → e.stepHeld = false → ¬ small w → e.lockstep = false →
          (∀ n, (t e).bandFor w [] = some n → exec (.clkTgtCommit by_ v) s = watch fun e => (t e).relockStart by_.hm w n) ∧
          ((t e).bandFor w [] = none → exec (.clkTgtCommit by_ v) s
            = watch fun e => note 0x03 .warn by_.hm (w * 1024 / 2 ^ 40) ((t e).putB CLK_STATUS_NOBAND true))))) ∧
    (∀ w, e.clk.held = some w → state = 2 → e.stepHeld = false → small w → exec .smallStepApply s
      = watch fun e => apply w (unheld e)) ∧
    (state = 1 → exec .pllLockDeclared s = watch fun e => ((e.put CLK_STATUS_STATE 2).putB CLK_STATUS_LOCK true).clkHeldApply) ∧
    (∀ r, state = 4 → e.clk.relock = some r → r.stopped = false → exec .pllLockDeclared s
      = watch fun e => ((e.putB CLK_STATUS_LOCK true).put CLK_STATUS_STATE 5).updClk fun c => { c with relock := some { r with step := 4 } }) ∧
    (∀ r n, state = 4 → e.clk.relock = some r → r.tried.length < 2 → e.bandFor r.word r.tried = some n → exec .relockTimeout s
      = watch fun e => (e.useBand n).updClk fun c => { c with
          relock := some { r with entry := n, tried := r.tried ++ [(e.useBand n).get (CLK_BAND_LO_CODE n)] } }) ∧
    (∀ r, e.clk.relock = some r → r.step = 7 → e.clk.held = none → exec .relockDone s = watch fun e =>
      ((note 0x02 .note 0xFF (((e.put CLK_STATUS_STATE 2).putB CLK_STATUS_RELOCK false).get CLK_STATUS_BAND)
        ((e.put CLK_STATUS_STATE 2).putB CLK_STATUS_RELOCK false)).updClk fun c => { c with relock := none }).updTick
          fun t => { t with discard := [] }) ∧
    (state = 2 → exec .lockLost s = s.does fun e =>
      (note 0x04 .warn 0xFF 0 ((e.putB CLK_STATUS_LOCK false).put CLK_STATUS_STATE 6)).refForced) ∧
    (state = 6 → exec .lockRegained s = s.does fun e =>
      ((note 0x05 .note 0xFF 0 ((e.putB CLK_STATUS_LOCK true).put CLK_STATUS_STATE 2)).refUnforced).clkHeldApply) ∧
    (state = 6 → e.lockstep = true → exec .lockLossTimeout s = s.does fun e => e.duoAnnounce.updClk fun c => { c with departing := true }) ∧
    (∀ n, state = 6 → e.lockstep = false → e.bandFor e.clkWord [] = some n →
      exec .lockLossTimeout s = watch fun e => e.relockStart 0xFF e.clkWord n)

/-- FREQ_MONITOR_WINDOW, XTAL_FAIL, PLL_ACQUIRE_START, CAL_MEASURE_START, CAL_MEASURE_DONE, LPO_CAL_UPDATE, CLK_GATE_WRITE, CLK_GATE_CLOSE. -/
def Obligations.ClockMonitorsAndGates : Prop :=
  ∀ (s : State) (by_ : Sender) (v : Word) (n : Nat), s.awake = true →
    let e := s.eng
    let state := e.get CLK_STATUS_STATE
    let note (code : Nat) (sev : Sev) (hm w : Nat) (e : Engine) : Engine :=
      e.raise { block := 0x01, code := code, sev := sev, hm := hm, w2 := w }
    (state = 2 ∨ state = 6 →
      let err : Int := (n * (100 * 2 ^ 40) : Nat) - (51200 * e.clkWord : Nat)
      let shown := (BitVec.ofInt 32 (rndDiv err (100 * 2 ^ 40))).toNat
      (err.natAbs < 103 * (100 * 2 ^ 40) → exec (.freqMonitorWindow n) s = s.does fun e => e.put CLK_MON_ERR shown) ∧
      (103 * (100 * 2 ^ 40) ≤ err.natAbs → exec (.freqMonitorWindow n) s = s.does fun e =>
        let t := e.put CLK_MON_ERR shown
        t.refWatch (note 0x06 .fault 0xFF shown (t.safeStop true)))) ∧
    (e.on CLK_STATUS_XFAIL = false → e.stopped = true → exec .xtalFail s = s.does fun e =>
      e.refWatch ((((note 0x08 .fault 0xFF 0 (e.putB CLK_STATUS_XFAIL true)).safeStop true).updClk fun c =>
        { c with relock := none }).putB CLK_STATUS_RELOCK false)) ∧
    (e.on CLK_STATUS_XFAIL = true → exec .xtalFail s = .next s) ∧
    (v.getLsbD 0 = true → state = 0 → e.on CLK_STATUS_XFAIL = false →
      let t (e : Engine) := e.put CLK_CTRL_PLL_EN 1
      (∀ b, (t e).bandFor (t e).clkWord [] = some b → exec (.pllAcquireStart v) s = s.does fun e =>
        (((t e).useBand b).putB CLK_STATUS_NOBAND false).put CLK_STATUS_STATE 1) ∧
      ((t e).bandFor (t e).clkWord [] = none → exec (.pllAcquireStart v) s = s.does fun e =>
        note 0x03 .warn 0xFF ((t e).clkWord * 1024 / 2 ^ 40) ((t e).putB CLK_STATUS_NOBAND true))) ∧
    (let cfg (e : Engine) : Engine := (e.put CLK_CAL_CTRL_CODE (v.toNat % 32)).put CLK_CAL_CTRL_VT (v.toNat / 256 % 2);
      (v.getLsbD 16 = false → exec (.calMeasureStart by_ v) s = s.does cfg) ∧
      (v.getLsbD 16 = true → state = 0 → exec (.calMeasureStart by_ v) s = s.does fun e =>
        ((cfg e).put CLK_CAL_CTRL_BUSY 1).put CLK_CAL_COUNT_VALID 0) ∧
      (v.getLsbD 16 = true → state ≠ 0 → exec (.calMeasureStart by_ v) s = s.does fun e => note 0x0C .warn by_.hm 0 (cfg e))) ∧
    (e.on CLK_CAL_CTRL_BUSY = true → exec (.calMeasureDone n) s = s.does fun e =>
      ((e.put CLK_CAL_COUNT_COUNT n).put CLK_CAL_COUNT_VALID 1).put CLK_CAL_CTRL_BUSY 0) ∧
    (e.on CLK_STATUS_XFAIL = false → exec (.lpoCalUpdate n) s = s.does fun e =>
      (e.put CLK_LPO_CAL_COUNT n).put CLK_LPO_CAL_VALID 1) ∧
    (let open_ (e : Engine) : Engine := (e.wr CLK_GATE (v &&& 0x1FFFFF#32)).wr CLK_GATE_STATUS (e.rd CLK_GATE_STATUS &&& (v &&& 0x1FFFFF#32))
     exec (.clkGateWrite v) s = s.does (fun e => (open_ e).gatePorts (e.rd CLK_GATE_STATUS)) ∧
     ((∀ u, u = 18 ∨ u = 19 → ((open_ e).rd CLK_GATE_STATUS).getLsbD u = (e.rd CLK_GATE_STATUS).getLsbD u) → exec (.clkGateWrite v) s = s.does open_)) ∧
    (n < 21 → (e.rd CLK_GATE).getLsbD n = true →
      (e.unitIdle n = true → exec (.clkGateClose n) s = s.does fun e => ((e.put ⟨CLK_GATE_STATUS, n, 1⟩ 1).gatePorts (e.rd CLK_GATE_STATUS)).spkSettle) ∧
      (e.unitIdle n = false → exec (.clkGateClose n) s = .next s))

/-- REF_EVENT, REF_LOS, REF_GATE_END, VREF_FRAME_START, REF_PTP_QUAL_WRITE, REF_FREQ_WRITE. The frequency the loop
settles to is a free value (the manual gives its bandwidth only). -/
def Obligations.ReferenceMeasurement : Prop :=
  ∀ (s : State) (by_ : Sender) (n : Nat) (ph : Int) (v : Word), s.awake = true →
    let e := s.eng
    let st := e.get (REF_SRC_STATE_STATE n)
    let note (code : Nat) (hm a b : Nat) (e : Engine) : Engine :=
      e.raise { block := 0x02, code := code, sev := .warn, hm := hm, w2 := a, w3 := b }
    (1 ≤ n → n ≤ 5 → st ≠ 0 →
      let t : Int := if e.on TICK_CFG_RATE then 6553600 else 13107200
      let w := (ph + t / 2).fmod t - t / 2
      let seen (e : Engine) : Engine := (e.putB (REF_SRC_STATE_LOS n) false).wr (REF_SRC_PHASE n) (BitVec.ofInt 32 w)
      let heard := 4 ≤ n → e.get (MADI_RX_STATUS_STATE (n - 4)) = 2;
      (¬ heard → exec (.refEvent n ph) s = .next s) ∧
      (heard → (seen e).get REF_STATUS_SEL ≠ n → exec (.refEvent n ph) s = s.does seen) ∧
      (heard → (seen e).get REF_STATUS_SEL = n → 4 * w ≤ t → -t ≤ 4 * w → exec (.refEvent n ph) s = s.does fun e =>
        (seen e).updRef fun r => { r with loopPpt := Config.trackLoop ((seen e).cp REF_CTRL_BW) r.loopPpt w }) ∧
      (heard → (seen e).get REF_STATUS_SEL = n → (t < 4 * w ∨ 4 * w < -t) → exec (.refEvent n ph) s = s.does fun e =>
        ((note 0x09 0xFF n (BitVec.ofInt 32 w).toNat (seen e)).updRef fun r => { r with
          pendSw := w * 10 ^ 12, outOfs := r.outOfs - r.movingSw, moving := r.moving - r.movingSw }).refShow) ∧
      exec (.refLos n) s = s.does fun e => ((e.putB (REF_SRC_STATE_LOS n) true).refSrcUpd n fun r => { r with losGate := true }).refDisqualify n) ∧
    (∀ b, n < 6 → 0 < n → st ≠ 0 → exec (.refGateEnd n b ph) s = s.does fun e =>
      let t := e.wr (REF_SRC_FREQ n) (BitVec.ofInt 32 ph)
      t.refGate n (if n = 3 then 10 else 1) (b && !(Tbl.get {} e.ref.src n).losGate && !t.on (REF_SRC_STATE_LOS n)
        && decide (ph.natAbs ≤ e.get (REF_SRC_CFG_WIN n) * 1000000))) ∧
    (∀ off : Int, e.get (REF_SRC_STATE_STATE 2) ≠ 0 → -2 ≤ off → off ≤ 2 → exec (.vrefFrameStart off ph) s = s.does fun e =>
      (((e.wr REF_VSEQ_ESC_LO (BitVec.ofNat 32 e.tick.esc)).wr REF_VSEQ_ESC_HI (BitVec.ofNat 32 (e.tick.esc / 2 ^ 32))).put REF_VSEQ_PHASE
        (match e.ref.vseqWrite with | some p => p | none => (e.get REF_VSEQ_PHASE + 1) % 5)).updRef fun r => { r with vseqWrite := none }) ∧
    (v.getLsbD 0 = true → exec (.refPtpQualWrite v) s = s.does fun e => e.put REF_PTP_QUAL_OK 1) ∧
    (v.getLsbD 0 = false → exec (.refPtpQualWrite v) s = s.does fun e =>
      ((e.put REF_PTP_QUAL_OK 0).refSrcUpd 0 fun r => { r with okFell := true }).refDisqualify 0) ∧
    (v.toInt.natAbs ≤ 1200000000 → exec (.refFreqWrite by_ v) s = s.does fun e => e.wr REF_FREQ_PPT v) ∧
    (1200000000 < v.toInt.natAbs → exec (.refFreqWrite by_ v) s = s.does (note 0x0C by_.hm v.toNat 0))

/-- Selection (R87 to R89, R102). -/
def Obligations.ReferenceSelection : Prop :=
  ∀ (e : Engine),
    let sel := e.get REF_STATUS_SEL
    let prio (n : Nat) : Nat := (e.cpVal REF_PRIO).toNat / 2 ^ (3 * n) % 8
    let eligible (n : Nat) : Prop := e.get (REF_SRC_STATE_STATE n) = 2 ∧ prio n ≠ 7
    (e.cpOn REF_CTRL_AUTO = true → sel ≠ 7 → eligible sel → e.cpOn REF_CTRL_REVERT = false → e.refChoice = some sel) ∧
    (e.cpOn REF_CTRL_AUTO = true → (sel = 7 ∨ ¬ eligible sel ∨ e.cpOn REF_CTRL_REVERT = true) →
      (∀ n, e.refChoice = some n → n < 7 ∧ eligible n ∧
        ∀ m, m < 7 → eligible m → prio n ≤ prio m ∧ (prio m = prio n → n ≤ m)) ∧
      (e.refChoice = none → ∀ m, m < 7 → ¬ eligible m)) ∧
    (e.cpOn REF_CTRL_AUTO = false → let m := e.cp REF_CTRL_MAN_SRC
      (m < 7 → e.get (REF_SRC_STATE_STATE m) = 2 → e.refChoice = some m) ∧
      ((7 ≤ m ∨ e.get (REF_SRC_STATE_STATE m) ≠ 2) → e.refChoice = none)) ∧
    (e.on REF_STATUS_FORCED = true → e.refSelect = e) ∧
    (e.on REF_STATUS_FORCED = false → let d := e.updRef fun r => { r with resel := false };
      (e.refChoice = some sel → e.refSelect = d) ∧
      (∀ n, e.refChoice = some n → n ≠ sel → e.refSelect = d.refSwitch n) ∧
      (e.refChoice = none → sel = 7 → e.refSelect = d) ∧
      (e.refChoice = none → sel ≠ 7 → e.refSelect = d.refHoldover false))

/-- REF_UPDATE, REF_PHASE_STEP_WRITE, REF_HISTORY_SAMPLE, REALIGN_COMMAND, REALIGN_APPLY. -/
def Obligations.ReferenceSteering : Prop :=
  ∀ (s : State) (by_ : Sender) (v : Word), s.awake = true →
    let e := s.eng
    let begun (e : Engine) : Engine := (if e.ref.resel then e.refSelect else e).refMoved
    let m := begun e
    (m.get REF_STATUS_SEL = 7 → exec .refUpdate s = s.does fun e =>
      e.refWatch (((begun e).refWordShow (begun e).ref.holdWord).refCommit (begun e).ref.holdWord)) ∧
    (m.get REF_STATUS_SEL ≠ 7 →
      let unit : Int := 8388608
      let lim : Int := 1200000000 * unit
      let src := max (-lim) (min lim (m.refSrcPpt * unit))
      let reach : Int := (if m.cpOn REF_CTRL_SWITCH_MODE then (m.get REF_ANNEAL_SLOPE : Int) * 100000 else 100000000) * unit
      let want := max (-reach) (min reach (m.ref.pendSw + m.ref.pendStep))
      let pull := if 0 ≤ want then min want (lim - src) else max want (-lim - src)
      let word (f : Int) : Nat := ((100 * 2 ^ 40 : Int) + rndDiv ((100 * 2 ^ 40 : Int) * f) (10 ^ 12 * unit)).toNat
      exec .refUpdate s = s.does fun e => e.refWatch ((((begun e).updRef fun r => { r with
        moving := m.refPullKept (word (src + pull)) pull, freeWord := word src, secSum := r.secSum + word src, secCnt := r.secCnt + 1 }).refWordShow
          (word (src + pull))).refCommit (word (src + pull)))) ∧
    (let t : Int := if e.on TICK_CFG_RATE then 6553600 else 13107200
      let p := e.ref.pendSw + e.ref.pendStep + v.toInt * 10 ^ 12
      (v.toInt.natAbs ≤ t → p.natAbs ≤ 2 * t * 10 ^ 12 → exec (.refPhaseStepWrite by_ v) s = s.does fun e =>
        (e.updRef fun r => { r with pendStep := r.pendStep + v.toInt * 10 ^ 12 }).refShow) ∧
      ((t < v.toInt.natAbs ∨ 2 * t * 10 ^ 12 < p.natAbs) → exec (.refPhaseStepWrite by_ v) s = s.does fun e =>
        e.raise { block := 0x02, code := 0x0B, sev := .warn, hm := by_.hm, w2 := v.toNat })) ∧
    (let inHold := decide (e.get REF_STATUS_SEL = 7);
      (e.ref.secCnt ≠ 0 → e.ref.secPart = false → exec .refHistorySample s = s.does fun e => e.updRef fun r => { r with
        history := ((r.secSum, r.secCnt) :: r.history).take 1024, histNew := true, secSum := 0, secCnt := 0, secPart := inHold }) ∧
      (e.ref.secCnt = 0 ∨ e.ref.secPart = true → exec .refHistorySample s = s.does fun e => e.updRef fun r => { r with
        histNew := false, secSum := 0, secCnt := 0, secPart := inHold })) ∧
    (v.getLsbD 0 = true → exec (.realignCommand v) s = s.does fun e => e.updRef fun r => { r with realign := true }) ∧
    (e.ref.realign = true → e.tick.esc % e.nSamp = 0 → e.ref.realignDue = [] → e.ref.realigned ≠ some e.tick.esc →
      e.get (REF_SRC_STATE_STATE 2) ≠ 2 → exec .realignApply s = s.does fun e =>
        let frame := frameCount e.fs (e.get REF_VIDEO_CFG_RATE) e.time.t
        let pulling := decide (e.ref.pendSw + e.ref.pendStep ≠ 0)
        (((e.updRef fun r => { r with realign := false, outOfs := 0, realigned := some e.tick.esc
                                      ppsCnt := ppsCount e.fs e.time.t, frameCnt := frame }).refShow).putB
          REF_STATUS_ALIGN_IN_PULL pulling).raise
            { block := 0x02, code := 0x08, sev := .note, w2 := (e.rd REF_OUT_OFFSET).toNat, w3 := if pulling then 1 else 0 })

/-- TIME_INCR_COMMIT, TIME_STEP, TIME_NOW_CAPTURE, TIME_LATCH_CAPTURE, TXTS_POP. -/
def Obligations.NetworkTime : Prop :=
  ∀ (s : State) (by_ : Sender) (v : Word), s.awake = true →
    let e := s.eng
    let sec : Int := 1000000000 * 2 ^ 32
    (let ns := v.toNat % 256
      let t (e : Engine) : Engine := e.wrCp TIME_INCR (v &&& 0xFF#32)
      let fr := e.get TIME_INCR_FRAC_FRAC
      let d : Int := ((ns : Int) * 2 ^ 32 + fr) * 384 - 625 * 2 ^ 32;
      (e.direct by_ TIME_INCR = true → d.natAbs * 500 ≤ 625 * 2 ^ 32 → exec (.timeIncrCommit by_ v) s = s.does fun e =>
        ((t e).put TIME_INCR_CUR_NS_NS ns).put TIME_INCR_CUR_FRAC_FRAC fr) ∧
      (e.direct by_ TIME_INCR = true → 625 * 2 ^ 32 < d.natAbs * 500 → exec (.timeIncrCommit by_ v) s = s.does fun e =>
        e.raise { block := 0x03, code := 0x03, sev := .warn, hm := by_.hm, w2 := ns, w3 := fr })) ∧
    (e.direct by_ TIME_ADJ_CTRL = true → let ns := e.rd TIME_ADJ_NS
      let cmd (set : Bool) (d : Int) (e : Engine) : Engine := (e.wrCp TIME_ADJ_CTRL (v &&& 1#32)).updTime fun t =>
        { t with steps := t.steps ++ [{ set := set, amt := d, hm := by_.hm }] };
      (v.getLsbD 1 = false → exec (.timeStep by_ v) s = s.does fun e => e.wrCp TIME_ADJ_CTRL (v &&& 1#32)) ∧
      (v.getLsbD 1 = true → v.getLsbD 0 = true → ns.toNat ≤ 999999999 → exec (.timeStep by_ v) s = s.does
        (cmd true (((e.get TIME_ADJ_SEC_HI_SEC : Int) * 2 ^ 32 + (e.rd TIME_ADJ_SEC).toNat) * sec + ns.toNat * 2 ^ 32))) ∧
      (v.getLsbD 1 = true → v.getLsbD 0 = false → ns.toInt.natAbs ≤ 999999999 → exec (.timeStep by_ v) s = s.does
        (cmd false ((e.rd TIME_ADJ_SEC).toInt * sec + ns.toInt * 2 ^ 32))) ∧
      (v.getLsbD 1 = true → (if v.getLsbD 0 then 999999999 < ns.toNat else 999999999 < ns.toInt.natAbs) →
        exec (.timeStep by_ v) s = s.does fun e =>
          e.raise { block := 0x03, code := 0x06, sev := .warn, hm := by_.hm, w2 := ns.toNat })) ∧
    (let t := e.time.t;
      exec (.timeNowCapture by_) s = s.does fun e => { e.capture TIME_NOW_NS by_.hm
        [(t / sec).toNat % 2 ^ 32, (t / sec).toNat / 2 ^ 32, (t % 2 ^ 32 / 2 ^ 8).toNat, e.tick.esc % 2 ^ 32] with
          rdata := BitVec.ofNat 32 (t % sec / 2 ^ 32).toNat }) ∧
    exec (.timeLatchCapture by_) s = s.does (fun e =>
      { e.capture TIME_LATCH_ESC_LO by_.hm e.latchSet with rdata := BitVec.ofNat 32 e.time.latchEsc }) ∧
    (e.time.txts = [] → exec .txtsPop s = s.does fun e => { e with rdata := 0#32 }) ∧
    (∀ x xs, e.time.txts = x :: xs → exec .txtsPop s = s.does fun e =>
      { ((((((e.wr TIME_TXTS_SEC_LO (BitVec.ofNat 32 (timeSec x.time))).wr TIME_TXTS_SEC_HI
          (BitVec.ofNat 32 (timeSec x.time / 2 ^ 32 % 2 ^ 16))).wr TIME_TXTS_NS (BitVec.ofNat 32 (timeNs x.time))).wr TIME_TXTS_FRAC
            (BitVec.ofNat 32 (timeFrac x.time))).updTime fun t => { t with txts := xs }).txtsShow) with
        rdata := BitVec.ofNat 32 (1 + x.port % 2 * 2 + x.mtype % 16 * 16 + x.seq % 2 ^ 16 * 2 ^ 16) })

/-- TAQ_ARM, TAQ_CANCEL, TAQ_CUTOFF, TIMED_PATCH_APPLY, TIMED_MUTE_START, TIMED_GPIO_CHANGE; a SWAP entry's arm is SAFE's. -/
def Obligations.TimedActions : Prop :=
  ∀ (s : State) (by_ : Sender) (i : Nat) (v : Word), s.awake = true →
    let e := s.eng
    (i < 1024 → e.direct by_ (taqAddr i 3) = true → (by_.isCC = true ∨ by_.isTenant (i / 64) = true) →
      let ctrl := v ||| 0x40#32
      let t (e : Engine) : Engine := e.wrCp (taqAddr i 3) ctrl
      let x := (t e).taqEnt i
      let y : TaqEntry := { x with state := .free, late := false, esc := 0, ctrl := (t e).cpVal (taqAddr i 3), param := (t e).cpVal (taqAddr i 2), tgtLo := (t e).cpVal (taqAddr i 0), tgtHi := (t e).cpVal (taqAddr i 1) }
      let u (e : Engine) : Engine := (t e).updTaqEnt i fun _ => y
      let sound := ∀ w, w < 4 → (t e).rd (taqAddr i w + 4) = ~~~ ((t e).rd (taqAddr i w)) ∧ e.isQuar (taqAddr i w) = false;
      (x.state = .resolved → exec (.taqArm by_ i v) s = s.does fun e => (t e).taqEvt i 0x03 .warn by_.hm 3) ∧
      (x.state ≠ .resolved → x.state ≠ .pending → sound →
        (∀ r, (u e).taqRefusal by_ i y = some r → exec (.taqArm by_ i v) s = s.does fun e => (u e).taqRefuse i by_.hm r) ∧
        ((u e).taqRefusal by_ i y = none → y.action ≠ 1 → exec (.taqArm by_ i v) s = s.does fun e =>
          ((u e).updTaqEnt i fun z => { z with state := .pending, hm := by_.hm, dma := by_.dma }).taqArmed i))) ∧
    (i < 1024 → e.direct by_ (taqAddr i 3) = true → (by_.isCC = true ∨ by_.isTenant (i / 64) = true) → ((e.taqEnt i).state = .pending ∨ (e.taqEnt i).state = .resolved) →
      (e.taqEnt i).action ≠ 1 → exec (.taqCancel by_ i v) s = s.does fun e =>
        (e.wrCp (taqAddr i 3) (v &&& 0xFFFFFFBF#32)).updTaqEnt i fun z => { z with state := .cancelled }) ∧
    (∀ b, e.cutoffAt = some b → exec .taqCutoff s = s.does fun e =>
      let t := (e.updTick fun t => { t with cutNext := b + 1 }).updTaq fun q => { q with fired := q.fired.filter fun f => b ≤ f.esc / e.nSamp + 8 }
      ((t.taqResolved b).foldl Engine.taqFire t).safeCutoff b) ∧
    (∀ f fs, e.taq.due = f :: fs →
      let rest (e : Engine) : Engine := e.updTaq fun q => { q with due := q.due.filter (· != f) }
      (∀ d w, f.act = .patch d w → exec .timedPatchApply s = s.does fun e => (rest e).patchTimed d f.esc w) ∧
      (∀ d m n, f.act = .mute d m n → exec .timedMuteStart s = s.does fun e => (rest e).destChange d f.esc (.pmute m n))) ∧
    exec .timedGpioChange s = s.does fun e =>
      (e.pwr.gpio.filter fun c => c.taq && decide (c.esc ≤ e.tick.esc)).foldl Engine.gpioApply
        (e.updPwr fun p => { p with gpio := p.gpio.filter fun c => !c.taq || decide (e.tick.esc < c.esc) })

/-- Resolution (R138 to R140). -/
def Obligations.EntryResolution : Prop :=
  ∀ (e : Engine) (i : Nat), e.isPrimary = false → e.isStandby = false → e.lockstep = false →
    (∀ w, w < 4 → e.rd (taqAddr i w + 4) = ~~~ (e.rd (taqAddr i w)) ∧ e.isQuar (taqAddr i w) = false) →
    let x := e.taqEnt i
    let n := e.nSamp
    let b := e.bStar
    let resolved (s : Nat) (late : Bool) : Engine := e.updTaqEnt i fun x => { x with state := .resolved, esc := s, late := late }
    let nom (j : Nat) : Int := e.nominal e.time.latch j
    (let s := x.tgtLo.toNat + x.tgtHi.toNat * 2 ^ 32 - e.escOfs;
      (b * n ≤ s → e.taqEsc i = resolved s false) ∧ (s < b * n → e.taqEsc i = resolved (b * n) true)) ∧
    (e.stopped = false →
      (e.time.latchBlk ≠ some b → e.taqTryNt i = e) ∧
      (e.time.latchBlk = some b →
        (nom (n - 1) < x.target → e.taqTryNt i = e) ∧
        (x.target ≤ nom (n - 1) → 1000000000 * 2 ^ 32 ≤ (nom 0 - x.target) * e.fs → e.taqTryNt i = resolved (b * n) true) ∧
        (x.target ≤ nom (n - 1) → (nom 0 - x.target) * e.fs < 1000000000 * 2 ^ 32 →
          ∃ j, j < n ∧ x.target ≤ nom j ∧ (∀ k, k < j → nom k < x.target) ∧ e.taqTryNt i = resolved (b * n + j) false)))

/-- SCHED_SUBMIT, SCHED_READY, SCHED_CANCEL, SCHED_FREE, SCHED_RANGE_COMMIT, SCHED_CQ_POP. -/
def Obligations.DescriptorOperations : Prop :=
  ∀ (s : State) (by_ : Sender) (d t : Nat) (v : Word), s.awake = true → d < 4096 →
    let e := s.eng
    let st := e.get (dState d)
    let free := e.direct by_ SCHED_SUBMIT = true ∧ e.direct by_ SCHED_READY = true ∧ e.direct by_ SCHED_CANCEL = true ∧ e.direct by_ SCHED_FREE = true
    (free → e.schedMay by_ d = false → exec (.schedSubmit by_ d) s = s.does (·.opRefused by_ d 0 2) ∧
      exec (.schedCancel by_ d) s = s.does (·.opRefused by_ d 2 2) ∧ exec (.schedFree by_ d) s = s.does (·.opRefused by_ d 3 2)) ∧
    (free → e.schedMay by_ d = true → e.descTenant d ≠ none →
      (∀ r, e.submitRefusal d (e.staged d) = some r → exec (.schedSubmit by_ d) s = s.does (·.opRefused by_ d 0 r)) ∧
      (e.submitRefusal d (e.staged d) = none → imgStanding (e.staged d) = false → exec (.schedSubmit by_ d) s = s.does fun e =>
        (((((((e.updDesc d fun _ => { img := e.staged d }).put (dGate d) 0).put (dLate d) 0).put (dReason d) 0).loadDeps d).setBound d
          (e.computeBlock * e.nSamp)).put (dState d) tPending).tryReady d) ∧
      (e.submitRefusal d (e.staged d) = none → imgStanding (e.staged d) = true →
        (st = tFree → exec (.schedSubmit by_ d) s = s.does fun e => (e.updDesc d fun _ => { img := e.staged d }).put (dState d) tDone) ∧
        (st ≠ tFree → st ≠ tFaulted → exec (.schedSubmit by_ d) s = s.does fun e =>
          e.updDesc d fun x => { x with next := some (e.staged d) }))) ∧
    (free → e.schedMay by_ d = true →
      (∀ k, k < 4 → v.toNat % 4096 = d → v.toNat / 4096 % 8 = k → tPending ≤ st → st ≤ tPreempted → e.get (dDep d k) ≠ 0 →
        exec (.schedReady by_ v) s = s.does fun e => e.put (dDep d k) (e.get (dDep d k) - 1)) ∧
      (st = tPending ∨ st = tReady → exec (.schedCancel by_ d) s = s.does fun e => e.endTask d tCancelled rUnrun 0) ∧
      (tDone ≤ st → imgStanding (e.img d) = false → exec (.schedFree by_ d) s = s.does fun e => e.freeDesc d) ∧
      (st = tFree → exec (.schedFree by_ d) s = s.does (·.opRefused by_ d 3 1)) ∧
      (st ≠ tFree → imgStanding (e.img d) = true → exec (.schedFree by_ d) s = s.does fun e => (e.put (dRetire d) 1).retireCheck d)) ∧
    (e.direct by_ (SCHED_RANGE t) = true → by_.isCC = true →
      let w := v &&& 0x1FFF0FFF#32
      let b := v.toNat % 4096
      let n := v.toNat / 2 ^ 16 % 8192
      (b + n ≤ 4096 → (∀ u, u < 16 → u ≠ t → n ≠ 0 → e.cp (SCHED_RANGE_COUNT u) ≠ 0 →
          b + n ≤ e.cp (SCHED_RANGE_BASE u) ∨ e.cp (SCHED_RANGE_BASE u) + e.cp (SCHED_RANGE_COUNT u) ≤ b) →
        (∀ x, x ∈ e.liveDescs → e.descTenant x = some t → b ≤ x ∧ x < b + n) →
        exec (.schedRangeCommit by_ t v) s = s.does fun e => e.wrCp (SCHED_RANGE t) w) ∧
      (4096 < b + n → exec (.schedRangeCommit by_ t v) s = s.does fun e => e.schedEvt t 0x06 .warn by_.hm w.toNat 0)) ∧
    (Tbl.get [] e.sched.cq t = [] → exec (.schedCqPop by_ t) s = s.does fun e =>
      { e.capture (SCHED_CQ_LO t) by_.hm [0] with rdata := 0#32 }) ∧
    (∀ r rs, Tbl.get [] e.sched.cq t = r :: rs → exec (.schedCqPop by_ t) s = s.does fun e =>
      { (e.updSched fun x => { x with cq := Tbl.set [] x.cq t rs }).capture (SCHED_CQ_LO t) by_.hm [r.bound] with
        rdata := BitVec.ofNat 32 (r.idx + 2 ^ 12 * r.reason + 2 ^ 15 * r.late.toNat + 2 ^ 16 * r.status + 2 ^ 31) })

/-- TASK_DISPATCH, TASK_MIGRATE, TASK_ABORT, ACCEL_JOB_COMPLETE. -/
def Obligations.Dispatching : Prop :=
  ∀ (s : State) (c d : Nat), s.awake = true → d < 4096 →
    let e := s.eng
    (∀ b, c < 16 → e.on SCHED_CTRL_EN = true → (e.coreOf c).task = none → (e.coreOf c).pre = [] →
      e.firstTask (e.coreWork c) = some d → (e.coreOf c).freeBank = some b → exec (.taskDispatch c) s = s.does fun e =>
        let a := ((e.put (dState d) tRunning).put (dCore d) c).updDesc d fun x => { x with placed := none }
        let fresh : CoreCtx := { pc := ((e.img d).getD 0 0#32).toNat, task := d
                                 rmode := e.on (CORE_MODE_INIT_RMODE c), saten := e.on (CORE_MODE_INIT_SATEN c) }
        a.updCore c fun k => { k with
          ctx := Tbl.set {} k.ctx b ((fresh.wrG 1 ((e.img d).getD 1 0#32)).wrG 2 (e.rd (poolAddr d 15))), bank := b, task := some d
          wait := .run, resv := none, deferred := none }) ∧
    (e.on SCHED_CTRL_EN = false → exec (.taskDispatch c) s = .next s) ∧
    (e.on SCHED_CTRL_EN = true → Tbl.get none e.sched.accel 2 = none → (e.rd CLK_GATE).getLsbD 17 = false →
      e.firstTask (e.liveDescs.filter fun d => e.get (dState d) == tReady && imgKind (e.img d) == 2 && !e.shedHold (e.img d)) = some d →
      exec (.taskDispatch 17) s = s.does fun e => (e.put (dState d) tRunning).updSched fun x => { x with
        accel := Tbl.set none x.accel 2 (some d), step := Tbl.set 0 x.step 2 0 }) ∧
    (∀ p, e.on SCHED_CTRL_MIGRATE = true → e.lockstep = false → e.get (dState d) = tReady → imgKind (e.img d) = 0 →
      imgPin (e.img d) = false → (e.desc d).placed = some p → (e.coreOf p).task.isSome = true → e.eligible c d = true →
      (e.coreOf c).task = none → exec (.taskMigrate d c) s = s.does fun e => e.updDesc d fun x => { x with placed := some c }) ∧
    (∀ r, (e.coreOf c).task = some d → (e.desc d).ending = some r →
      ((e.ctxOf c).lk = false → (e.ctxOf c).ext = none → exec (.taskAbort c) s = s.does fun e =>
        ((e.endCtx c).endTask d tCancelled r 0).coreNext c) ∧
      ((e.ctxOf c).lk = true ∨ (e.ctxOf c).ext ≠ none → exec (.taskAbort c) s = .next s)) ∧
    (∀ k, k = 1 ∨ k = 2 → Tbl.get none e.sched.accel k = some d → (e.desc d).ending = none →
      let jobs := if k = 1 then (eqaSteps ((e.img d).getD 0 0#32)).length else (sumxSteps ((e.img d).getD 0 0#32)).length
      (jobs ≤ Tbl.get 0 e.sched.step k → exec (.accelJobComplete k) s = s.does fun e =>
        (e.updSched fun x => { x with accel := Tbl.set none x.accel k none }).endTask d tDone rComplete 0) ∧
      (Tbl.get 0 e.sched.step k < jobs → exec (.accelJobComplete k) s = .next s))

/-- INGOT_HANDOVER, DRAIN_COMPLETE, INGOT_SCRUB_DONE, RETENTION_REQUEST, RET_ENTERED, RET_WOKEN, INGOT_STARVE. -/
def Obligations.IngotOwnership : Prop :=
  ∀ (s : State) (by_ : Sender) (n : Nat) (v : Word), s.awake = true →
    let e := s.eng
    let st := e.get (INGOT_STATE_STATE n)
    let w := v &&& 0x1FFFF#32
    let owner := v.toNat % 256
    let note (code : Nat) (sev : Sev) (hm a b : Nat) (e : Engine) : Engine :=
      e.raise { block := 0x06, code := code, sev := sev, hm := hm, w2 := a, w3 := b }
    let does (c : Instr) (f : Engine → Engine) : Prop := exec c s = s.does f
    let here (a : Nat) : Prop := e.direct by_ a = true
    (by_.isCC = false → (here (INGOT_OWN n) → does (.ingotHandover by_ n v) (note 0x02 .warn by_.hm n 4)) ∧
      ∀ g, here (INGOT_RET g) → does (.retentionRequest by_ g v) (note 0x02 .warn by_.hm g 4)) ∧
    (here (INGOT_OWN n) → by_.isCC = true → (st = 2 ∨ st = 3) → does (.ingotHandover by_ n v) (note 0x02 .warn by_.hm n 1)) ∧
    (here (INGOT_OWN n) → by_.isCC = true → st ≠ 2 → st ≠ 3 →
      (ownerCode owner = false → does (.ingotHandover by_ n v) (note 0x02 .warn by_.hm n 2)) ∧
      (ownerCode owner = true → owner ≠ e.ingotOwner n → e.lockstep = false → v.getLsbD 16 = false →
        does (.ingotHandover by_ n v) fun e =>
          ((((e.wrCp (INGOT_OWN n) w).put (INGOT_STATE_PREV n) (e.ingotOwner n)).put (INGOT_STATE_STATE n) 2).updIngot fun i =>
            { i with drainAt := Tbl.set 0 i.drainAt n e.now }).clearIngotResv n |>.retWakeFor (n / 8))) ∧
    (st = 2 → e.outstanding n = 0 → e.get (retState (n / 8)) = 0 →
      let t (e : Engine) : Engine := e.updIngot fun i => { i with
        drainCycles := Tbl.set 0 i.drainCycles n (e.now - Tbl.get 0 e.ingot.drainAt n), drainAt := Tbl.set 0 i.drainAt n 0 }
      (e.cpOn (INGOT_OWN_SCRUB n) = true → does (.drainComplete n) fun e => (t e).put (INGOT_STATE_STATE n) 3) ∧
      (e.cpOn (INGOT_OWN_SCRUB n) = false → does (.drainComplete n) fun e => (t e).handoverDone n)) ∧
    (st = 3 → does (.ingotScrubDone n) fun e =>
      let t := (e.clearBytes (0x80000000 + n * 0x80000) 0x80000).put (INGOT_STATE_STATE n) (if e.ingotOwner n = 0 then 0 else 1)
      note 0x01 .note 0xFF n (e.ingotOwner n + 2 ^ 8 * t.get (INGOT_STATE_PREV n) + 2 ^ 16 * (Tbl.get 0 e.ingot.drainCycles n % 2 ^ 16)) t) ∧
    (∀ g, let cfg (e : Engine) : Engine := (e.put (INGOT_RET_RETAIN g) (v.toNat % 2)).put (INGOT_RET_POLICY g) (v.toNat / 2 % 2)
      let r := e.get (retState g)
      (here (INGOT_RET g) → by_.isCC = true → (cfg e).get (retState g) = r →
        (v.getLsbD 0 = true → r = 0 → does (.retentionRequest by_ g v) fun e => (cfg e).put (retState g) 1) ∧
        (v.getLsbD 0 = false → r = 2 → does (.retentionRequest by_ g v) fun e => (cfg e).put (retState g) 3)) ∧
      (r = 1 → e.on (INGOT_RET_RETAIN g) = true → (∀ i, i < 8 → e.outstanding (8 * g + i) = 0) →
        does (.retEntered g) fun e => note 0x03 .note 0xFF g 0 (e.put (retState g) 2)) ∧
      (r = 3 → e.on (INGOT_RET_RETAIN g) = false → does (.retWoken g) fun e =>
        note 0x04 .note 0xFF g (Tbl.get false e.ingot.wokenByAccess g).toNat ((e.put (retState g) 0).updIngot fun i =>
          { i with wokenByAccess := Tbl.set false i.wokenByAccess g false }))) ∧
    (∀ k, ((e.dmaCh k).starved = false → does (.ingotStarve k n) fun e =>
        (e.updDmaCh k fun x => { x with starved := true }).raiseT (k / 2) { block := 0x08, code := 0x04, sev := .warn, w2 := k, w3 := n }) ∧
      ((e.dmaCh k).starved = true → exec (.ingotStarve k n) s = .next s))

/-- WINDOW_COMMIT, FAULT_RECORD_CLEAR. Translation (R317, R318). -/
def Obligations.WindowsAndTranslation : Prop :=
  (∀ (s : State) (by_ : Sender) (t w : Nat) (v : Word), s.awake = true →
    let e := s.eng
    let c := v &&& 0x13F#32
    let refused (r : Nat) (e : Engine) : Engine :=
      e.raise { block := 0x07, code := 0x02, sev := .warn, hm := by_.hm, w2 := w + 2 ^ 8 * t, w3 := r }
    let load (i : WinImg) (e : Engine) : Engine := (e.wrCp (XLAT_WIN_CTRL t w) c).updXlat fun x =>
      { x with act := Tbl.set {} x.act (32 * t + w) i }
    (e.direct by_ (XLAT_WIN_CTRL t w) = true → by_.isCC = false → exec (.windowCommit by_ t w v) s = s.does (refused 4)) ∧
    (e.direct by_ (XLAT_WIN_CTRL t w) = true → by_.isCC = true →
      (v.getLsbD 0 = false → exec (.windowCommit by_ t w v) s = s.does (load {})) ∧
      (v.getLsbD 0 = true → (∀ r, e.winRefusal t w c = some r → exec (.windowCommit by_ t w v) s = s.does (refused r)) ∧
        (e.winRefusal t w c = none → exec (.windowCommit by_ t w v) s = s.does (load
          { en := true, r := v.getLsbD 1, w := v.getLsbD 2, x := v.getLsbD 3, host := v.getLsbD 4, nosnoop := v.getLsbD 8
            base := e.cp (XLAT_WIN_BASE_BASE t w), limit := e.cp (XLAT_WIN_LIMIT_LIMIT t w)
            off := e.cp (XLAT_WIN_OFF_HI_OFF t w) * 2 ^ 20 + e.cp (XLAT_WIN_OFF_LO_OFF t w) })))) ∧
    (v.getLsbD 31 = true → exec (.faultRecordClear t v) s = s.does fun e =>
      (((((e.wr (XLAT_FAULT_VA t) 0#32).wr (XLAT_FAULT_PA_LO t) 0#32).wr (XLAT_FAULT_PA_HI t) 0#32).wr (XLAT_FAULT_INFO t) 0#32).wr
        (XLAT_FAULT_ESC_LO t) 0#32).wr (XLAT_FAULT_ESC_HI t) 0#32) ∧
    (v.getLsbD 31 = false → exec (.faultRecordClear t v) s = .next s)) ∧
  (∀ (e : Engine) (t va : Nat) (write : Bool),
    let img (w : Nat) : WinImg := Tbl.get {} e.xlat.act (32 * t + w)
    let holds (w : Nat) : Prop := w < 32 ∧ (img w).en = true ∧ e.winQuar t w = false ∧
      (img w).base * 4096 ≤ va ∧ va < ((img w).limit + 1) * 4096
    let allows (w : Nat) : Bool := if write then (img w).w else (img w).r
    (∀ w, holds w → (∀ u, u < w → ¬ holds u) →
      (allows w = true → e.xlate t va write = .ok ((img w).off * 4096 + (va - (img w).base * 4096)) (img w)) ∧
      (allows w = false → e.xlate t va write = .fault kRights)) ∧
    ((∀ w, ¬ holds w) → e.xlate t va write = .fault kNowin))

/-- DMA_START, DMA_RESUME, DMA_ABORT, DMA_DESC_FETCH, DMA_BURST, DMA_DESC_COMPLETE, HOST_READ_COMPLETION, HOST_READ_TIMEOUT. -/
def Obligations.DmaTransfers : Prop :=
  (∀ (x : DmaCh) (r i : Nat), i < x.xlen → x.clen < 2 ^ 24 →
    let n := x.burstLen r i
    n ≤ 64 ∧ n ≤ x.xlen - i ∧ (x.at_ 1 r i).1 % 64 + n ≤ 64 ∧ (x.at_ 0 r i).1 % 4096 + n ≤ 4096 ∧
      (x.at_ 1 r i).1 % 4096 + n ≤ 4096 ∧ ∀ m, (x.at_ 0 r i).2 = some m ∨ (x.at_ 1 r i).2 = some m → n ≤ m) ∧
  ∀ (s : State) (by_ : Sender) (k : Nat), s.awake = true → k < 32 →
    let e := s.eng
    let x := e.dmaCh k
    let t := k / 2
    let i := k % 2
    let st := e.get (DMA_CH_STATUS_STATE t i)
    let does (c : Instr) (f : Engine → Engine) : Prop := exec c s = s.does f
    let refused (r : Nat) (e : Engine) : Engine :=
      e.raiseT t { block := 0x08, code := 0x03, sev := .warn, hm := by_.hm, w2 := k, w3 := r }
    let bare (e : Engine) : Engine := ((e.wr (DMA_CH_SRC t i) 0#32).wr (DMA_CH_DST t i) 0#32).wr (DMA_CH_LEFT t i) 0#32
    let active (v st : Nat) (e : Engine) : Engine := (e.put (DMA_CH_STATUS_STATE t i) st).put ⟨DMA_ACTIVE, k, 1⟩ v
    (e.direct by_ (DMA_CH_CMD t i) = true → dmaAdmits k by_ = false → does (.dmaStart by_ k) (refused 1) ∧ does (.dmaResume by_ k) (refused 1) ∧ does (.dmaAbort by_ k) (refused 1)) ∧
    (e.direct by_ (DMA_CH_CMD t i) = true → dmaAdmits k by_ = true →
      (st = 0 ∨ st = 4 → does (.dmaStart by_ k) fun e => active 1 1 ((bare (((e.wr (DMA_CH_CUR t i) (e.rd (DMA_CH_DESC t i))).put
        (DMA_CH_STATUS_DONE t i) 0).put (DMA_CH_STATUS_KIND t i) 0)).setDmaCh k { hm := t % 16 + by_.hm / 16 % 16 * 16, nb := x.nb })) ∧
      (st ≠ 0 → st ≠ 4 → does (.dmaStart by_ k) (refused 2)) ∧
      (st = 4 → x.desc ≠ [] → does (.dmaResume by_ k) fun e => active 1 2 ((e.updDmaCh k fun x =>
        { x with hm := t % 16 + by_.hm / 16 % 16 * 16 }).put (DMA_CH_STATUS_KIND t i) 0)) ∧
      (st ≠ 4 → does (.dmaResume by_ k) (refused 2)) ∧
      (x.queue = [] → does (.dmaAbort by_ k) fun e => active 0 0 (e.updDmaCh k fun x => { x with fetch := false, desc := [] })) ∧
      (x.queue ≠ [] → does (.dmaAbort by_ k) fun e => e.updDmaCh k fun x => { x with abort := true })) ∧
    (∀ pa ns, st = 1 → x.fetch = false → e.dmaEnd k (e.rd (DMA_CH_CUR t i)).toNat 8 false = (.go pa false ns, e) → isMemAddr pa = true →
      let ws := e.ldWs pa 8
      let y : DmaCh := { x with desc := ws, fetch := false, row := 0, off := 0, queue := [], banks := [], left := [], starved := false }
      let g (e : Engine) : Engine := (e.updDmaCh k fun x => { x with starved := false }).dmaSlots pa 8
      (y.descOk = true → y.f 5 4 1 = 0 → does (.dmaDescFetch k) fun e => (active 1 2 ((g e).setDmaCh k y)).dmaResidue k
        (y.at_ 0 0 0).1 (y.at_ 1 0 0).1 y.xlen y.ycnt) ∧
      (y.descOk = false → does (.dmaDescFetch k) fun e => ((bare (g e)).updDmaCh k fun x => { x with fetch := false, desc := [] }).dmaHalt k
        kDesc (e.rd (DMA_CH_CUR t i)).toNat pa false true)) ∧
    (∀ q, x.queue = [q] → x.abort = false → e.isStandby = false → e.dmaMayIssue k = false →
      (∀ kind va pa w, q.fault = some (kind, va, pa, w) → does (.dmaBurst k) fun e =>
        let banks := x.banks.filter fun b => !x.left.contains b
        (((e.dmaResidue k q.src q.dst q.bytes q.rows).updSafe fun y => { y with inc := y.inc ++ banks }).setDmaCh k { x with
          queue := [], row := x.ycnt - q.rows, off := x.xlen - q.bytes, left := x.left ++ banks }).dmaHalt k kind va pa w true) ∧
      (∀ ws pa h ns, q.fault = none → q.data = some ws → x.paired = false → q.dhost = false → isMemAddr q.dpa = true → ws ≠ [] →
        e.dmaPhys k q.dpa q.words true = (.go pa h ns, e) → e.bankOf q.dpa = none → e.bankOf (q.dpa + 4 * q.words - 4) = none →
        (∃ u, exec (.dmaBurst k) s = .next u ∧ (u.eng.dmaCh k).queue = [] ∧ u.eng.mem = (e.stWs q.dpa ws).mem))) ∧
    (st = 2 → x.desc ≠ [] → x.queue = [] → x.abort = false → x.ycnt ≤ x.row → x.f 5 4 1 = 0 →
      let d (e : Engine) : Engine := (((e.put (DMA_CH_STATUS_DONE t i) (e.get (DMA_CH_STATUS_DONE t i) + 1)).updSafe fun y =>
        { y with inc := y.inc.filter fun b => !x.left.contains b }).updXlat fun y => { y with
          posted := y.posted.map fun w => if w.agent = 0x20 + k then { w with rows := 0 } else w }).setDmaCh k { x with desc := [], banks := [], left := [] }
      let n (e : Engine) : Engine := if x.f 5 3 1 = 1 then (d e).raiseT t { block := 0x08, code := 0x01, sev := .note, hm := x.hm, w2 := k
                                                                            w3 := (e.rd (DMA_CH_CUR t i)).toNat } else d e
      (x.f 5 0 1 = 1 → does (.dmaDescComplete k) fun e => active 1 1 ((n e).wr (DMA_CH_CUR t i) (BitVec.ofNat 32 (x.f 4 0 32)))) ∧
      (x.f 5 0 1 ≠ 1 → does (.dmaDescComplete k) fun e => active 0 0 (n e))) ∧
    (x.fetch = true →
      (∀ ws, ws.length = 8 → e.forwarding = false → does (.hostReadCompletion (.fetch k) (some ws)) fun e =>
        (e.updDmaCh k fun x => { x with nb := x.nb + 1 }).dmaDesc k ws 0) ∧
      does (.hostReadCompletion (.fetch k) none) (·.dmaFetchFault k kHosterr 0) ∧
      does (.hostReadTimeout (.fetch k)) (·.dmaFetchFault k kHosttmo 0))

/-- MBX_HDR_WRITE, MBX_HDRC_WRITE, MBX_HDR_TIMEOUT, MBX_DATA_WRITE, MBX_POP, MBX_GO, MBX_HDR_READ, MBX_FLUSH, in an engine
that is not in a pair; H2E in a pair (R375). -/
def Obligations.Mailboxes : Prop :=
  (∀ (s : State) (by_ : Sender) (t d : Nat) (v : Word), s.awake = true → t < 16 → d < 2 → s.eng.lockstep = false → s.eng.forwarding = false →
    let e := s.eng
    let x := e.mdir t d
    let does (c : Instr) (f : Engine → Engine) : Prop := exec c s = s.does f
    let event (code : Nat) (sev : Sev) (hm a b : Nat) (e : Engine) : Engine :=
      e.raiseT t { block := 0x09, code := code, sev := sev, hm := hm, w2 := a, w3 := b }
    let refused (off r : Nat) : Engine → Engine := event 0x03 .warn by_.hm (off + 0x100 * d) r
    let mismatch (hm : Nat) (h c : Word) (e : Engine) : Engine :=
      (event 0x04 .warn hm h.toNat c.toNat (e.setMdir t d { x with pend := none })).motion 2
    let sender := e.mSender t d by_
    let receiver := e.mReceiver t d by_
    (e.on (MBX_CFG_EN t) = false → by_.isCC = false → exec (.mbxHdrWrite by_ t d v) s = .next s ∧ exec (.mbxHdrcWrite by_ t d v) s = .next s ∧
      exec (.mbxDataWrite by_ t d v) s = .next s ∧ exec (.mbxGo by_ t d) s = .next s) ∧
    (e.on (MBX_CFG_EN t) = true →
      (sender = false → does (.mbxHdrWrite by_ t d v) (refused 0x100 1) ∧ does (.mbxHdrcWrite by_ t d v) (refused 0x104 1) ∧
        does (.mbxDataWrite by_ t d v) (refused 0x108 1) ∧ does (.mbxGo by_ t d) (refused 0x110 1)) ∧
      (sender = true → e.mBlock t d = true → x.blockFull = true → does (.mbxHdrWrite by_ t d v) (refused 0x100 2) ∧
        does (.mbxHdrcWrite by_ t d v) (refused 0x104 2) ∧ does (.mbxDataWrite by_ t d v) (refused 0x108 4) ∧ does (.mbxGo by_ t d) (refused 0x110 2)) ∧
      (sender = true → (e.mBlock t d = false ∨ x.blockFull = false) →
        does (.mbxHdrWrite by_ t d v) (fun e => e.setMdir t d { x with pend := some { val := v, hm := by_.hm, cyc := e.now } }) ∧
        (∀ p, x.pend = some p →
          ((p.hm ≠ by_.hm ∨ p.cyc + 64 ≤ e.now ∨ (~~~ v).toNat % 2 ^ 24 ≠ p.val.toNat % 2 ^ 24) → does (.mbxHdrcWrite by_ t d v) (mismatch by_.hm p.val v)) ∧
          (p.hm = by_.hm → e.now < p.cyc + 64 → (~~~ v).toNat % 2 ^ 24 = p.val.toNat % 2 ^ 24 →
            let h := setBits p.val 24 8 by_.hm
            let c := setBits v 24 8 (255 - by_.hm % 256)
            let len := p.val.toNat / 2 ^ 16 % 256
            let taken (e : Engine) : Engine := e.setMdir t d { x with pend := none }
            let kept (e : Engine) : Engine := ((taken e).wr (mHdr t d) h).wr (mHdrc t d) c
            (e.mBlock t d = true → does (.mbxHdrcWrite by_ t d v) fun e => (kept e).setMdir t d { x with pend := none, accepted := some h }) ∧
            (e.mBlock t d = false → x.isOpen = false →
              (14 < len → does (.mbxHdrcWrite by_ t d v) fun e => refused 0x104 5 (taken e)) ∧
              (len ≤ 14 → x.free < len + 2 → does (.mbxHdrcWrite by_ t d v) fun e => refused 0x104 3 (taken e)) ∧
              (len ≤ 14 → len ≠ 0 → len + 2 ≤ x.free → does (.mbxHdrcWrite by_ t d v) fun e =>
                (kept e).setMdir t d { x with pend := none, open_ := [h, c], left := len, isOpen := true })))) ∧
        (x.pend = none → does (.mbxHdrcWrite by_ t d v) (mismatch by_.hm 0#32 v)) ∧
        (e.mBlock t d = false → x.isOpen = true →
          (1 < x.left → does (.mbxDataWrite by_ t d v) fun e => e.setMdir t d { x with open_ := x.open_ ++ [v], left := x.left - 1 }) ∧
          (x.left = 1 → d = 1 → does (.mbxDataWrite by_ t d v) fun e =>
            let ws := x.open_ ++ [v]
            let y : MbxDir := { x with open_ := [], left := 0, isOpen := false }
            let a := ((e.setMdir t d { x with open_ := ws, left := 0 }).setMdir t d y).setMdir t d
              { y with fifo := x.fifo ++ ws, msgs := x.msgs ++ [ws.length] }
            (event 0x01 .note by_.hm d (ws.headD 0#32).toNat a).vfVector t 1)) ∧
        (e.mBlock t d = false → x.isOpen = false → does (.mbxDataWrite by_ t d v) (refused 0x108 4)) ∧
        (x.accepted = none → does (.mbxGo by_ t d) (refused 0x110 4)) ∧
        (∀ h, e.mBlock t d = true → x.accepted = some h → h.toNat / 2 ^ 24 % 256 = by_.hm →
          (e.mBlen t d < h.toNat / 2 ^ 16 % 256 + 2 → does (.mbxGo by_ t d) (refused 0x110 5)) ∧
          (h.toNat / 2 ^ 16 % 256 + 2 ≤ e.mBlen t d → d = 1 → does (.mbxGo by_ t d) fun e =>
            (event 0x01 .note by_.hm d h.toNat (e.setMdir t d { x with accepted := none, fullNext := some true })).vfVector t 1)))) ∧
    (∀ p, x.pend = some p →
      (p.cyc + 64 ≤ e.now → does (.mbxHdrTimeout t d) (mismatch p.hm p.val 0#32)) ∧ (e.now < p.cyc + 64 → exec (.mbxHdrTimeout t d) s = .next s)) ∧
    ((receiver = false ∨ e.mBlock t d = true) → does (.mbxPop by_ t d) fun e => { e with rdata := 0#32 }) ∧
    (receiver = true → e.mBlock t d = false →
      (x.fifo = [] → does (.mbxPop by_ t d) fun e => { event 0x05 .warn by_.hm d 0 e with rdata := 0#32 }) ∧
      (∀ w ws, x.fifo = w :: ws → x.free ≠ 0 → does (.mbxPop by_ t d) fun e => { e.setMdir t d { x with fifo := ws, msgs := popMsg x.msgs } with rdata := w })) ∧
    (receiver = false → sender = false → does (.mbxHdrRead by_ t d) fun e => { e with rdata := 0#32 }) ∧
    (receiver = true → e.mBlock t d = true → x.full = true → does (.mbxHdrRead by_ t d) fun e =>
      { e.setMdir t d { x with fullNext := some false } with rdata := e.rd (mHdr t d) }) ∧
    (e.direct by_ (MBX_CTRL t) = true → by_.isCC = false → does (.mbxFlush by_ t v) (event 0x03 .warn by_.hm 0x008 8)) ∧
    (e.direct by_ (MBX_CTRL t) = true → by_.isCC = true → v.getLsbD 0 = true → v.getLsbD 1 = false →
      let y := e.mdir t 0
      let clears := if e.mBlock t 0 then y.full = true ∧ y.fwd = 0 else y.free = 0 ∧ y.fwd < 16
      let gone (e : Engine) : Engine := e.setMdir t 0 { fwd := y.fwd };
      (¬ clears → does (.mbxFlush by_ t v) fun e => event 0x06 .note by_.hm 1 0 (gone e)) ∧
      (clears → does (.mbxFlush by_ t v) fun e => event 0x06 .note by_.hm 1 0 ((event 0x02 .note by_.hm 0 0 (gone e)).vfVector t 2)))) ∧
  ∀ (s : State) (by_ : Sender) (t : Nat) (v : Word), s.awake = true → t < 16 → s.eng.on (MBX_CFG_EN t) = true → s.eng.mSender t 0 by_ = true →
    let e := s.eng
    let x := e.mdir t 0
    let refused (off : Nat) (e : Engine) : Engine := e.raiseT t { block := 0x09, code := 0x03, sev := .warn, hm := by_.hm, w2 := off, w3 := 7 };
    (e.isStandby = true → hmOrigin by_.hm ≠ 3 → exec (.mbxHdrWrite by_ t 0 v) s = s.does (refused 0x100) ∧ exec (.mbxHdrcWrite by_ t 0 v) s = s.does (refused 0x104) ∧
      exec (.mbxDataWrite by_ t 0 v) s = s.does (refused 0x108) ∧ exec (.mbxGo by_ t 0) s = s.does (refused 0x110)) ∧
    (e.isStandby = false → e.forwarding = true → e.mBlock t 0 = false → x.isOpen = true → x.left = 1 → exec (.mbxDataWrite by_ t 0 v) s = s.does fun e =>
      let ws := x.open_ ++ [v]
      ((e.setMdir t 0 { x with open_ := ws, left := 0 }).setMdir t 0 { x with open_ := [], left := 0, isOpen := false, fwd := x.fwd + ws.length }).forward
        by_ (.msg t ws))

/-- EVQ_POP, EVQ_OVERFLOW, DOORBELL_RING, DOORBELL_WAKE. -/
def Obligations.EventQueueAndDoorbells : Prop :=
  ∀ (s : State) (by_ : Sender) (t : Nat), s.awake = true →
    let e := s.eng
    let does (c : Instr) (f : Engine → Engine) : Prop := exec c s = s.does f
    let event (code : Nat) (sev : Sev) (a b : Nat) (e : Engine) : Engine :=
      e.raiseT t { block := 0x09, code := code, sev := sev, hm := by_.hm, w2 := a, w3 := b }
    let here (a : Nat) : Prop := e.direct by_ a = true
    let q := Tbl.get [] e.mbx.evq t
    let lost := Tbl.get 0 e.mbx.evqLost t
    (by_.isTenant t = false → by_.isCC = false → does (.evqPop by_ t) fun e => { e with rdata := 0#32 }) ∧
    ((by_.isTenant t = true ∨ by_.isCC = true) →
      (q = [] → does (.evqPop by_ t) fun e => { e.capture (MBX_EVQ_W0 t) by_.hm [0, 0, 0] with rdata := 0#32 }) ∧
      (∀ r rs, q = r :: rs → does (.evqPop by_ t) fun e =>
        { (e.updMbx fun m => { m with evq := Tbl.set [] m.evq t rs }).capture (MBX_EVQ_W0 t) by_.hm ((r.words.drop 1).map (·.toNat)) with
          rdata := r.words.headD 0#32 })) ∧
    (lost ≠ 0 → q.length < 64 → does (.evqOverflow t) fun e => e.updMbx fun m => { m with
      evq := Tbl.set [] m.evq t (q ++ [{ block := 0x09, code := 0x07, sev := .warn, tenant := t, w2 := lost, esc := e.tick.esc % 2 ^ 32, queue := some t }])
      evqLost := Tbl.set 0 m.evqLost t 0 }) ∧
    (lost = 0 ∨ 64 ≤ q.length → exec (.evqOverflow t) s = .next s) ∧
    (e.on (MBX_CFG_EN t) = true →
      (∀ k, here (MBX_DB_RING t) → k < 16 → e.mHost t by_ = true ∨ by_.isCC = true →
        (e.on (MBX_DB_MAP_V t k) = false → does (.doorbellRing by_ t (BitVec.ofNat 32 (2 ^ k))) fun e => e.put ⟨MBX_DB_PEND t, k, 1⟩ 1) ∧
        ((e.put ⟨MBX_DB_PEND t, k, 1⟩ 1).on (MBX_DB_MAP_V t k) = true → does (.doorbellRing by_ t (BitVec.ofNat 32 (2 ^ k))) fun e =>
          (e.put ⟨MBX_DB_PEND t, k, 1⟩ 1).schedReadyWrite by_ (e.get (MBX_DB_MAP_IDX t k)) (e.get (MBX_DB_MAP_CTR t k)))) ∧
      (here (MBX_DB_RING t) → e.mHost t by_ = false → by_.isCC = false → (by_.dma = true ∨ hmOrigin by_.hm ≠ 2) → ∀ v, does (.doorbellRing by_ t v) (event 0x03 .warn 0x500 1)) ∧
      (here (MBX_DB_WAKE t) → e.mHost t by_ = false → does (.doorbellWake by_ t) (event 0x03 .warn 0x508 1)) ∧
      (here (MBX_DB_WAKE t) → e.mHost t by_ = true →
        (e.get PWR_STATUS_MODE = 1 ∨ e.get PWR_STATUS_MODE = 2 → does (.doorbellWake by_ t) fun e => event 0x08 .note by_.hm 0 (e.requestRun 4)) ∧
        (e.get PWR_STATUS_MODE = 0 → exec (.doorbellWake by_ t) s = .next s)))

/-- PATCH_ENTRY_WRITE, ROUTE_MUTE_CMD, CONTRIBUTION_WRITE, SUMX_LIST_WRITE, CHAIN_WRITE, COEF_WRITE, EQA_CLEAR. -/
def Obligations.AudioTableWrites : Prop :=
  ∀ (s : State) (by_ : Sender) (k d : Nat) (v u : Word), s.awake = true → k < 2 → d < 2048 →
    let e := s.eng
    let does (c : Instr) (f : Engine → Engine) : Prop := exec c s = s.does f
    let tell (o : Option Nat) (x : Evt) (e : Engine) : Engine := match o with | some t => e.raiseT t x | none => e.raise x
    let admits (o : Option Nat) : Bool := by_.isCC || (match o with | some t => by_.isTenant t | none => false)
    let fault (a : Nat) (e : Engine) : Engine := e.accessFault (by_.hm % 16) a a kOwn true by_.agent by_.hm
    let store (a : Nat) (w : Word) (e : Engine) : Engine := (e.wr a w).keepCopy a
    let armed (a g : Nat) (e : Engine) : Engine := e.writeArmed by_ a g
    let s0 := e.bStarEsc
    let here (a : Nat) : Prop := e.direct by_ a = true
    let pa (k : Nat) := 0x50000000 + 0x8000 * k + 4 * d
    let po := e.destOwner d
    let patch (k : Nat) : Instr := .patchEntryWrite by_ k d v
    let pRefused (r : Nat) : Engine → Engine := tell po { block := 0x0A, code := 0x01, sev := .warn, hm := by_.hm, w2 := pa k, w3 := r }
    let ca (k i : Nat) := 0x50100000 + 0x80000 * k + 8 * d + 4 * i
    let co := e.conOwner d
    let both : Instr := .contributionWrite by_ k d (some v) (some u)
    let cRefused (r : Nat) : Engine → Engine := tell co { block := 0x0B, code := 0x03, sev := .warn, hm := by_.hm, w2 := ca k 0, w3 := r }
    (here (patchAddr k d) → admits po = false → does (patch k) (fault (pa k))) ∧
    (here (patchAddr k d) → admits po = true →
      (halfOk v = false → does (patch k) fun e => pRefused 1 (e.count ASSAY_WRITE_CNT_COUNT)) ∧
      (∀ r, halfOk v = true → e.srcRefusal (v.toNat % 2 ^ 13) (senderTenant by_) = some r → r ≠ 1 → does (patch k) (pRefused r)) ∧
      (halfOk v = true → e.srcRefusal (v.toNat % 2 ^ 13) (senderTenant by_) = none →
        (k = e.get ROUTE_STATUS_BANK → e.isQuar (pa k) = false → e.on SAFE_CTRL_SHADOW = false → does (patch k) fun e =>
          (store (pa k) v e).destChange d s0 (.entry (v.toNat % 2 ^ 16) (e.destLen d))) ∧
        (k ≠ e.get ROUTE_STATUS_BANK →
          (∀ g, e.armedRoute = some g → does (patch k) (armed (pa k) g)) ∧
          (e.armedRoute = none → e.isQuar (pa k) = false → does (patch k) (store (pa k) v))))) ∧
    (here ROUTE_MUTE_CMD → let x := v.toNat % 2 ^ 13
     (e.destAdmits by_ x = true → (idxRange false x).isSome = true → does (.routeMuteCmd by_ v) fun e =>
        e.destChange x s0 (.pmute (v.getLsbD 16) (v.toNat / 2 ^ 20 % 2 ^ 12 + 1))) ∧
     (e.destAdmits by_ x = false → does (.routeMuteCmd by_ v) (tell (senderTenant by_) { block := 0x0A, code := 0x03, sev := .warn, hm := by_.hm, w2 := 0x010, w3 := 0 }))) ∧
    (here (conAddr k d 0) → here (conAddr k d 1) → admits co = false → does both (fault (ca k 0)) ∧ does (.contributionWrite by_ k d none (some u)) (fault (ca k 1))) ∧
    (here (conAddr k d 0) → admits co = true →
      (halfOk v = false ∨ gchkOk u = false → does both fun e => cRefused 1 (e.count ASSAY_WRITE_CNT_COUNT)) ∧
      (halfOk v = true → gchkOk u = true → v.getLsbD 15 = true → does both (cRefused 2)) ∧
      (halfOk v = true → gchkOk u = true → v.getLsbD 15 = false → e.srcRefusal (v.toNat % 2 ^ 13) (senderTenant by_) = none →
        e.isQuar (ca k 0) = false →
        (k = e.get SUMX_STATUS_BANK → e.on SAFE_CTRL_SHADOW = false → does both fun e =>
          let t := store (ca k 1) u (store (ca k 0) v e)
          t.conChange d s0 (.entry (v.toNat % 2 ^ 16) (u.toNat % 2 ^ 24) (t.sumxLen (t.conOwner d)))) ∧
        (k ≠ e.get SUMX_STATUS_BANK →
          (∀ g, e.armedSumx = some g → does both (armed (ca k 0) g)) ∧
          (e.armedSumx = none → does both fun e => store (ca k 1) u (store (ca k 0) v e))))) ∧
    (d < 256 → here (listAddr k d) →
      let a := listAddr k d
      let o := e.busOwner d
      (admits (some o) = false → does (.sumxListWrite by_ k d v) (tell (senderTenant by_) { block := 0x0B, code := 0x07, sev := .warn, hm := by_.hm, w2 := a - 0x400B0000, w3 := 0 })) ∧
      (admits (some o) = true → (k ≠ e.get SUMX_STATUS_BANK → e.armedSumx = none) →
        (e.listInRange d v = false → does (.sumxListWrite by_ k d v) fun e =>
          e.raiseT o { block := 0x0B, code := 0x04, sev := .warn, hm := by_.hm, w2 := d, w3 := k }) ∧
        (e.listInRange d v = true → e.on (SUMX_BUS_CFG_EN d) = false → e.on SAFE_CTRL_SHADOW = false →
          ((e.wrCp a v).listChange k d s0 v).isQuar a = false →
          does (.sumxListWrite by_ k d v) fun e => (e.wrCp a v).listChange k d s0 v)) ∧
      (∀ g, admits (some o) = true → k ≠ e.get SUMX_STATUS_BANK → e.armedSumx = some g → does (.sumxListWrite by_ k d v) (armed a g))) ∧
    (∀ i, i < 8 → here (chainAddr d i) →
      let a := chainAddr d i
      let o := e.chainOwner d
      (admits o = false → does (.chainWrite by_ d i v) (fault a)) ∧
      (admits o = true →
        (∀ r, e.chainRefusal d i v = some r → does (.chainWrite by_ d i v) (tell o { block := 0x0C, code := 0x02, sev := .warn, hm := by_.hm, w2 := d, w3 := r })) ∧
        (e.chainRefusal d i v = none → (store a v e).isQuar (chainAddr d 0) = false → does (.chainWrite by_ d i v) fun e =>
          let t := store a v e
          t.chainChange d s0 (.entry (t.rd (chainAddr d 0)) (t.rd (chainAddr d 1)) (t.rd (chainAddr d 2)))))) ∧
    (∀ w, w < 122880 → here (coefAddr k w) →
      let a := coefAddr k w
      let o := e.secOwner (w / 5)
      (admits o = false → does (.coefWrite by_ k w v) (fault a)) ∧
      (admits o = true →
        (e.secUser (w / 5) = none → does (.coefWrite by_ k w v) (store a v)) ∧
        (∀ c, e.secUser (w / 5) = some c →
          (e.get (chBank c) = k → does (.coefWrite by_ k w v) (tell o { block := 0x0C, code := 0x03, sev := .warn, hm := by_.hm, w2 := a, w3 := 0 })) ∧
          (e.get (chBank c) ≠ k →
            (∀ g, e.armedChain c = some g → does (.coefWrite by_ k w v) (armed a g)) ∧
            (e.armedChain c = none → does (.coefWrite by_ k w v) (store a v)))))) ∧
    (here EQA_CLEAR → let c := v.toNat % 2 ^ 11
     (admits (e.chainOwner c) = true → does (.eqaClear by_ v) fun e => e.chainChange c s0 .clear) ∧
     (admits (e.chainOwner c) = false → does (.eqaClear by_ v)
       (tell (senderTenant by_) { block := 0x0C, code := 0x05, sev := .warn, hm := by_.hm, w2 := 0x010, w3 := 0 })))

/-- SUMX_SUM_JOB, SUMX_FINISH_JOB, EQA_CHAIN_JOB, TAP_PEAK_CAPTURE, LOUD_BLOCK. SAFE_ARM, SAFE_ARM_CHECK_DONE, SAFE_DISARM, SAFE_CLRINC, SAFE_SWAP,
SYNC_DONE, in an engine that is not paired; and in a pair (R426). -/
def Obligations.AudioAndSafeJobs : Prop :=
  ((∀ (e : Engine) (n b j : Nat), j < (e.conCheck n).nSamp →
    Tbl.get 0 (e.sumBus n b).sumx.buf (32 * n + j) = ((e.conCheck n).busSum n b j).1 ∧ Tbl.get 0 (e.sumBus n b).sumx.bufBlk n = b + 1) ∧
  (∀ (l : LimSt) (c : Int) (alpha : Nat) (x : Int), 0 ≤ c → -c ≤ (l.step c alpha x).2 ∧ (l.step c alpha x).2 ≤ c) ∧
  (∀ (st : SecSt) (b0 b1 b2 a1 a2 x : Int) (rest : List Int),
    let acc := b0 * x + b1 * st.x1 + b2 * st.x2 - a1 * st.y1 - a2 * st.y2
    let y := (2 * acc + 2 ^ 30).fdiv (2 ^ 31)
    let v := if y < -2 ^ 39 then -2 ^ 39 else if 2 ^ 39 - 1 < y then 2 ^ 39 - 1 else y
    secStep st (b0 :: b1 :: b2 :: a1 :: a2 :: rest) false true false x = ({ x1 := x, x2 := st.x1, y1 := v, y2 := st.y1 }, v, v != y)) ∧
  ∀ (s : State) (by_ : Sender) (m : Nat), s.awake = true → m < 16 →
    let e := s.eng
    let does (c : Instr) (f : Engine → Engine) : Prop := exec c s = s.does f
    let told (o : Option Nat) (x : Evt) (e : Engine) : Engine := match o with | some t => e.raiseT t x | none => e.raise x
    let job (fin : Bool) : Instr := if fin then .sumxFinishJob else .sumxSumJob
    (∀ fin d n, Tbl.get none e.sched.accel 2 = some d → (sumxSteps ((e.img d).getD 0 0#32))[Tbl.get 0 e.sched.step 2]? = some (fin, n) →
      exec (job (!fin)) s = .next s ∧
      (e.on (SUMX_BUS_CFG_EN n) = false ∨ e.descTenant d ≠ some (e.busOwner n) ∨ e.busCap ≤ n → does (job fin) fun e =>
        (told (e.descTenant d) { block := 0x0B, code := 0x08, sev := .fault, hm := 0xFF, w2 := d, w3 := n } e).accelFault 2 1) ∧
      (e.on (SUMX_BUS_CFG_EN n) = true → e.descTenant d = some (e.busOwner n) → n < e.busCap → does (job fin) fun e =>
        let b := (e.desc d).bound / e.nSamp
        (if fin then e.finishBus n b else e.sumBus n b).updSched fun x =>
          { x with step := Tbl.set 0 x.step 2 (Tbl.get 0 e.sched.step 2 + 1) })) ∧
    (∀ d c, Tbl.get none e.sched.accel 1 = some d → (eqaSteps ((e.img d).getD 0 0#32))[Tbl.get 0 e.sched.step 1]? = some c →
      let b := (e.desc d).bound / e.nSamp
      (∀ r, e.chainFault c b (e.descTenant d) = some r → does .eqaChainJob fun e =>
        (told (e.descTenant d) { block := 0x0C, code := 0x01, sev := .fault, hm := 0xFF, w2 := d, w3 := c + 2 ^ 12 * r } e).accelFault 1 r) ∧
      (e.chainFault c b (e.descTenant d) = none → e.get ADAPT_STATUS_LEVEL < 2 → does .eqaChainJob fun e =>
        (e.chainProcess c b false).updSched fun x => { x with step := Tbl.set 0 x.step 1 (Tbl.get 0 e.sched.step 1 + 1) })) ∧
    (∀ k, k < 4096 → does (.tapPeakCapture by_ k) fun e =>
      { e.capture (SUMX_TAP_PEAK k) by_.hm [(e.rd (SUMX_TAP_MSQ k)).toNat] with rdata := e.rd (SUMX_TAP_PEAK k) }) ∧
    (let l := Tbl.get {} e.sumx.loud m
     (l.cnt ≠ 0 → l.cnt = e.fs / 10 → ∃ v, does (.loudBlock m) fun e =>
        (((((e.wr (SUMX_LOUD_VAL m) (BitVec.ofNat 32 v)).wr (SUMX_LOUD_ESC m) (BitVec.ofNat 32 l.from_)).put (SUMX_LOUD_SEQ_SEQ m)
          (e.get (SUMX_LOUD_SEQ_SEQ m) + 1)).updSumx fun x => { x with loud := Tbl.set {} x.loud m { l with cnt := 0, sum := [] } })).raise
          { block := 0x0B, code := 0x05, sev := .note, hm := 0xFF, w2 := m, w3 := v }) ∧
     (l.cnt = 0 ∨ l.cnt ≠ e.fs / 10 → exec (.loudBlock m) s = .next s))) ∧
  (∀ (s : State) (by_ : Sender) (g : Nat), s.awake = true → g < 16 → s.eng.isStandby = false → s.eng.forwarding = false →
    let e := s.eng
    let x := e.grp g
    let st := e.grpState g
    let does (c : Instr) (f : Engine → Engine) : Prop := exec c s = s.does f
    let event (code : Nat) (sev : Sev) (hm w3 : Nat) (e : Engine) : Engine := e.safeEvt g code sev hm w3
    let refused (hm r : Nat) : Engine → Engine := event 0x02 .warn hm r
    let state (n : Nat) (e : Engine) : Engine := e.put (SAFE_GRP_STATE_STATE g) n
    let idle (e : Engine) : Engine := ((state 0 e).put (SAFE_GRP_STATE_TIMED g) 0).updGrp g fun _ => {}
    (∀ r, e.armEarly by_ g = some r → does (.safeArm by_ g) (refused by_.hm r)) ∧
    (e.armEarly by_ g = none → does (.safeArm by_ g) fun e =>
      let t := (state 1 e).put (SAFE_GRP_STATE_TIMED g) 0
      t.updGrp g fun _ => { chains := t.scopeChains g, hm := by_.hm, entry := none }) ∧
    (e.safeMay by_ g = false → e.armEarly by_ g = some 1) ∧
    (e.safeMay by_ g = true → st ≠ 0 → e.armEarly by_ g = some 2) ∧
    (x.entry = none →
      (st ≠ 1 → exec (.safeArmCheckDone g) s = .next s) ∧
      (st = 1 →
        (∀ r, e.armLate g = some r → r ≠ 6 → does (.safeArmCheckDone g) fun e => idle (refused x.hm r e)) ∧
        (e.armLate g = none → does (.safeArmCheckDone g) fun e => event 0x01 .note x.hm 0 ((state 2 e).updGrp g fun x =>
          { x with at_ := some e.bStarEsc })))) ∧
    (e.safeMay by_ g = false → does (.safeDisarm by_ g) (refused by_.hm 1)) ∧
    (e.safeMay by_ g = true →
      (st ≠ 2 ∨ x.fired = true → does (.safeDisarm by_ g) (refused by_.hm 2)) ∧
      (st = 2 → x.fired = false → x.entry = none → does (.safeDisarm by_ g) fun e => event 0x06 .note by_.hm 0 (idle e))) ∧
    (by_.isCC = true → does (.safeClrinc by_ g) fun e => e.updSafe fun y =>
      { y with inc := y.inc.filter fun b => !(e.scopeBanks g true).contains b }) ∧
    (by_.isCC = false → does (.safeClrinc by_ g) (refused by_.hm 1)) ∧
    (∀ b, x.at_ = some b → x.entry = none → st = 2 → x.fired = true → x.sync = none → x.chains = [] → e.cpOn (SAFE_GRP_CFG_ROUTE g) = true →
      e.cpOn (SAFE_GRP_CFG_SUMX g) = false → e.scopeTenants g = [] → ∃ u, exec (.safeSwap g) s = .next u ∧
        u.eng.get ROUTE_STATUS_BANK = 1 - e.get ROUTE_STATUS_BANK ∧ u.eng.get SUMX_STATUS_BANK = e.get SUMX_STATUS_BANK ∧
        u.eng.rd (SAFE_GRP_ESC_LO g) = BitVec.ofNat 32 (e.pairEsc b) ∧ u.eng.get (SAFE_GRP_STATE_SWAPS g) = (e.get (SAFE_GRP_STATE_SWAPS g) + 1) % 2 ^ 16) ∧
    (st = 3 → e.cpOn (SAFE_GRP_CFG_ROUTE g) = false → e.cpOn (SAFE_GRP_CFG_SUMX g) = false → x.chains = [] →
      does (.syncDone g) fun e => idle (event 0x04 .note x.hm 0 e)) ∧
    (st ≠ 3 → exec (.syncDone g) s = .next s)) ∧
  (∀ (s : State) (by_ : Sender) (g : Nat), s.awake = true → g < 16 →
    let refused (c : Instr) : Prop := exec c s = s.does fun e => e.safeEvt g 0x02 .warn by_.hm 1
    (s.eng.isStandby = true → hmOrigin by_.hm ≠ 3 → refused (.safeArm by_ g) ∧ refused (.safeDisarm by_ g) ∧ refused (.safeClrinc by_ g)) ∧
    (s.eng.isStandby = false → s.eng.forwarding = true → by_.forwards = true →
      exec (.safeDisarm by_ g) s = s.does (fun e => e.forward by_ (.write SAFE_CMD (BitVec.ofNat 32 (2 ^ 9 + g)))) ∧
      exec (.safeClrinc by_ g) s = s.does (fun e => e.forward by_ (.write SAFE_CMD (BitVec.ofNat 32 (2 ^ 10 + g))))))

/-- SAP_INPUT_FRAME, SAP_OUTPUT_FRAME, SAP_CLOCK_LOSS, MADI_RX_FRAME, MADI_RX_NOSIG, MADI_TX_FRAME. -/
def Obligations.SerialPorts : Prop :=
  (∀ (first active start cb ub : Bool) (v : Int), madiParity (madiSub first active start v cb ub).toNat = true) ∧
  (∀ (e : Engine) (g l i : Nat), e.sapDrives g = true → e.on (SAP_OUT_STATUS_FAULT l) = false → i < lnSlots (e.lnCfg true l) →
    (Tbl.get [] (e.sapLineOut g l []).sap.wire l)[i]? = some (if (actives (e.lnCfg true l) (e.lnMask true l)).contains i then some (e.sapSlot l i g).1
      else if (e.lnCfg true l).getLsbD 15 then some 0 else none)) ∧
  ∀ (s : State) (g p bits phase : Nat) (lines margin bad : List (List Nat)), s.awake = true → g < 4 → p < 2 →
    let e := s.eng
    let st := e.get (SAP_GRP_STATUS_STATE g)
    let master := e.on (SAP_GRP_CFG_MASTER g)
    let frame : Instr := .sapInputFrame g bits phase lines margin
    let lost (by_ : Instr) : Prop := ∃ u, exec by_ s = .next u ∧ u.eng.get (SAP_GRP_STATUS_STATE g) = 1 ∧
      u.eng.get (SAP_GRP_COUNT_RESYNCS g) = min (e.get (SAP_GRP_COUNT_RESYNCS g) + 1) (2 ^ (SAP_GRP_COUNT_RESYNCS g).width - 1)
    let does (c : Instr) (f : Engine → Engine) : Prop := exec c s = s.does f
    (e.grpOn g = false → exec frame s = .next s ∧ exec (.sapClockLoss g) s = .next s) ∧
    (e.grpOn g = true →
      (∃ u, exec frame s = .next u ∧ u.eng.sap.frames =
        (e.sap.frames.filter fun f => !(f.grp == g && f.esc == e.tick.esc + 2)) ++ [{ grp := g, esc := e.tick.esc + 2, lines := lines }]) ∧
      (master = false → st = 2 → bits ≠ grpBits (e.rd (SAP_GRP_CFG g)) → lost frame) ∧
      (∀ k, master = false → st = 1 → Tbl.get none e.sap.cand g = some k → bits = grpBits (e.rd (SAP_GRP_CFG g)) →
        ∃ u, exec frame s = .next u ∧ u.eng.get (SAP_GRP_STATUS_STATE g) = 2) ∧
      (master = false → st = 2 → lost (.sapClockLoss g)) ∧
      (master = false → st ≠ 2 → does (.sapClockLoss g) fun e => e.updSap fun x => { x with cand := Tbl.set none x.cand g none }) ∧
      (master = true → exec (.sapClockLoss g) s = .next s)) ∧
    (∀ l, e.grpLines true g = [l] →
      (e.sapDrives g = false → does (.sapOutputFrame g bad) fun e => e.updSap fun x => { x with wire := Tbl.set [] x.wire l [] }) ∧
      (e.sapDrives g = true → e.on (SAP_OUT_STATUS_FAULT l) = false → (e.on (SAP_DRV_CHECK l) = false ∨ bad.getD l [] = []) → ∃ u, exec (.sapOutputFrame g bad) s = .next u ∧
        Tbl.get [] u.eng.sap.wire l = Tbl.get [] (e.sapLineOut g l []).sap.wire l ∧
        Tbl.get 0 u.eng.sap.outIn g = Tbl.get 0 e.sap.outIn g - 1)) ∧
    (let mst := MADI_RX_STATUS_STATE p
     let mode := e.get (MADI_RX_CFG_MODE p)
     let x := e.madiRx p
     (∀ f, e.rxOn p = false → exec (.madiRxFrame p f) s = .next s) ∧
     (∀ f : MadiFrame, e.rxOn p = true → f.ok = true → f.subs.length = madiChans mode → (f.f96 = true ↔ mode = 2) →
        (e.get mst = 1 → x.good = 1 → ∃ u, exec (.madiRxFrame p f) s = .next u ∧ u.eng.get mst = 2) ∧
        (e.get mst = 0 → ∃ u, exec (.madiRxFrame p f) s = .next u ∧ u.eng.get mst = 1 ∧ (u.eng.madiRx p).good = 1)) ∧
     (∀ f : MadiFrame, e.rxOn p = true → f.ok = false → e.get mst = 2 → ∃ u, exec (.madiRxFrame p f) s = .next u ∧ u.eng.get mst = 1) ∧
     (∃ u, exec (.madiRxNosig p) s = .next u ∧ u.eng.get mst = 0 ∧ (u.eng.madiRx p).good = 0)) ∧
    (e.madiOn = false ∨ e.on (MADI_TX_CFG_EN p) = false → does (.madiTxFrame p) fun e => e.updMadi fun x => { x with tx := Tbl.set [] x.tx p [] }) ∧
    (e.madiOn = true → e.on (MADI_TX_CFG_EN p) = true → e.outEnabled = true → ∃ u, exec (.madiTxFrame p) s = .next u ∧
      (Tbl.get [] u.eng.madi.tx p).length = madiChans (e.get (MADI_TX_CFG_MODE p)))

/-- NET_FRAME_RECEIVE, LEG_LOSS, FLOW_LOSS, MEDIA_PACKET_LAUNCH, CONTROL_FRAME_TRANSMIT, FLOW_ENABLE, FLOW_DISABLE, LINK_UP, LINK_DOWN. -/
def Obligations.NetworkFramesAndFlows : Prop :=
  ∀ (s : State) (by_ : Sender) (p f : Nat) (fr : List Byte) (ok tx : Bool), s.awake = true → p < 2 → f < 1024 →
    let e := s.eng
    let does (c : Instr) (g : Engine → Engine) : Prop := exec c s = s.does g
    let event (code : Nat) (sev : Sev) (w3 : Nat) (e : Engine) : Engine := e.raise { block := 0x10, code := code, sev := sev, hm := 0xFF, w2 := p, w3 := w3 }
    let flow (t : Bool) (hm code : Nat) (sev : Sev) (w3 : Nat) (e : Engine) : Engine :=
      let x : Evt := { block := 0x11, code := code, sev := sev, hm := hm, w2 := f + (if t then 1024 else 0), w3 := w3 }
      match e.flowOwner t f with | some o => e.raiseT o x | none => e.raise x
    let receive : Instr := .netFrameReceive p fr ok none
    let good := ok = true ∧ 60 ≤ fr.length ∧ fr.length ≤ (if e.on (NET_CFG_JUMBO p) then 9018 else 1518)
    let ours := e.macOk p (frN fr 0 6) = true
    let seen (e : Engine) : Engine := e.count (NET_RX_OK_COUNT p)
    (e.portUp p = false → exec receive s = .next s) ∧
    (e.portUp p = true →
      (¬ good → does receive fun e => e.count (NET_RX_ERR_COUNT p)) ∧
      (good → frType fr = 0x8808 → exec receive s = .next s) ∧
      (good → frType fr ≠ 0x8808 → ¬ ours → does receive fun e => e.count (NET_RX_FILTER_COUNT p)) ∧
      (good → frType fr ≠ 0x8808 → ours →
        (∀ k, (seen e).mediaFlow p fr = some k → does receive fun e => (seen e).rxPacket k p fr ((seen e).ingressTime p false e.time.t)) ∧
        ((seen e).mediaFlow p fr = none → does receive fun e => (seen e).ctlReceive p fr e.time.t))) ∧
    (e.on (NET_STATUS_LINK p) = false → does (.linkUp p) (fun e => event 0x01 .note 0 (e.put (NET_STATUS_LINK p) 1)) ∧ exec (.linkDown p) s = .next s) ∧
    (e.on (NET_STATUS_LINK p) = true → does (.linkDown p) (fun e => event 0x02 .warn 0 (e.put (NET_STATUS_LINK p) 0)) ∧ exec (.linkUp p) s = .next s) ∧
    (let a := flowAddr tx f 14
     let may := by_.isCC || (match e.flowOwner tx f with | some t => by_.isTenant t | none => false)
     let run : Fld := ⟨flowStat tx f 0, 0, if tx then 1 else 2⟩
     (e.direct by_ a = true → may = false → does (.flowEnable by_ tx f) (fun e => e.accessFault (by_.hm % 16) a a kOwn true by_.agent by_.hm) ∧
        does (.flowDisable by_ tx f) fun e => e.accessFault (by_.hm % 16) a a kOwn true by_.agent by_.hm) ∧
     (e.direct by_ a = true → may = true →
        (∀ r, (e.wrCp a 1#32).flowRefusal tx f = some r → does (.flowEnable by_ tx f) (flow tx by_.hm 0x01 .warn r)) ∧
        ((e.wrCp a 1#32).flowRefusal tx f = none → ∃ u, exec (.flowEnable by_ tx f) s = .next u ∧ u.eng.get run = 1 ∧
          (tx = false → u.eng.rxFlow f = {} ∧ ∀ k, 0 < k → k < 8 → u.eng.rd (flowStat tx f k) = 0#32)) ∧
        (e.flowEn tx f = true → ∃ u, exec (.flowDisable by_ tx f) s = .next u ∧ u.eng.get run = 0 ∧ u.eng.cpVal a = 0#32) ∧
        (e.flowEn tx f = false → does (.flowDisable by_ tx f) fun e => e.wrCp a 0#32))) ∧
    (let x := e.rxFlow f
     let un := if p = 0 then x.un0 else x.un1
     let down := if p = 0 then x.down0 else x.down1
     let n := e.fLoss f * e.fs / 1000
     (e.flowEn false f = true → e.hasLeg false f p = true → down = false → n ≤ un → does (.legLoss f p) fun e =>
        flow false 0xFF 0x02 .warn p ((e.put (rxLegUp f p) 0).updRx f fun x => if p = 0 then { x with down0 := true } else { x with down1 := true })) ∧
     (e.flowEn false f = false ∨ un < n → exec (.legLoss f p) s = .next s) ∧
     (e.flowEn false f = true → e.get (rxState f) ≠ 3 → n ≤ x.inval → does (.flowLoss f) fun e =>
        flow false 0xFF 0x04 .fault 0 ((e.put (rxState f) 3).count (rxCnt f 7 16 16))) ∧
     (e.flowEn false f = false ∨ e.get (rxState f) = 3 ∨ x.inval < n → exec (.flowLoss f) s = .next s)) ∧
    (Tbl.get none e.net.txNext f = none → exec (.mediaPacketLaunch f) s = .next s) ∧
    (∀ m, Tbl.get none e.net.txNext f = some m →
      (e.flowEn true f = false ∨ e.stopped = true ∨ e.time.t < e.txDue f m ∨ e.txBehind f m = true → exec (.mediaPacketLaunch f) s = .next s) ∧
      (e.flowEn true f = true → e.stopped = false → e.txDue f m ≤ e.time.t → e.txBehind f m = false →
        ∃ u, exec (.mediaPacketLaunch f) s = .next u ∧ Tbl.get none u.eng.net.txNext f = some (m + e.fK true f) ∧
          (e.on ⟨flowStat true f 0, 8, 1⟩ = false → e.hasLeg true f p = true → e.portUp p = true →
            e.txenAt p ((e.time.latchEsc : Int) + (m - e.time.mcc)) = true →
            ∃ q, Tbl.get none u.eng.net.media p = some q ∧ q.flow = f ∧ q.port = p ∧ q.data.length = e.fK true f * e.fCh true f))) ∧
    (let base := (e.rd (NET_CTX_BASE p)).toNat
     let log := e.get (NET_CTX_LEN_LOG2 p)
     let rd := e.get (NET_CTX_RD_IDX p) % 2 ^ log
     let a := base + 2048 * rd
     let len := (e.ldW a).toNat % 2 ^ 14
     let next (e : Engine) : Engine := e.put (NET_CTX_RD_IDX p) ((rd + 1) % 2 ^ log)
     let wait := e.portUp p = false ∨ rd = e.get (NET_CTX_WR_IDX p) % 2 ^ log ∨ e.ctlRingOk base log = false
     (wait → exec (.controlFrameTransmit p) s = .next s) ∧
     (¬ wait → (len < 60 ∨ 2016 < len → does (.controlFrameTransmit p) fun e =>
          (next e).raise { block := 0x10, code := 0x05, sev := .warn, hm := 0xFF, w2 := 0x13C + 0x100 * p, w3 := 0 }) ∧
        (60 ≤ len → len ≤ 2016 → ptpEvent (e.ldBytes (a + 32) len) = none → does (.controlFrameTransmit p) fun e =>
          ((next e).count (NET_TX_OK_COUNT p)).updNet fun x => { x with ctl := Tbl.set [] x.ctl p (e.ldBytes (a + 32) len) })))

/-- HEARTBEAT, DIGEST, FWD_WRITE, FWD_TAQ, FWD_MSG, MIRROR, HOSTDATA, COPY, JOIN, ENTER, RECLAIM, SWITCH, RELINQUISH, LEAVE,
SVL_FRAME_ERROR, SVL_RETRANSMIT, LINK_FAIL, TRAINED, LANE_DOWN, LANE_UP. -/
def Obligations.LinkFrames : Prop :=
  ∀ (s : State) (m : SvlRx) (a b n l : Nat) (v : Word) (ws : List Word) (ds : List Nat) (hb : Heartbeat), s.awake = true →
    let e := s.eng
    let d := e.duo
    let does (c : Instr) (f : Engine → Engine) : Prop := exec c s = s.does f
    let frames : List Instr := [.heartbeat m hb.esc hb.state hb.role hb.prop hb.count hb.phase hb.mcc, .digest m a ds, .fwdWrite m a v b, .fwdTaq m a b,
      .fwdMsg m n ws b, .mirror m n l a ws, .hostdata m n b ws, .copy m a b ws, .join m a, .enter m a, .reclaim m a, .switch m a, .relinquish m a, .leave m a]
    let trained := e.on SVL_STATUS_TRAINED = true
    let st := e.get DUO_CTRL_STATE
    let standby := e.on DUO_CTRL_ROLE = true
    let lock := e.lockstep = true
    let took (e : Engine) : Engine := e.updDuo fun d => { d with rxSeq := (d.rxSeq + 1) % 4096 }
    let plan (p : DuoPlan) (e : Engine) : Engine := (took e).updDuo fun d => { d with plan := p }
    let naked (e : Engine) : Engine := (e.count SVL_NAK_COUNT).updDuo fun d => { d with nak := true }
    let own := e.ownBlock
    (∀ f, f ∈ frames → ¬ trained ∨ m.pairId ≠ e.cp DUO_CFG_PAIR_ID → exec f s = .next s) ∧
    (trained → m.pairId = e.cp DUO_CFG_PAIR_ID → m.ack = none → m.nak = false →
      (∀ f, f ∈ frames → m.seq ≠ d.rxSeq → does f naked) ∧
      (m.seq = d.rxSeq →
        (¬ lock → st = 0 → does (.heartbeat m hb.esc hb.state hb.role hb.prop hb.count hb.phase hb.mcc) fun e =>
          ((took e).put DUO_STATUS_LINK_HB 1).updDuo fun d => { d with
            peer := some hb, hbSeen := true, lostEp := false, skewTicks := 0, seen := { d.seen with state := hb.state, phase := hb.phase }
            peerProps := (d.peerProps ++ [(e.ownBlock hb.esc, hb.prop)]).drop (d.peerProps.length - 15) }) ∧
        (¬ lock → does (.digest m a ds) took) ∧
        (lock → (d.digs.find? fun x => x.1 == a) = none → (d.peerDigs.find? fun x => x.1 == a) = none → does (.digest m a ds) fun e =>
          (took e).updDuo fun d => { d with peerDigs :=
            ((d.peerDigs.filter fun x => x.1 != a) ++ [(a, ds.take 16)]).drop ((d.peerDigs.filter fun x => x.1 != a).length - 7) }) ∧
        (standby → ¬ lock → d.plan.join = none →
          let item (act : FwdAct) (e : Engine) : Engine := (took e).updDuo fun d => { d with
            recvd := d.recvd + 1, items := d.items ++ [{ blk := own b, by_ := { hm := m.hm / 64 % 4 * 64 + 0x30 + m.hm % 16 }, act := act }] }
          does (.fwdWrite m a v b) (item (.write a v)) ∧ does (.fwdMsg m n ws b) (item (.msg (n % 16) ws))) ∧
        (¬ standby → does (.fwdWrite m a v b) took ∧ does (.fwdMsg m n ws b) took ∧ does (.fwdTaq m a b) took ∧ does (.relinquish m a) took ∧
          does (.switch m a) took ∧ does (.enter m a) took) ∧
        (standby → a < 1024 → (e.taqEnt a).state = .pending ∨ (e.taqEnt a).state = .resolved → does (.fwdTaq m a b) fun e =>
          ((took e).updDuo fun d => { d with recvd := d.recvd + 1 }).taqResolve a (b - e.escOfs)
            (decide ((e.taqEnt a).byEsc = true ∧ b ≠ (e.taqEnt a).tgtLo.toNat + (e.taqEnt a).tgtHi.toNat * 2 ^ 32))) ∧
        (lock → ws.length = e.nSamp → does (.mirror m n l a ws) fun e => (took e).updDuo fun d =>
          { d with mirror := Tbl.set (0, []) d.mirror (n % 16 * 64 + l) (own a + 2, ws) }) ∧
        (¬ lock → does (.mirror m n l a ws) took ∧ does (.hostdata m n b ws) took) ∧
        (lock → standby → n < 32 → does (.hostdata m n b ws) fun e => (took e).updDuo fun d =>
          { d with host := Tbl.set [] d.host n (Tbl.get [] d.host n ++ [(b, ws)]) }) ∧
        (standby → st = 1 →
          (∀ i, ingotOf a = some i → e.localIngot i = false → does (.copy m a b ws) fun e => ((took e).stWs a ws).put DUO_SYNC_ROUND b) ∧
          does (.enter m a) (fun e => ((took e).put DUO_CTRL_STATE 2).updDuo fun d => { d with plan := { d.plan with join := some (a / e.nSamp) }, recvd := 0 })) ∧
        (e.on DUO_CTRL_EN = true → e.stopped = false → ¬ standby → st = 0 ∨ st = 6 → does (.join m a) fun e =>
          ((((took e).joinStart 0 0xFF).updDuo fun d => { d with peerEs := a }).put DUO_SYNC_ROUND 1 |>.put DUO_SYNC_KIB_LEFT 40960).snap) ∧
        (standby → does (.join m a) took ∧ does (.leave m a) took ∧ does (.reclaim m a) took ∧
          does (.relinquish m a) (plan { d.plan with peerGo := some (own a) })) ∧
        (¬ standby → does (.leave m a) (plan { d.plan with peerGo := some (own a) })) ∧
        (¬ standby → st = 4 → does (.reclaim m a) (plan { d.plan with swap := some (a, false) })) ∧
        (standby → st = 4 → does (.switch m a) (plan { d.plan with swap := some (a, true) })))) ∧
    (trained → does (.svlFrameError .crc) naked ∧ does (.svlFrameError .sequence) naked ∧ does (.svlFrameError .complement) (fun e => (naked e).motion 3) ∧
      exec (.svlFrameError .type) s = .next s ∧ exec (.svlFrameError .pair) s = .next s) ∧
    (∀ f, d.tx.head? = some f →
      (f.tries < 3 → f.cyc + 1844 ≤ e.now → does .svlRetransmit fun e => (e.count SVL_RETX_COUNT).updDuo fun d => { d with
        tx := d.tx.map fun g => if g.seq == f.seq then { g with cyc := e.now, tries := g.tries + 1 } else g }) ∧
      (e.now < f.cyc + 1844 → exec .svlRetransmit s = .next s ∧ exec .linkFail s = .next s) ∧
      (3 ≤ f.tries → f.cyc + 1844 ≤ e.now → exec .svlRetransmit s = .next s ∧ does .linkFail fun e =>
        ((((e.count SVL_FAILS_COUNT).put SVL_STATUS_TRAINED 0).updDuo fun d => { d with tx := [] })).raise
          { block := 0x12, code := 0x04, sev := .warn, w2 := f.seq })) ∧
    (let up := n % 4 &&& e.get SVL_CTRL_LANE_EN
     (e.on SVL_CTRL_EN = true → up ≠ 0 → does (.trained n) fun e => (((e.put SVL_STATUS_LANE_UP up).put SVL_STATUS_TRAINED 1).updDuo fun d =>
        { d with tx := [], txSeq := 0, rxSeq := 0, nak := false }).raise { block := 0x12, code := 0x01, sev := .note, w2 := up }) ∧
     (e.on SVL_CTRL_EN = false ∨ up = 0 → exec (.trained n) s = .next s)) ∧
    (l < 2 → let f : Fld := ⟨SVL_STATUS, l, 1⟩
     let down (e : Engine) : Engine := (e.put f 0).raise { block := 0x12, code := 0x02, sev := .warn, w2 := l }
     (e.on f = true → (down e).get SVL_STATUS_LANE_UP ≠ 0 → does (.laneDown l) down) ∧
     (e.on f = true → (down e).get SVL_STATUS_LANE_UP = 0 → does (.laneDown l) fun e => (down e).put SVL_STATUS_TRAINED 0) ∧
     (e.on f = false → exec (.laneDown l) s = .next s ∧ (e.on SVL_CTRL_EN = true → (e.get SVL_CTRL_LANE_EN).testBit l = true → does (.laneUp l) fun e =>
        (e.put f 1).raise { block := 0x12, code := 0x03, sev := .note, w2 := l })))

/-- LINK_HEARTBEAT_LOST, NET_HEARTBEAT_ABSENT, DUO_JOIN, COPY_ROUND_END, LOCKSTEP_ENTRY, PAIRED, JOIN_CONVERGE_TIMEOUT, FORWARDED_APPLY,
FAILOVER, PRIMARY_GOES_SOLO, REVERT_HOLD_REACHED, RECLAIM_ACK_TIMEOUT, DUO_SWITCH, ROLE_SWAP, DUO_LEAVE, DEPARTURE_AT_F. -/
def Obligations.PairEvents : Prop :=
  ∀ (s : State) (by_ : Sender) (p : JoinPeer), s.awake = true →
    let e := s.eng
    let d := e.duo
    let st := e.get DUO_CTRL_STATE
    let standby := e.on DUO_CTRL_ROLE = true
    let does (c : Instr) (f : Engine → Engine) : Prop := exec c s = s.does f
    let idle (c : Instr) : Prop := exec c s = .next s
    let event (code : Nat) (sev : Sev) (hm w2 w3 : Nat) (e : Engine) : Engine :=
      e.raise { block := 0x13, code := code, sev := sev, hm := hm, w2 := w2, w3 := w3 % 2 ^ 32 }
    let refused : Engine → Engine := event 0x0E .warn by_.hm 0 0
    let late := e.get DUO_TIMEOUT_TICKS
    let gone := e.peerGone = true ∨ e.peerLeft = true
    let b := e.block - 2
    (e.on DUO_STATUS_LINK_HB = false ∨ d.hbAge < late → idle .linkHeartbeatLost) ∧
    (e.on DUO_STATUS_LINK_HB = true → late ≤ d.hbAge → st ≠ 4 ∨ (e.on DUO_STATUS_NET0_HB = false ∧ e.on DUO_STATUS_NET1_HB = false) →
      does .linkHeartbeatLost fun e => e.put DUO_STATUS_LINK_HB 0) ∧
    (e.on DUO_STATUS_LINK_HB = true → late ≤ d.hbAge → st = 4 → e.on DUO_STATUS_NET0_HB = true → (∀ p, p < 11 → e.mirrored p = false) →
      does .linkHeartbeatLost fun e => event 0x06 .warn 0xFF 0 0 (((e.put DUO_STATUS_LINK_HB 0).put DUO_CTRL_STATE 5).put DUO_STATUS_AGREE 0)) ∧
    (d.nhbAge < late → idle .netHeartbeatAbsent) ∧
    (late ≤ d.nhbAge → does .netHeartbeatAbsent fun e => (e.put DUO_STATUS_NET0_HB 0).put DUO_STATUS_NET1_HB 0) ∧
    (let seen (e : Engine) : Engine := e.updDuo fun d => { d with seen := p }
     (by_.isCC = false → d.rejoin = false → does (.duoJoin by_ p) refused) ∧
     (by_.isCC = true →
        (∀ r, (seen e).joinRefusal p = some r → does (.duoJoin by_ p) fun e => event 0x03 .warn by_.hm r 0 (seen e)) ∧
        ((seen e).joinRefusal p = none → does (.duoJoin by_ p) fun e =>
          ((seen e).joinStart 1 by_.hm).svlSend by_.hm (.control .join e.tick.esc)))) ∧
    (st ≠ 1 ∨ standby → idle .copyRoundEnd) ∧
    (st = 1 → ¬ standby →
      (e.staticDirty = false → does .copyRoundEnd fun e =>
        (((e.put DUO_CTRL_STATE 2).put DUO_SYNC_KIB_LEFT 0).updDuo fun d => { d with
          plan := { d.plan with join := some e.entryBlock }, sent := 0 }).svlSend 0xFF (.control .enter (e.pairEsc (e.entryBlock * e.nSamp)))) ∧
      (e.staticDirty = true → 8 ≤ e.get DUO_SYNC_ROUND → does .copyRoundEnd fun e => event 0x03 .warn 0xFF 4 0 e.goSolo) ∧
      (e.staticDirty = true → e.get DUO_SYNC_ROUND < 8 → does .copyRoundEnd fun e =>
        ((e.put DUO_SYNC_ROUND (e.get DUO_SYNC_ROUND + 1)).put DUO_SYNC_KIB_LEFT 4).snap)) ∧
    (∀ j, d.plan.join = some j → st = 2 → ¬ standby →
      (e.block < j → idle .lockstepEntry) ∧
      (j ≤ e.block → e.staticDirty = false → ∃ u, exec .lockstepEntry s = .next u ∧ u.eng.lockstep = true ∧ u.eng.get DUO_CTRL_STATE = 3 ∧
        u.eng.duo.plan.join = none ∧ u.eng.duo.convTicks = 0) ∧
      (j ≤ e.block → e.staticDirty = true → ∃ u, exec .lockstepEntry s = .next u ∧ u.eng.get DUO_CTRL_STATE = 1 ∧ u.eng.duo.plan.join = none)) ∧
    (∀ h, d.plan.paired = some h → st = 3 →
      (e.block < h → idle .paired) ∧
      (h ≤ e.block → ∃ u, exec .paired s = .next u ∧ u.eng.get DUO_CTRL_STATE = 4 ∧ u.eng.on DUO_STATUS_INSYNC = true ∧
        u.eng.get DUO_STATUS_AGREE = 0 ∧ (u.eng.on (NET_STATUS_TXEN 1) = true ↔ standby) ∧ (u.eng.on (NET_STATUS_TXEN 0) = true ↔ ¬ standby))) ∧
    (st = 3 → e.get DUO_JOIN_LIMIT * 10 ≤ d.convTicks → ¬ standby → does .joinConvergeTimeout fun e =>
      event 0x03 .warn 0xFF 5 0 (e.goSolo.setTxen (e.block + 1) 1 1)) ∧
    (st ≠ 3 ∨ d.convTicks < e.get DUO_JOIN_LIMIT * 10 → idle .joinConvergeTimeout) ∧
    (∀ f : Engine, (d.items.filter e.itemDue).foldl Engine.applyItem (e.updDuo fun d => { d with items := d.items.filter fun i => !e.itemDue i }) = f →
      f.get DUO_CTRL_STATE ≠ 2 → does .forwardedApply fun _ => f) ∧
    (¬ standby ∨ st = 0 ∨ ¬ gone → does .failover (·.spkSettle)) ∧
    (standby → gone → st = 4 → does .failover fun e =>
      let t := (e.goSolo.setTxen b 1 1).count DUO_COUNT_FAILOVERS
      (event 0x05 .warn 0xFF (if e.peerLeft then 1 else 0) (t.pairEsc (b * t.nSamp)) (t.updDuo fun d => { d with outOff := false, rejoin := false })).spkSettle) ∧
    (standby → gone → st ≠ 0 → st ≠ 4 → st ≠ 5 → e.cpOn DUO_CFG_TAKE_UNSYNCED = false → d.lostEp = false → does .failover fun e =>
      (event 0x0B .fault 0xFF 0 0 (e.updDuo fun d => { d with lostEp := true })).spkSettle) ∧
    (¬ standby → st ≠ 0 → gone → does .primaryGoesSolo fun e => e.goSolo.setTxen b 1 1) ∧
    (standby ∨ st = 0 ∨ ¬ gone → idle .primaryGoesSolo) ∧
    (standby → st = 4 → e.cpOn DUO_CFG_HOME = true → e.cpOn DUO_CFG_REVERT = true → d.reclaimAt = none → d.plan.swap = none →
      e.get DUO_REVERT_HOLD_TICKS ≤ e.get DUO_STATUS_AGREE → does .revertHoldReached fun e =>
        (e.updDuo fun d => { d with reclaimAt := some e.now }).svlSend 0xFF (.control .reclaim (e.pairEsc ((e.block + e.dF) * e.nSamp)))) ∧
    (st ≠ 4 ∨ ¬ standby → idle .revertHoldReached) ∧
    (∀ c, d.reclaimAt = some c →
      (c + 14746 ≤ e.now → does .reclaimAckTimeout fun e => (e.put DUO_STATUS_AGREE 0).updDuo fun d => { d with reclaimAt := none }) ∧
      (e.now < c + 14746 → idle .reclaimAckTimeout)) ∧
    (by_.isCC = false ∨ st ≠ 4 ∨ standby → does (.duoSwitch by_) refused) ∧
    (by_.isCC = true → st = 4 → ¬ standby → does (.duoSwitch by_) fun e =>
      e.svlSend by_.hm (.control .switch (e.pairEsc ((e.block + e.dF) * e.nSamp)))) ∧
    (∀ esc sw, d.plan.swap = some (esc, sw) → st = 4 → e.ownBlock esc + 2 ≤ e.block → ∃ t : Engine, does .roleSwap (fun _ => t.spkSettle) ∧
      (t.on DUO_CTRL_ROLE = true ↔ ¬ standby) ∧ t.get DUO_STATUS_AGREE = 0 ∧ t.duo.plan.swap = none ∧
      (t.on (NET_STATUS_TXEN 0) = true ↔ standby) ∧ (t.on (NET_STATUS_TXEN 1) = true ↔ ¬ standby)) ∧
    (by_.isCC = false → does (.duoLeave by_) refused) ∧
    (by_.isCC = true → st ≠ 0 → d.plan.leave = none → ∃ f u, exec (.duoLeave by_) s = .next u ∧ u.eng.duo.plan.leave = some (f, 1) ∧ u.eng.get DUO_CTRL_STATE = st) ∧
    (∀ f c, d.plan.leave = some (f, c) → e.block < f + 2 → idle .departureAtF) ∧
    (d.plan.leave = none → e.lockstep = false → idle .departureAtF) ∧
    (∀ f c, d.plan.leave = some (f, c) → f + 2 ≤ e.block → e.clk.departing = false → ∃ t : Engine, does .departureAtF (fun _ => t.dbgRetry.spkSettle) ∧
      t.get DUO_CTRL_STATE = 0 ∧ t.lockstep = false ∧ t.duo.outOff = true ∧ t.on (NET_STATUS_TXEN 0) = false ∧ t.on (NET_STATUS_TXEN 1) = false)

/-- JACK_DET_EDGE, JACK_INSERT_CONFIRM, JACK_REMOVED, JACK_CLASS, CUE_SUPPLIES_ABSENT, BUTTON_SAMPLE, BTN_PRESS, BTN_RELEASE, BTN_LONG. -/
def Obligations.JackAndButtons : Prop :=
  (∀ zl zr ca cb, (jackClassOf zl zr ca cb = 1 ↔ ca < 5 ∧ cb < 5 ∧ 8000 ≤ zl ∧ zl < 1000000 ∧ 8000 ≤ zr ∧ zr < 1000000) ∧
    (jackClassOf zl zr ca cb = 2 ↔ 90 ≤ ca ∧ ca < 230 ∧ cb < 90 ∧ 8000 ≤ zl ∧ zl < 1000000 ∧ 8000 ≤ zr ∧ zr < 1000000) ∧
    (jackClassOf zl zr ca cb = 3 ↔ 90 ≤ cb ∧ cb < 230 ∧ ca < 90 ∧ 8000 ≤ zl ∧ zl < 1000000 ∧ 8000 ≤ zr ∧ zr < 1000000) ∧
    (jackClassOf zl zr ca cb = 4 ↔ ca < 5 ∧ cb < 5 ∧ 1000000 ≤ zl ∧ 1000000 ≤ zr)) ∧
  ∀ (s : State) (level vdd vdda : Bool) (zl zr ca cb code k : Nat), s.awake = true → k < 4 →
    let e := s.eng
    let c := e.cue
    let does (x : Instr) (f : Engine → Engine) : Prop := exec x s = s.does f
    let idle (x : Instr) : Prop := exec x s = .next s
    let on := e.cueOn = true
    let btn := e.get CUE_BTN_STATUS_BTN
    (on → level = e.on CUE_JACK_CFG_POL → does (.jackDetEdge level) fun e => e.updCue fun c => { c with det := level, deb := some true, class_ := false }) ∧
    (on → level ≠ e.on CUE_JACK_CFG_POL → does (.jackDetEdge level) fun e => e.updCue fun c =>
      { c with det := level, deb := some false, class_ := false, muted := true, micStep := 0, hpStep := 0, seen := [], clear := 0 }) ∧
    (on → c.deb = some true → does .jackInsertConfirm fun e => (e.put CUE_JACK_STATUS_INSERTED 1).updCue fun c =>
      { c with deb := none, class_ := true, hpStep := 0 }) ∧
    (c.deb ≠ some true → idle .jackInsertConfirm) ∧
    (on → c.deb = some false → btn = 0 → does .jackRemoved fun e => (((e.put CUE_JACK_STATUS_INSERTED 0).put CUE_JACK_STATUS_CLASS 0).updCue fun c =>
      { c with deb := none, muted := false, seen := [], clear := 0 }).cueEvt 0x02 .note 0 0) ∧
    (c.deb ≠ some false → idle .jackRemoved) ∧
    (on → c.class_ = true → ca < 256 → cb < 256 → does (.jackClass zl zr ca cb) fun e =>
      ((((e.put CUE_JACK_STATUS_CLASS (jackClassOf zl zr ca cb)).put CUE_JACK_STATUS_CODE_A ca).put CUE_JACK_STATUS_CODE_B cb).updCue fun c =>
        { c with class_ := false, muted := false, micStep := 0, hpStep := 0 }).cueEvt 0x01 .note (jackClassOf zl zr ca cb) (ca + 256 * cb)) ∧
    (c.class_ = false → idle (.jackClass zl zr ca cb)) ∧
    does (.cueSuppliesAbsent true true) (fun e => e.updCue fun c => { c with power := true }) ∧
    (vdd = false ∨ vdda = false → does (.cueSuppliesAbsent vdd vdda) fun e => ((((e.updCue fun c => { c with power := false }).wr CUE_JACK_STATUS 0#32).updCue fun c =>
      { c with deb := none, class_ := false, micStep := 0, hpStep := 0 })).spkSettle) ∧
    (e.biased = false → idle (.buttonSample code) ∧ idle (.btnPress k) ∧ idle .btnRelease ∧ idle .btnLong) ∧
    (e.biased = true →
      (∃ u, exec (.buttonSample code) s = .next u ∧ u.eng.get CUE_BTN_STATUS_CODE = min 255 code ∧ u.eng.cue.held = c.held + 1 ∧
        (∀ j, j < 4 → Tbl.get 0 u.eng.cue.seen j = if e.btnSeen j (min 255 code) then Tbl.get 0 c.seen j + 1 else 0) ∧
        u.eng.cue.clear = if ∃ j, j < 4 ∧ e.btnSeen j (min 255 code) = true then 0 else c.clear + 1) ∧
      (e.get CUE_BTN_CFG_DEBOUNCE ≤ Tbl.get 0 c.seen k → btn = 0 → (e.get CUE_LISTEN_WAKE_BTN).testBit k = false → does (.btnPress k) fun e =>
        ((e.put CUE_BTN_STATUS_BTN (2 ^ k)).updCue fun c => { c with held := 0, long := false }).cueEvt 0x03 .note k 0) ∧
      (Tbl.get 0 c.seen k < e.get CUE_BTN_CFG_DEBOUNCE → idle (.btnPress k)) ∧
      (e.get CUE_BTN_CFG_DEBOUNCE ≤ c.clear → btn = 2 ^ k → does .btnRelease fun e =>
        ((e.put CUE_BTN_STATUS_BTN 0).updCue fun c => { c with held := 0, long := false }).cueEvt 0x04 .note k 0) ∧
      (c.clear < e.get CUE_BTN_CFG_DEBOUNCE ∨ btn = 0 → idle .btnRelease) ∧
      (btn = 2 ^ k → c.long = false → 100 * e.get CUE_BTN_CFG_LONG ≤ c.held → does .btnLong fun e => (e.updCue fun c => { c with long := true }).cueEvt 0x05 .note k 0) ∧
      (btn = 0 ∨ c.long = true → idle .btnLong))

/-- SPK_CFG_WRITE, SPK_TRIP, SPK_SOFTSTART_DONE, SPK_RETRY, SPK_ATTEMPTS_RESET, SPK_FINAL_CLEAR, SPK_THERMAL_ENTER, SPK_THERMAL_EXIT, HP_LIMIT,
SIL_SLEEP, SIL_WAKE, RING_SAMPLE_WRITE, RING_CNT_CAPTURE, FETCH_GO, FETCH_COMPLETE. -/
def Obligations.LoudspeakerAndRing : Prop :=
  ∀ (s : State) (by_ : Sender) (v : Word) (o t : Nat), s.awake = true → o < 2 →
    let e := s.eng
    let c := e.cue
    let st := e.get CUE_SPK_STATUS_STATE
    let tries := e.get CUE_SPK_STATUS_ATTEMPTS
    let does (x : Instr) (f : Engine → Engine) : Prop := exec x s = s.does f
    let idle (x : Instr) : Prop := exec x s = .next s
    let to_ (n : Nat) (e : Engine) : Engine := e.put CUE_SPK_STATUS_STATE n
    let quench (b : Bool) (e : Engine) : Engine := e.updCue fun c => { c with quench := b }
    let soft (e : Engine) : Engine := quench true (to_ 1 e)
    let refused (off : Nat) (e : Engine) : Engine := e.cueEvt 0x0E .warn off 0 by_.hm
    let tripped (e : Engine) : Engine := (quench true e).cueEvt 0x06 .warn tries 0
    (by_.isCC = true → does (.spkCfgWrite by_ v) fun e => (e.put CUE_SPK_CFG_EN (v.getLsbD 0).toNat).spkSettle) ∧
    (by_.isCC = false → does (.spkCfgWrite by_ v) (refused 0x044) ∧ does (.spkFinalClear by_) (refused 0x048)) ∧
    (st = 1 ∨ st = 2 →
      (tries < 7 → does .spkTrip fun e => to_ 4 (tripped e)) ∧
      (7 ≤ tries → does .spkTrip fun e => ((to_ 5 (tripped e)).put CUE_SPK_STATUS_FINAL 1).cueEvt 0x07 .fault 0 0) ∧
      (150 ≤ t → does (.spkThermalEnter t) fun e => (quench true (to_ 6 ((e.put CUE_SPK_STATUS_TEMP (min 255 (t + 40))).updCue fun c =>
        { c with hot := true }))).cueEvt 0x08 .warn 1 0)) ∧
    (st ≠ 1 → st ≠ 2 → idle .spkTrip ∧ (150 ≤ t → does (.spkThermalEnter t) fun e =>
      (e.put CUE_SPK_STATUS_TEMP (min 255 (t + 40))).updCue fun c => { c with hot := true })) ∧
    (t < 150 → idle (.spkThermalEnter t)) ∧
    (st = 1 → does .spkSoftstartDone fun e => (to_ 2 e).updCue fun c => { c with quench := false, spkStep := 0 }) ∧
    (st ≠ 1 → idle .spkSoftstartDone) ∧
    (st = 4 → c.hot = false → does .spkRetry fun e => soft (e.put CUE_SPK_STATUS_ATTEMPTS (tries + 1))) ∧
    (st = 4 → c.hot = true → does .spkRetry fun e => (to_ 6 e).cueEvt 0x08 .warn 1 0) ∧
    (st ≠ 4 → idle .spkRetry) ∧
    (st = 2 → does .spkAttemptsReset fun e => e.put CUE_SPK_STATUS_ATTEMPTS 0) ∧
    (st ≠ 2 → idle .spkAttemptsReset) ∧
    (by_.isCC = true →
      (st = 5 → does (.spkFinalClear by_) fun e => soft ((e.put CUE_SPK_STATUS_ATTEMPTS 0).put CUE_SPK_STATUS_FINAL 0)) ∧
      (st ≠ 5 → idle (.spkFinalClear by_))) ∧
    (let cool (x : Int) (e : Engine) : Engine := (e.put CUE_SPK_STATUS_TEMP (x + 40).toNat).updCue fun c => { c with hot := false }
     ∀ x : Int, (x < 130 → st = 6 → does (.spkThermalExit x) fun e => (soft (cool x e)).cueEvt 0x08 .warn 0 0) ∧
       (x < 130 → st ≠ 6 → does (.spkThermalExit x) (cool x)) ∧ (130 ≤ x → idle (.spkThermalExit x))) ∧
    (let lim (e : Engine) : Engine := (e.put CUE_OUT_STATUS_HP_LIMIT 1).updCue fun c => { c with hpLim := e.fs / 10 }
     (e.hpReady = true → t % 4 ≠ 0 →
        (e.on CUE_OUT_STATUS_HP_LIMIT = false → does (.hpLimit t) fun e => (lim e).cueEvt 0x09 .warn (t % 4) 0) ∧
        (e.on CUE_OUT_STATUS_HP_LIMIT = true → does (.hpLimit t) lim)) ∧
     (e.hpReady = false ∨ t % 4 = 0 → idle (.hpLimit t))) ∧
    (let x := e.silOf o
     (e.on (CUE_SIL_CFG_EN o) = true → e.cueOutOn o = true → x.fade = none → e.get (CUE_SIL_CFG_TIME o) * e.fs ≤ x.quiet → does (.silSleep o) fun e =>
        e.updSil o fun x => { x with fade := some 0, loud := none, wake := none }) ∧
     (e.on (CUE_SIL_CFG_EN o) = false ∨ x.fade ≠ none ∨ x.quiet < e.get (CUE_SIL_CFG_TIME o) * e.fs → idle (.silSleep o)) ∧
     (∀ w, x.loud = some w → x.fade ≠ none ∨ e.asleep o = true → (o = 1 → st ≠ 3) → does (.silWake o) fun e =>
        ((e.put ⟨CUE_SIL_STATUS, o, 1⟩ 0).updSil o fun x => { x with fade := none, loud := none, wake := some (w, e.silGain o 0) }).cueEvt 0x0B .note o 0) ∧
     (x.loud = none → idle (.silWake o))) ∧
    (e.on CUE_LISTEN_RING_EN = false → idle (.ringSampleWrite v t)) ∧
    (e.on CUE_LISTEN_RING_EN = true → e.pwr.dormant = false → c.fetch = none → e.blockAccess 0x46 (e.ringAddr c.ringCnt) = true → does (.ringSampleWrite v t) fun e =>
      (e.memWrite none (e.ringAddr c.ringCnt) [if c.power && e.headset && e.on CUE_MIC_CFG_EN && !c.muted then v <<< 8 else 0#32]).updCue fun c =>
        { c with ringEp := false, ringCnt := (c.ringCnt + 1) % 2 ^ 64 }) ∧
    does (.ringCntCapture by_) (fun e => { e.capture CUE_RING_CNT_LO by_.hm [c.ringCnt] with rdata := BitVec.ofNat 32 c.ringCnt }) ∧
    (e.listenMay by_ = false → does (.fetchGo by_ v) (refused 0x08C)) ∧
    (e.listenMay by_ = true → v.getLsbD 0 = true →
      (∀ r, e.fetchRefusal = some r → does (.fetchGo by_ v) fun e => e.listenEvt 0x0D .warn r by_.hm) ∧
      (e.fetchRefusal = none → does (.fetchGo by_ v) fun e => (e.put CUE_FETCH_STATUS_BUSY 1).updCue fun c => { c with fetch := some {
        from_ := (e.rd CUE_FETCH_FROM_LO).toNat + (e.rd CUE_FETCH_FROM_HI).toNat * 2 ^ 32, len := e.get CUE_FETCH_CFG_LEN + 1
        dest := e.get CUE_FETCH_CFG_DEST, rel := if e.on CUE_FETCH_CFG_REL then some (v.toNat / 2 ^ 16 % 2 ^ 12) else none } })) ∧
    (c.fetch = none → idle .fetchComplete) ∧
    (∀ f, c.fetch = some f → f.from_ + f.len ≤ c.ringCnt → f.got = f.len →
      let done (e : Engine) : Engine := ((e.put CUE_FETCH_STATUS_BUSY 0).put CUE_FETCH_STATUS_DONE 1).updCue fun c => { c with fetch := none }
      (f.rel = none → does .fetchComplete done) ∧ (∀ d, f.rel = some d → does .fetchComplete fun e => (done e).release d none 0xFF))

/-- PCIE_LINK_DOWN, PCIE_LINK_UP, VF_ENABLE, FLR_START, FLR_COMPLETE, APERTURE_ACCESS, APERTURE_ABORT, PF_MSI_TRIGGER, VF_MSI_TRIGGER, MSIX_UNMASK. -/
def Obligations.HostLink : Prop :=
  ∀ (s : State) (by_ : Sender) (t o k n : Nat) (w : Word) (en ari : Bool), s.awake = true → t < 16 → k < 4 →
    let e := s.eng
    let does (x : Instr) (f : Engine → Engine) : Prop := exec x s = s.does f
    let idle (x : Instr) : Prop := exec x s = .next s
    let up := e.on PCIE_STATUS_LINK_UP = true
    let down := e.on PCIE_STATUS_LINK_UP = false
    let vfs := e.get PCIE_STATUS_VF_EN
    let resetting (t : Nat) : Bool := (e.get PCIE_FLR_PEND_VF).testBit t
    (down → idle (.pcieLinkDown k) ∧ idle (.flrStart t) ∧ idle (.flrStart 16) ∧ idle (.vfEnable en n ari) ∧ idle (.apertureAccess t o none)) ∧
    (up → ∃ u, exec (.pcieLinkDown k) s = .next u ∧ u.eng.get PCIE_STATUS_VF_EN = 0 ∧ u.eng.xlat.posted = [] ∧ u.eng.pcie.pfMem = false) ∧
    (up → does (.pcieLinkDown k) fun e =>
      let lost := (List.range 16).foldl Engine.tenantLost (((e.put PCIE_STATUS_LINK_UP 0).put PCIE_STATUS_SPEED 0).put PCIE_STATUS_L1 0)
      let e := (lost.updXlat fun x => { x with posted := [] }).pfReset
      let push := e.pcie.boot.rom && e.get PCIE_BOOT_STATUS_STATE == 2 && e.get PCIE_BOOT_STATUS_SRC == 2
      (e.updPcie fun p => { p with pfMem := false, boot := { p.boot with lost := p.boot.lost || push } }).raise
        { pcieEvt 0x02 .warn 0xFF k 0 with also := (List.range 16).filter vfs.testBit }) ∧
    (up → idle (.pcieLinkUp k)) ∧
    (down → e.pcie.boot.lost = false → does (.pcieLinkUp k) fun e =>
      (((e.put PCIE_STATUS_LINK_UP 1).put PCIE_STATUS_SPEED k).updXlat fun x => { x with dropped := [] }).raise (pcieEvt 0x01 .note 0xFF k 0)) ∧
    (up →
      (en = true → (if ari then 16 else 7) < n → does (.vfEnable en n ari) fun e => e.put PCIE_STATUS_ARI ari.toNat) ∧
      (en = true → n ≤ (if ari then 16 else 7) → (∀ j, j < 16 → vfs.testBit j = true → j < n) → does (.vfEnable en n ari) fun e =>
        (e.put PCIE_STATUS_ARI ari.toNat).put PCIE_STATUS_VF_EN (2 ^ n - 1)) ∧
      (en = false → does (.vfEnable en n ari) fun e => ((List.range 16).filter vfs.testBit).foldl (fun e t => (e.readsLost t).cfgReset t)
        ((e.put PCIE_STATUS_ARI ari.toNat).put PCIE_STATUS_VF_EN 0))) ∧
    (up → vfs.testBit t = true → resetting t = false → does (.flrStart t) fun e =>
      let lost := (e.put ⟨PCIE_FLR_PEND, t, 1⟩ 1).tenantLost t
      ((((lost.flrDma (2 * t)).flrDma (2 * t + 1)).cfgReset t)).wr (PCIE_VF_APERTURE t) 0#32) ∧
    (vfs.testBit t = false ∨ resetting t = true → idle (.flrStart t) ∧ idle (.apertureAccess t o (some w))) ∧
    (up → e.on PCIE_FLR_PEND_PF = false → does (.flrStart 16) fun e => (List.range 16).foldl Engine.flrVf (e.put PCIE_FLR_PEND_PF 1)) ∧
    (e.on PCIE_FLR_PEND_PF = false →
      (resetting t = true → does (.flrComplete t) fun e =>
        ((e.put ⟨PCIE_FLR_PEND, t, 1⟩ 0).updXlat fun x => { x with dropped := Tbl.set 0 x.dropped t 0 }).raiseT t (pcieEvt 0x03 .note 0xFF t 0)) ∧
      (resetting t = false → idle (.flrComplete t)) ∧ idle (.flrComplete 16)) ∧
    (e.on PCIE_FLR_PEND_PF = true → idle (.flrComplete t) ∧ does (.flrComplete 16) fun e =>
      ((((List.range 16).foldl Engine.flrVfDone e).pfReset).put PCIE_FLR_PEND_PF 0).raise (pcieEvt 0x03 .note 0xFF 16 0)) ∧
    (up → vfs.testBit t = true → resetting t = false → o % 4 = 0 → o < 0x10000 →
      let read := Instr.apertureAccess t o none
      let write := Instr.apertureAccess t o (some w)
      let gives (f : Engine → Word × Engine) (e : Engine) : Engine :=
        let r := f e; Engine.updPcie { r.2 with rdata := r.1 } fun p => { p with abort := false }
      let aborts (f : Engine → Engine) (e : Engine) : Engine := (f e).updPcie fun p => { p with abort := true }
      (∀ a, pageMap t o = some a → o < 0x8000 →
        does read (gives fun e => e.regRead (vfSender t) a) ∧ does write fun e => e.regWrite (vfSender t) a w) ∧
      (0xE000 ≤ o → o < 0xE080 → does read (gives fun e => (e.msixWord t ((o - 0xE000) / 16) ((o - 0xE000) / 4 % 4), e)) ∧
        does write fun e => e.msixWrite t ((o - 0xE000) / 16) (o / 4 % 4) w) ∧
      (o = 0xE800 → does read (gives fun e => (BitVec.ofNat 32 (Tbl.get 0 e.pcie.pba t), e)) ∧ idle write) ∧
      (0x8000 ≤ o → o < 0xC000 →
        let va := e.get (PCIE_VF_APERTURE_VA t) * 16384 + (o - 0x8000)
        (e.engineWindow t va = none →
          does read (aborts fun e => e.accessFault t va 0 kNowin false 0x42 t) ∧
          does write fun e => e.accessFault t va 0 kNowin true 0x42 t) ∧
        (∀ i, e.engineWindow t va = some i →
          (i.r = false → does read (aborts fun e => e.accessFault t va 0 kRights false 0x42 t)) ∧
          (i.w = false → does write fun e => e.accessFault t va 0 kRights true 0x42 t) ∧
          (∀ pa a b f, e.apPhys (vfSender t) (.vf t) t (i.target va) false = (.go pa a b, f) → i.r = true →
            does read (gives fun _ => f.regRead (vfSender t) pa)) ∧
          (∀ pa a b f, e.apPhys (vfSender t) (.vf t) t (i.target va) true = (.go pa a b, f) → i.w = true →
            does write fun _ => f.regWrite (vfSender t) pa w)))) ∧
    (let mine (x : ApWait) : Bool := x.tenant == t && !x.twb && x.write.isNone
     (e.pcie.ap.find? mine = none → idle (.apertureAbort t)) ∧
     (∀ x, e.pcie.ap.find? mine = some x → does (.apertureAbort t) fun e =>
        (e.updPcie fun p => { p with ap := p.ap.eraseP mine, abort := true }).raiseT t (pcieEvt 0x05 .warn t x.off x.va))) ∧
    (by_.isCC = true → does (.pfMsiTrigger by_ w) (fun e => (List.range 32).foldl (fun e k => if w.getLsbD k then e.msix 16 k else e) e) ∧
      does (.vfMsiTrigger by_ t w) fun e => [4, 5, 6, 7].foldl (fun e k => if w.getLsbD k then e.vfVector t k else e) e) ∧
    (by_.isCC = false → does (.pfMsiTrigger by_ w) (fun e => e.raise (pcieEvt 0x04 .warn by_.hm 0x010 0)) ∧
      does (.vfMsiTrigger by_ t w) fun e => e.raise (pcieEvt 0x04 .warn by_.hm (0x040 + 4 * t) 0)) ∧
    (e.funcUp t = true → does (.msixUnmask t (some (n % 8))) (fun e => e.msixWrite t (n % 8) 3 0#32) ∧
      does (.msixUnmask t none) fun e => (List.range 32).foldl (fun e v => e.msixTry t v)
        (e.updPcie fun x => { x with msixEn := if x.msixEn.contains t then x.msixEn else x.msixEn ++ [t] })) ∧
    (e.funcUp t = false → idle (.msixUnmask t none))

/-- BOOT_ROM_START, BOOT_PUSH_GO, BOOT_IMAGE_CHECK, QSPI_COMMAND, CMD_DONE. -/
def Obligations.BootAndFlash : Prop :=
  (∀ alt b, bootSrcs 0 alt true = [2] ∧ bootSrcs 2 alt b = [2] ∧
    bootSrcs 1 0 b = [0] ∧ (alt ≠ 0 → bootSrcs 1 alt b = [0, 1] ∧ bootSrcs 3 alt b = [0, 1, 2])) ∧
  ∀ (s : State) (by_ : Sender) (v : Word) (m data : List Byte), s.awake = true →
    let e := s.eng
    let b := e.pcie.boot
    let does (x : Instr) (f : Engine → Engine) : Prop := exec x s = s.does f
    let idle (x : Instr) : Prop := exec x s = .next s
    let st := e.get PCIE_BOOT_STATUS_STATE
    let started (e : Engine) : Engine := e.updPcie fun p => { p with boot := { p.boot with rom := true } }
    let failed (err : Nat) (e : Engine) : Engine := (e.put PCIE_BOOT_STATUS_ERR err).bootNext
    (e.on FUSE_STATUS_LOADED = false ∨ b.rom = true ∨ b.handed = true → idle .bootRomStart) ∧
    (e.on FUSE_STATUS_LOADED = true → b.rom = false → b.handed = false →
      (e.lc = 7 → does .bootRomStart fun e => ((started e).put PCIE_BOOT_STATUS_STATE 4).put PCIE_BOOT_STATUS_ERR 0) ∧
      (e.lc = 3 → does .bootRomStart fun e => (((started e).updSec fun s => { s with erase := true }).put PCIE_BOOT_STATUS_STATE 4).put PCIE_BOOT_STATUS_ERR 0) ∧
      (e.lc ≠ 3 → e.lc ≠ 7 → e.get PWR_RESET_CAUSE_LAST ≠ 7 → does .bootRomStart fun e =>
        ((started e).updPcie fun p => { p with boot := { p.boot with srcs := bootSrcs (e.fuseCfg.toNat / 2 % 4) (e.fuseCfg.toNat / 256 % 256) b.gpio0 } }).bootNext)) ∧
    (by_.isCC = true ∨ (by_.isPF = true ∧ b.rom = true) →
      (b.rom = true → st = 1 ∨ (st = 4 ∧ b.serve = true) → does (.bootPushGo by_) fun e => (e.put PCIE_BOOT_STATUS_STATE 2).put PCIE_BOOT_STATUS_SRC 2) ∧
      (b.rom = false ∨ (st ≠ 1 ∧ st ≠ 4) → idle (.bootPushGo by_))) ∧
    (by_.isCC = false → by_.isPF = false ∨ b.rom = false → does (.bootPushGo by_) fun e => e.raise (pcieEvt 0x04 .warn by_.hm 0x108 0)) ∧
    (b.rom = false ∨ st ≠ 2 ∨ b.lost = true → idle (.bootImageCheck (some m))) ∧
    (b.rom = true → st = 2 → b.lost = false →
      does (.bootImageCheck none) (failed 8) ∧
      (m.length < 256 → does (.bootImageCheck (some m)) (failed 8)) ∧
      (256 ≤ m.length → imgLe m 0 4 ≠ 0x96161A9E → does (.bootImageCheck (some m)) (failed 1)) ∧
      (∀ r, e.imgCheck m = some r → does (.bootImageCheck (some m)) (failed r)) ∧
      (e.imgCheck m = none → imgLe m 6 2 % 2 = 0 → does (.bootImageCheck (some m)) fun e =>
        ((e.stBs (imgLe m 0x0C 4) (imgBytes m 256 (imgLe m 8 4))).put PCIE_BOOT_STATUS_ERR 0).handOver (imgLe m 0x10 4)) ∧
      (e.imgCheck m = none → e.imgPayload m = none → does (.bootImageCheck (some m)) fun e =>
        failed 7 (e.clearBytes (imgLe m 0x0C 4) (imgLe m 8 4)))) ∧
    (∀ entry, let u := e.handOver entry
      (u.ctxOf 16).pc = entry ∧ (u.ctxOf 16).mode = 1 ∧ (u.ctxOf 16).ie = false ∧ u.pcie.boot.handed = true ∧ u.pcie.boot.rom = false) ∧
    (let bad := v.toNat / 2 ^ 8 % 4 = 3 ∨ v.toNat / 2 ^ 10 % 4 = 3 ∨ 256 < v.toNat / 2 ^ 16 % 2 ^ 9
     let refused (e : Engine) : Engine := e.raise (qspiEvt 0x02 .warn by_.hm 0x008)
     (by_.isCC = false → does (.qspiCommand by_ v) refused) ∧
     (by_.isCC = true → bad ∨ e.on QSPI_STATUS_BUSY = true → does (.qspiCommand by_ v) refused) ∧
     (by_.isCC = true → ¬bad → e.on QSPI_STATUS_BUSY = false →
        (e.on QSPI_CTRL_EN = true → does (.qspiCommand by_ v) fun e => (e.wr QSPI_CMD (v &&& 0x11FFFFFF#32)).put QSPI_STATUS_BUSY 1) ∧
        (e.on QSPI_CTRL_EN = false → does (.qspiCommand by_ v) fun e => e.wr QSPI_CMD (v &&& 0x11FFFFFF#32)))) ∧
    (e.on QSPI_STATUS_BUSY = false → idle (.cmdDone data)) ∧
    (e.on QSPI_STATUS_BUSY = true →
      let ends (e : Engine) : Engine := ((e.put QSPI_STATUS_BUSY 0).put QSPI_STATUS_DONE 1).raise (qspiEvt 0x01 .note 0xFF (e.get QSPI_CMD_OPCODE))
      (e.on QSPI_CMD_WRITE = true → does (.cmdDone data) ends) ∧
      (e.on QSPI_CMD_WRITE = false → does (.cmdDone data) fun e => ends (e.qspiFill data (e.get QSPI_CMD_LEN))))

/-- TWB_ADDRESS_MATCH, TWB_WRITE_WORD, TWB_READ_WORD, TWB_STOP, TW_STRETCH, TWB_LINGER_EXPIRE, TW_WAKE, TWB_DORMANT_MATCH. -/
def Obligations.TwoWireTarget : Prop :=
  (∀ (s : State) (a o part : Nat) (read : Bool) (w : Word), s.awake = true → a < 128 → o < 0x10000 → part < 4 →
    let e := s.eng
    let does (x : Instr) (f : Engine → Engine) : Prop := exec x s = s.does f
    let idle (x : Instr) : Prop := exec x s = .next s
    let find := twbFind (e.on TWB_CFG_MASKED) e.twbWords a
    let match_ := Instr.twbAddressMatch a read (some o)
    let asleep := e.mode = 2 ∧ e.twb.awake = false
    let txn (x : Option TwbTxn) (e : Engine) : Engine := e.updTwb fun t => { t with txn := x }
    (e.twb.txn = none →
      idle (.twbWriteWord w) ∧ idle .twbReadWord ∧ idle (.twbStop part) ∧
      (e.on TWB_CTRL_EN = false ∨ find = none → idle (match_ part)) ∧
      (∀ x t, e.on TWB_CTRL_EN = true → find = some (x, t) →
        (e.on TWB_CTRL_ACCEPT = false → does (match_ part) fun e => (e.put TWB_STATUS_LAST a).count TWB_COUNT_NACKS) ∧
        (e.on TWB_CTRL_ACCEPT = true → asleep →
          (e.twb.wake = none → does (match_ part) fun e =>
            (((e.put TWB_STATUS_LAST a).count TWB_COUNT_NACKS).updTwb fun t => { t with wake := some a }).raise (twbEvt 0x01 .note 0xFF 0 a)) ∧
          (e.twb.wake ≠ none → does (match_ part) fun e => (e.put TWB_STATUS_LAST a).count TWB_COUNT_NACKS)) ∧
        (e.on TWB_CTRL_ACCEPT = true → ¬asleep → does (match_ part) fun e =>
          (txn (some { addr := a, tenant := t, win := x.getLsbD 16, read := read, off := if read then none else some (o / 4 * 4) })
            (e.put TWB_STATUS_LAST a)).put TWB_STATUS_BUSY 1))) ∧
    (∀ x y t, e.twb.txn = some x → x.addr = a → x.read = false → x.held = none → e.on TWB_CTRL_EN = true → e.on TWB_CTRL_ACCEPT = true → ¬asleep →
      find = some (y, t) → ∃ u, exec (.twbAddressMatch a true none 0) s = .next u ∧
        u.eng.twb.txn = some { addr := a, tenant := t, win := y.getLsbD 16, read := true, off := x.off }) ∧
    (∀ x p, e.twb.txn = some x → x.read = false → x.off = some p →
      let held (e : Engine) : Engine := e.updTxn fun x => { x with off := some ((p + 4) % 0x10000), held := some (p, w) }
      (p % 8 = 0 → x.held = none → does (.twbWriteWord w) held) ∧
      (p % 8 ≠ 0 → x.held = none → does (.twbWriteWord w) fun e =>
        Engine.twbPut (e.updTxn fun x => { x with off := some ((p + 4) % 0x10000) }) x p w) ∧
      (∀ q v, x.held = some (q, v) → p % 8 ≠ 0 → does (.twbWriteWord w) fun e =>
        Engine.twbPut ((Engine.updTxn (e.twbPut x q v) fun x => { x with held := none }).updTxn fun x => { x with off := some ((p + 4) % 0x10000) }) x p w)) ∧
    (∀ x, e.twb.txn = some x → x.read = true → idle (.twbWriteWord w) ∧ (x.waits = true → idle .twbReadWord)) ∧
    (∀ x, e.twb.txn = some x → x.read = false → x.off = none → idle (.twbWriteWord w)) ∧
    (∀ x, e.twb.txn = some x → x.read = false → idle .twbReadWord) ∧
    (∀ x p, e.twb.txn = some x → x.read = true → x.waits = false → x.off = some p →
      let on_ (e : Engine) : Engine := e.updTxn fun x => { x with off := some ((p + 4) % 0x10000) }
      (twbReach x.win p = false ∨ e.twbRefused x.tenant p = true → does .twbReadWord fun e => { on_ e with rdata := 0xFFFFFFFF#32 }) ∧
      (∀ r f, twbReach x.win p = true → e.twbRefused x.tenant p = false →
        (on_ e).pageDo (twbSender x.tenant) true x.tenant p none = (.done r, f) → does .twbReadWord fun _ => { f with rdata := r }) ∧
      (∀ f, twbReach x.win p = true → e.twbRefused x.tenant p = false →
        (on_ e).pageDo (twbSender x.tenant) true x.tenant p none = (.wait, f) → does .twbReadWord fun _ => f.updTxn fun x => { x with waits := true })) ∧
    (∀ x, e.twb.txn = some x → x.read = true → x.waits = false → x.off = none → ∃ u, exec .twbReadWord s = .next u ∧ u.eng.twb = e.twb) ∧
    (∀ x, e.twb.txn = some x → e.twb.hold = false →
      let ended (e : Engine) : Engine := (txn none e).put TWB_STATUS_BUSY 0
      (x.held = none → part = 0 → does (.twbStop part) ended) ∧
      (∀ q v, x.held = some (q, v) → part = 0 → (e.twbPut x q v).twb.hold = false → does (.twbStop part) fun e =>
        ended (Engine.updTxn (e.twbPut x q v) fun x => { x with held := none })) ∧
      (∀ p, x.held = none → part ≠ 0 → x.off = some p →
        (x.read = false → does (.twbStop part) fun e => ended (e.twbTell x.tenant 0x02 p part)) ∧
        (x.read = true → does (.twbStop part) fun e => ended (e.twbTell x.tenant 0x03 ((p + 0xFFFC) % 0x10000) 0)))) ∧
    (∀ x, e.twb.txn = some x → e.twb.hold = true → x.held = none → does (.twbStop 0) fun e =>
      ((txn none e).put TWB_STATUS_BUSY 0).updTwb fun t => { t with hold := false, awake := false }) ∧
    (let mine (w : ApWait) : Bool := w.twb && w.write.isNone
     (e.pcie.ap.any (·.twb) = false → idle .twStretch) ∧
     (e.pcie.ap.any (·.twb) = true → e.pcie.ap.find? mine = none → does .twStretch fun e => e.count TWB_COUNT_STRETCHES) ∧
     (∀ x r, e.twb.txn = some x → e.pcie.ap.find? mine = some r → x.waits = true → does .twStretch fun e =>
       let e : Engine := { ((e.count TWB_COUNT_STRETCHES).updPcie fun p => { p with ap := p.ap.filter fun w => !mine w }).updTxn fun x => { x with waits := false }
         with rdata := 0xFFFFFFFF#32 }
       (e.twbTell x.tenant 0x04 r.off 0).twbTell x.tenant 0x03 r.off 0)) ∧
    (e.mode = 2 → e.twb.txn = none → does .twbLingerExpire fun e => e.updTwb fun t => { t with awake := false }) ∧
    (e.mode ≠ 2 ∨ e.twb.txn ≠ none → idle .twbLingerExpire) ∧
    (e.twb.wake ≠ none → does .twWake fun e => e.updTwb fun t => { t with wake := none, awake := true }) ∧
    (e.twb.wake = none → idle .twWake)) ∧
  ∀ (s : State) (a : Nat), a < 128 →
    let e := s.eng
    let find := twbFind (e.on TWB_CFG_MASKED) e.twbWords a
    (e.pwr.dormant = false ∨ find = none ∨ e.on PWR_CFG_TWB_WAKE = false → exec (.twbDormantMatch a) s = .next s) ∧
    (e.pwr.dormant = true → e.pwr.off = false → find ≠ none → e.on PWR_CFG_TWB_WAKE = true →
      ∃ u, exec (.twbDormantMatch a) s = .next u ∧ u.eng.pwr.wake = some (e.pwr.wake.getD 3) ∧ u.eng.twb.dorm = some (e.twb.dorm.getD a))

/-- PWR_CMD_RUN, PWR_CMD_IDLE, PWR_CMD_LISTEN, PWR_CMD_DORMANT, PWR_KEY_WRITE, PWR_REQ_RUN, IDLE_ENTRY, IDLE_EXIT, LISTEN_ENTRY, LISTEN_EXIT,
DORMANT_ENTRY, DORMANT_WAKE, WAKE_PIN_REQUEST. -/
def Obligations.PowerModes : Prop :=
  (∀ (s : State) (by_ : Sender) (v : Word), s.awake = true →
    let e := s.eng
    let p := e.pwr
    let does (x : Instr) (f : Engine → Engine) : Prop := exec x s = s.does f
    let idle (x : Instr) : Prop := exec x s = .next s
    let refused (off : Nat) (e : Engine) : Engine := e.raise (pwrEvt 0x05 .warn by_.hm off 0)
    let turned (m r : Nat) (e : Engine) : Engine := e.raise (pwrEvt 0x02 .warn by_.hm m r)
    let used (e : Engine) : Engine := e.updPwr fun p => { p with key := if p.key.step = 2 ∧ p.key.hm = by_.hm then {} else p.key }
    let waits (m : Option Nat) (e : Engine) : Engine := e.updPwr fun p => { p with want := m }
    let stopsFor (m : Nat) (e : Engine) : Engine := if e.stopped then waits (some m) e else (waits (some m) e).tickStopReq
    let shows (m : Nat) (e : Engine) : Engine := (e.put PWR_STATUS_MODE m).raise (pwrEvt 0x01 .note 0xFF (e.mode + 16 * m) 0)
    let keyed := p.key.ok by_.hm e.now = true
    (by_.isCC = false →
      does (.pwrCmdRun by_) (refused 0x004) ∧ does (.pwrCmdIdle by_) (refused 0x004) ∧ does (.pwrCmdListen by_) (refused 0x004) ∧
      does (.pwrCmdDormant by_) (refused 0x004) ∧ does (.pwrKeyWrite by_ v) (refused 0x00C)) ∧
    (by_.isCC = true →
      (e.mode ≠ 0 → does (.pwrCmdRun by_) fun e => (used e).requestRun 0) ∧
      (e.mode = 0 → p.want = some 3 → does (.pwrCmdRun by_) used) ∧
      (e.mode = 0 → p.want ≠ some 3 → does (.pwrCmdRun by_) fun e => waits none (used e)) ∧
      (e.lockstep = true → does (.pwrCmdIdle by_) (fun e => turned 1 1 (used e)) ∧ does (.pwrCmdListen by_) (fun e => turned 2 1 (used e)) ∧
        does (.pwrCmdDormant by_) fun e => turned 3 1 (used e)) ∧
      (e.lockstep = false →
        (e.mode = 2 ∨ p.want = some 3 → does (.pwrCmdIdle by_) fun e => turned 1 4 (used e)) ∧
        (e.mode = 1 → p.want ≠ some 3 → does (.pwrCmdIdle by_) used) ∧
        (e.mode = 0 → p.want ≠ some 3 → does (.pwrCmdIdle by_) fun e => waits (some 1) (used e)) ∧
        (e.on DBG_CTRL_PWR_HOLD = true ∨ p.want = some 3 → does (.pwrCmdListen by_) fun e => turned 2 4 (used e)) ∧
        (e.on DBG_CTRL_PWR_HOLD = false → p.want ≠ some 3 → e.mode = 2 → does (.pwrCmdListen by_) used) ∧
        (e.on DBG_CTRL_PWR_HOLD = false → p.want ≠ some 3 → e.mode ≠ 2 →
          (e.on CUE_LISTEN_RING_EN = false → does (.pwrCmdListen by_) fun e => turned 2 2 (used e)) ∧
          (∀ n, e.on CUE_LISTEN_RING_EN = true → ingotOf (e.rd CUE_RING_BASE).toNat = some n →
            ((e.rd PWR_LISTEN_KEEP).getLsbD (n / 8) = false → does (.pwrCmdListen by_) fun e => turned 2 2 (used e)) ∧
            ((e.rd PWR_LISTEN_KEEP).getLsbD (n / 8) = true → does (.pwrCmdListen by_) fun e => stopsFor 2 (used e)))) ∧
        (¬keyed → does (.pwrCmdDormant by_) fun e => turned 3 3 (used e)) ∧
        (keyed → e.on DBG_CTRL_PWR_HOLD = true → does (.pwrCmdDormant by_) fun e => turned 3 4 (used e)) ∧
        (keyed → e.on DBG_CTRL_PWR_HOLD = false → does (.pwrCmdDormant by_) fun e => stopsFor 3 (used e))) ∧
      does (.pwrKeyWrite by_ v) fun e => e.updPwr fun p => { p with key := p.key.write 0xD02A 0x2FD5 by_.hm e.now v }) ∧
    (by_.isCC = false → e.listenPath by_ = false → does (.pwrReqRun by_) (refused 0x018)) ∧
    (by_.isCC = true ∨ e.listenPath by_ = true → (e.mode ≠ 0 → does (.pwrReqRun by_) fun e => e.requestRun 6) ∧ (e.mode = 0 → idle (.pwrReqRun by_))) ∧
    (let busy := (List.range 16).any fun c => (e.rd PWR_IDLE_CORES).getLsbD c && e.coreBusy c
     let asked := p.want = some 1 ∨ (e.on PWR_CFG_IDLE_AUTO = true ∧ e.cueIdle = true ∧ e.lockstep = false)
     (e.mode ≠ 0 ∨ busy = true ∨ ¬asked → idle .idleEntry) ∧
     (e.mode = 0 → busy = false → p.want = some 1 → does .idleEntry fun e =>
        shows 1 (e.updPwr fun p => { p with want := none, auto := false, runReq := none, rise := 0 })) ∧
     (e.mode = 0 → busy = false → p.want ≠ some 1 → asked → does .idleEntry fun e =>
        shows 1 (e.updPwr fun p => { p with auto := true, runReq := none, rise := 0 }))) ∧
    (e.mode ≠ 1 → idle .idleExit) ∧
    (let woken (e : Engine) : Engine := e.updPwr fun p => { p with
        runReq := none, auto := false, rise := if e.stopped then 0 else e.get PWR_IDLE_CORES_AC };
      (∀ src, e.mode = 1 → p.runReq = some src → src ≠ 0 → does .idleExit fun e => shows 0 ((woken e).put PWR_WAKE_CAUSE_SRC src)) ∧
      (e.mode = 1 → p.runReq = some 0 → does .idleExit fun e => shows 0 (woken e))) ∧
    (e.mode = 1 → p.runReq = none → p.auto = false → idle .idleExit) ∧
    (p.want ≠ some 2 ∨ e.stopped = false → idle .listenEntry) ∧
    (p.want = some 2 → e.stopped = true → ∃ u, exec .listenEntry s = .next u ∧ u.eng.duo.tx = [] ∧ u.eng.pwr.want = none ∧ u.eng.pwr.kept = e.listenGroups ∧
      u.eng.twb.awake = e.twb.txn.isSome ∧ u.eng.mode = 2) ∧
    (p.runReq = none ∨ e.mode ≠ 2 → idle .listenExit) ∧
    (∀ src, p.runReq = some src → e.mode = 2 → p.kept = [] → e.dbg.level = none → does .listenExit fun e =>
      (shows 0 ((e.updPwr fun p => { p with runReq := none, kept := [] }).wokeBy src)).spkSettle) ∧
    (p.want ≠ some 3 ∨ e.stopped = false → idle .dormantEntry) ∧
    (p.want = some 3 → e.stopped = true → ∃ u, exec .dormantEntry s = .next u ∧ u.eng.pwr.dormant = true ∧ u.eng.mem = [] ∧ u.awake = false) ∧
    (p.dormant = false → exec .dormantWake s = .next s)) ∧
  ∀ (s : State) (level : Bool),
    let e := s.eng
    let p := e.pwr
    (p.wake = none ∨ p.dormant = false ∨ p.off = true ∨ p.supply = false ∨ p.wdt.pulse ≠ none → exec .dormantWake s = .next s) ∧
    (∀ src, p.wake = some src → p.dormant = true → p.off = false → p.supply = true → p.wdt.pulse = none → exec .dormantWake s = s.does fun e =>
      ((e.resetWith 7).put PWR_WAKE_CAUSE_SRC src).updPwr fun p => { p with dormant := false, wake := none, told := false }) ∧
    (p.off = true → exec (.wakePinRequest level) s = .next s) ∧
    (p.off = false →
      let at_ (e : Engine) : Engine := if e.live then e.put PWR_STATUS_WAKE_PIN level.toNat else e
      (e.on PWR_CFG_WAKE_EN = false ∨ level ≠ e.on PWR_CFG_WAKE_POL → exec (.wakePinRequest level) s = s.does at_) ∧
      (e.on PWR_CFG_WAKE_EN = true → level = e.on PWR_CFG_WAKE_POL → exec (.wakePinRequest level) s = s.does fun e => (at_ e).wakeFrom 1 true) ∧
      (e.on PWR_CFG_WAKE_EN = true → level = e.on PWR_CFG_WAKE_POL → p.dormant = true →
        ∃ u, exec (.wakePinRequest level) s = .next u ∧ u.eng.pwr.wake = some (p.wake.getD 1)))

/-- POWER_ON_RESET, RESET_N_RESET, SUPPLY_RESET, SOFTWARE_RESET, WATCHDOG_RESET. -/
def Obligations.ResetsAndTheirScopes : Prop :=
  ∀ (s : State) (up ok low g : Bool),
    let e := s.eng
    let p := e.pwr
    (∃ u, exec (.powerOnReset up) s = .next u ∧ u.eng.pwr.off = !up ∧ u.eng.mem = [] ∧ u.eng.get PWR_RESET_CAUSE_LAST = 1 ∧ u.eng.pwr.dormant = false ∧
      u.fuse = s.fuse ∧ ∀ a, a ≠ PWR_RESET_CAUSE → u.eng.rd a = resetWord a) ∧
    (p.off = true → exec (.resetNReset low g) s = .next s) ∧
    (p.off = false → ∃ u, exec (.resetNReset true g) s = .next u ∧ u.awake = false ∧ u.eng.pwr.dormant = false ∧ u.eng.mem = e.mem ∧
      u.eng.get PWR_RESET_CAUSE_LAST = 2 ∧ (u.eng.get PWR_RESET_CAUSE_SEEN).testBit 1 = true ∧ u.eng.rd PWR_CFG = e.rd PWR_CFG ∧
      (∀ k, k < 64 → u.eng.rd (PWR_KEEP k) = e.rd (PWR_KEEP k)) ∧ u.eng.pwr.wdt = {} ∧ u.eng.core = State.reset.eng.core ∧ u.eng.resetReq = none) ∧
    (p.off = false → p.rstLow = true → exec (.resetNReset false g) s = s.does fun e =>
      (e.updPwr fun p => { p with rstLow := false }).updPcie fun p => { p with boot := { p.boot with gpio0 := g } }) ∧
    (p.off = false → p.rstLow = false → exec (.resetNReset false g) s = .next s) ∧
    (ok = true ∨ p.supply = false ∨ p.dormant = true ∨ p.off = true → exec (.supplyReset ok) s = s.does fun e => e.updPwr fun p => { p with supply := ok }) ∧
    (ok = false → p.supply = true → p.dormant = false → p.off = false → exec (.supplyReset ok) s = s.does fun e =>
      (e.resetWith 8).updPwr fun p => { p with supply := false }) ∧
    (s.awake = true →
      (e.resetReq = none → exec .softwareReset s = .next s) ∧
      (∀ c, e.resetReq = some c → e.lockstep = true → exec .softwareReset s = s.does fun e => e.duoAnnounce) ∧
      (∀ c, e.resetReq = some c → e.lockstep = false → exec .softwareReset s = s.does fun e => e.resetWith c)) ∧
    (s.awake = false → exec .softwareReset s = .next s) ∧
    (p.wdt.pulse = none ∨ p.off = true ∨ p.rstLow = true ∨ p.supply = false → exec .watchdogReset s = .next s) ∧
    (∀ r, p.wdt.pulse = some r → p.off = false → p.rstLow = false → p.supply = true → exec .watchdogReset s = s.does fun e =>
      ((e.resetWith 3).put PWR_RESET_CAUSE_WDT_REASON r).updPwr fun p => { p with dormant := false, wake := none }) ∧
    (∀ c, c < 9 → 2 ≤ c →
      (c ≠ 7 → (e.resetWith c).pwr.wdt = {} ∧ (e.resetWith c).rd WDT_COUNT = resetWord WDT_COUNT) ∧
      ((e.resetWith 7).pwr.wdt = p.wdt ∧ (e.resetWith 7).rd WDT_COUNT = e.rd WDT_COUNT) ∧
      ((e.resetWith c).on PCIE_STATUS_LINK_UP = if c = 4 ∨ c = 5 then e.on PCIE_STATUS_LINK_UP else false))

/-- WDT_START, WDT_EARLY, WDT_SERVICE_WRITE, WDT_EXPIRY, GPIO_OUT_WRITE, GPIO_EDGE. -/
def Obligations.WatchdogAndGpio : Prop :=
  (∀ (s : State) (by_ : Sender) (v : Word) (c k : Nat) (level : Bool), s.awake = true → k < 6 → c < 2 ^ 22 →
    let e := s.eng
    let w := e.pwr.wdt
    let does (x : Instr) (f : Engine → Engine) : Prop := exec x s = s.does f
    let idle (x : Instr) : Prop := exec x s = .next s
    let refused (off : Nat) (e : Engine) : Engine := e.raise (wdtEvt 0x02 by_.hm off by_.hm)
    let hold := e.on DBG_CTRL_WDT_HOLD = true
    let pulse (r : Nat) (e : Engine) : Engine := e.updPwr fun p => { p with wdt := { p.wdt with pulse := some r } }
    let at_ := max c (e.get WDT_COUNT_COUNT)
    let seen (e : Engine) : Engine := (e.wdtAt c).putB WDT_STATUS_KEY_PEND (v == 0x00006E9D#32)
    (by_.isCC = false → does (.wdtStart by_) (refused 0) ∧ does (.wdtServiceWrite by_ v c) (refused 8)) ∧
    (by_.isCC = true → e.on WDT_CTRL_RUNNING = true → idle (.wdtStart by_)) ∧
    (by_.isCC = true → e.on WDT_CTRL_RUNNING = false → e.on WDT_FUSES_HWSTART = false → does (.wdtStart by_) fun e => (e.put WDT_CTRL_RUNNING 1).wdtNew) ∧
    (e.wdtNew.get WDT_COUNT_COUNT = 0 ∧ e.wdtNew.pwr.wdt.period = e.get WDT_PERIOD_TICKS ∧ e.wdtNew.on WDT_STATUS_KEY_PEND = false) ∧
    (by_.isCC = true → e.wdtRuns = false → idle (.wdtServiceWrite by_ v c)) ∧
    (by_.isCC = true → e.wdtRuns = true →
      (w.period ≤ at_ → does (.wdtServiceWrite by_ v c) fun e => (seen e).wdtEnd 1) ∧
      (at_ < w.period → v = 0x00006E9D#32 → does (.wdtServiceWrite by_ v c) seen) ∧
      (at_ < w.period → v = 0x00009162#32 → e.on WDT_STATUS_KEY_PEND = true →
        (at_ < e.wdtOpen → does (.wdtServiceWrite by_ v c) fun e => (seen e).wdtEnd 2) ∧
        (e.wdtOpen ≤ at_ → does (.wdtServiceWrite by_ v c) fun e => ((seen e).put WDT_CTRL_LOCKED 1).wdtNew)) ∧
      (at_ < w.period → v ≠ 0x00006E9D#32 → v ≠ 0x00009162#32 ∨ e.on WDT_STATUS_KEY_PEND = false →
        does (.wdtServiceWrite by_ v c) fun e => (seen e).wdtEnd 3)) ∧
    (∀ r, (hold → (e.wdtEnd r).pwr.wdt.pulse = w.pulse ∧ (e.wdtEnd r).dbg.wdtHit = true) ∧
      (¬hold → e.lockstep = false → e.wdtEnd r = pulse r e)) ∧
    (e.direct by_ PWR_GPIO_OUT = true →
      let may (j : Nat) : Bool := by_.isCC || (e.on (PWR_GPIO_CFG_V j) && by_.isTenant (e.get (PWR_GPIO_CFG_TENANT j)))
      let out (e : Engine) : Engine := e.putB ⟨PWR_GPIO_OUT, k, 1⟩ (v.getLsbD k)
      ((∀ j, j < 6 → may j = false) → does (.gpioOutWrite by_ v) fun e => e.raise (pwrEvt 0x05 .warn by_.hm 0x060 0)) ∧
      ((∀ j, j < 6 → (may j = true ↔ j = k)) → e.on (PWR_GPIO_CFG_DIR k) = false ∨ e.stopped = true → does (.gpioOutWrite by_ v) fun e =>
        (out e).setPin k (v.getLsbD k)) ∧
      ((∀ j, j < 6 → (may j = true ↔ j = k)) → e.on (PWR_GPIO_CFG_DIR k) = true → e.stopped = false → does (.gpioOutWrite by_ v) fun e =>
        (out e).updPwr fun p =>
          { p with gpio := p.gpio ++ [{ esc := (out e).bStarEsc, pin := k, op := (v.getLsbD k).toNat, taq := false }] })) ∧
    (let was := (e.rd PWR_GPIO_IN).getLsbD k
     let named := (e.get (PWR_GPIO_CFG_EDGE k)).testBit (if level then 0 else 1)
     let at_ (e : Engine) : Engine := e.putB ⟨PWR_GPIO_IN, k, 1⟩ level
     let evt := pwrEvt 0x04 .note 0xFF (k + 16 * level.toNat) (e.tick.esc % 2 ^ 32)
     (was = level ∨ named = false ∨ e.on (PWR_GPIO_CFG_DIR k) = true → does (.gpioEdge k level) at_) ∧
     (was ≠ level → named = true → e.on (PWR_GPIO_CFG_DIR k) = false →
       (e.on (PWR_GPIO_CFG_V k) = true → does (.gpioEdge k level) fun e => (at_ e).raiseT (e.get (PWR_GPIO_CFG_TENANT k)) evt) ∧
       (e.on (PWR_GPIO_CFG_V k) = false → does (.gpioEdge k level) fun e => (at_ e).raise evt)))) ∧
  ∀ s : State,
    let e := s.eng
    (e.wdtRuns = false ∨ e.wdtWarn < e.get WDT_COUNT_COUNT → exec .wdtEarly s = .next s) ∧
    (e.wdtRuns = true → e.get WDT_COUNT_COUNT ≤ e.wdtWarn →
      let shown (e : Engine) : Engine := (e.wdtAt e.wdtWarn).put WDT_STATUS_EARLY 1
      (s.awake = true → exec .wdtEarly s = s.does fun e => ((shown e).raise (wdtEvt 0x01 0xFF ((shown e).get WDT_COUNT_COUNT) 0)).wakeFrom 2 false) ∧
      (s.awake = false → exec .wdtEarly s = s.does fun e => (shown e).wakeFrom 2 false)) ∧
    (e.wdtRuns = false → exec .wdtExpiry s = .next s) ∧
    (e.wdtRuns = true → s.awake = true → exec .wdtExpiry s = s.does fun e => (e.wdtAt e.pwr.wdt.period).wdtEnd 1) ∧
    (e.wdtRuns = true → s.awake = false → exec .wdtExpiry s = s.does fun e =>
      (e.wdtAt e.pwr.wdt.period).updPwr fun p => { p with wdt := { p.wdt with pulse := some 1 } })

/-- FUSE_LOAD, FUSE_PROG_GO, PROG_DONE, LC_ADVANCE_CMD, RETIRE_ERASE_DONE, FUSE_BLOW, LC_ADVANCE, DERIVE. -/
def Obligations.FusesAndLifecycle : Prop :=
  (∀ (u : Tbl Word) (i j : Nat), fuseBlown (fuseBlow u i) j = (decide (i = j) || fuseBlown u j)) ∧
  (∀ w : Word, (fuseLc w = 0 ↔ w.toNat % 8 = 0 ∧ w.toNat / 16 % 8 = 7) ∧ (fuseLc w = 1 ↔ w.toNat % 8 = 1 ∧ w.toNat / 16 % 8 = 6) ∧
    (fuseLc w = 2 ↔ w.toNat % 8 = 3 ∧ w.toNat / 16 % 8 = 4) ∧ (fuseLc w = 3 ↔ w.toNat % 8 = 7 ∧ w.toNat / 16 % 8 = 0)) ∧
  ∀ (s : State) (by_ : Sender) (v : Word) (i : Nat), s.awake = true → i < 2048 →
    let e := s.eng
    let x := e.ctxOf 16
    let does (y : Instr) (f : Engine → Engine) : Prop := exec y s = s.does f
    let idle (y : Instr) : Prop := exec y s = .next s
    (e.on FUSE_STATUS_LOADED = true → idle .fuseLoad) ∧
    (e.on FUSE_STATUS_LOADED = false → ∃ t, exec .fuseLoad s = .next t ∧ t.fuse = s.fuse ∧ t.pending = s.pending ∧
      t.eng.on FUSE_STATUS_LOADED = true ∧ t.eng.lc = fuseLc (fuseWord s.fuse 0) ∧
      (∀ k, k < 64 → ¬(40 ≤ k ∧ k < 56) → t.eng.rd (FUSE_SHADOW k) = fuseWord s.fuse k) ∧
      (∀ k, 40 ≤ k → k < 56 → t.eng.rd (FUSE_SHADOW k) = e.rd (FUSE_SHADOW k)) ∧
      (t.eng.lc = 3 ∨ t.eng.lc = 7 → t.eng.sec.dk = none)) ∧
    (∀ b, b < 3 → e.blowPermitted b = false ∧ e.blowPermitted (4 + b) = false) ∧
    (let bit := e.get FUSE_PROG_BIT_IDX
     let refused (b : Nat) (e : Engine) : Engine := e.raise (fuseEvt 0x02 .warn by_.hm b)
     let used (e : Engine) : Engine := e.updSec fun s => { s with fkey := {} }
     (by_.isMon = false → does (.fuseProgGo by_) fun e => e.cfgRefusedOpen 0x1D by_ 0x00C) ∧
     (by_.isMon = true → e.sec.fkey.ok by_.hm e.now = false → does (.fuseProgGo by_) (refused bit)) ∧
     (by_.isMon = true → e.sec.fkey.ok by_.hm e.now = true →
       (e.fuseBusy = true ∨ e.mode ≠ 0 ∨ e.blowPermitted bit = false → does (.fuseProgGo by_) fun e => refused bit (used e)) ∧
       (e.fuseBusy = false → e.mode = 0 → e.blowPermitted bit = true → does (.fuseProgGo by_) fun e =>
         (((used e).put FUSE_PROG_STATUS_BUSY 1).put FUSE_PROG_STATUS_DONE 0).updSec fun s => { s with blow := [bit], target := none }))) ∧
    (e.sec.blow = [] → idle .progDone) ∧
    (e.sec.blow = [i] → e.sec.target = none → exec .progDone s = .next { s with
      fuse := fuseBlow s.fuse i
      eng := (((e.put FUSE_PROG_STATUS_BUSY 0).put FUSE_PROG_STATUS_DONE 1).updSec fun s => { s with blow := [] }).raise (fuseEvt 0x03 .note 0xFF i) }) ∧
    (∀ l t, e.sec.blow = i :: l → e.sec.target = some t → exec .progDone s = .next { s with
      fuse := l.foldl fuseBlow (fuseBlow s.fuse i)
      eng := ((e.put FUSE_PROG_STATUS_BUSY 0).updSec fun s => { s with blow := [], target := if t = 3 then some 3 else none, erase := t == 3 }).raise
        (secEvt 0x02 .note 0xFF t 0) }) ∧
    (let go := v.getLsbD 31 = true
     let t := v.toNat % 4
     let keyed := by_.isMon = true ∧ e.sec.key.ok by_.hm e.now = true
     let refused (e : Engine) : Engine := e.raise (secEvt 0x03 .warn by_.hm v.toNat 0)
     let used (e : Engine) : Engine := e.updSec fun s => { s with key := {} }
     (¬go → idle (.lcAdvanceCmd by_ v)) ∧
     (go → ¬keyed → does (.lcAdvanceCmd by_ v) refused) ∧
     (go → keyed → e.fuseBusy = true ∨ e.lcAllowed t = false → does (.lcAdvanceCmd by_ v) fun e => refused (used e)) ∧
     (go → keyed → e.fuseBusy = false → e.lcAllowed t = true →
       (t ≠ 3 → does (.lcAdvanceCmd by_ v) fun e =>
         ((used e).updSec fun s => { s with blow := [t - 1, t + 3], target := some t }).put FUSE_PROG_STATUS_BUSY 1) ∧
       (t = 3 → does (.lcAdvanceCmd by_ v) fun e =>
         (((used e).updSec fun s => { s with blow := lcBits 3, target := some 3, dk := none }).put SEC_STATUS_KEY_OK 0).put FUSE_PROG_STATUS_BUSY 1))) ∧
    (e.lcAllowed 0 = false ∧ (e.lcAllowed 3 = true ↔ e.lc ≤ 2) ∧ (e.lcAllowed 1 = true → e.lc = 0) ∧ (e.lcAllowed 2 = true → e.lc = 1)) ∧
    (e.sec.erase = false → idle .retireEraseDone) ∧
    (e.sec.erase = true →
      let done (e : Engine) : Engine := e.updSec fun s => { s with erase := false, target := none }
      exec .retireEraseDone s = .next { s with fuse := keyBits.foldl fuseBlow s.fuse, eng := if e.sec.target = some 3 then (done e).resetAsk 4 else done e }) ∧
    (e.inMoncall = false → idle .fuseBlow ∧ idle .lcAdvance ∧ idle .derive) ∧
    (e.inMoncall = true →
      let a := (x.rdG 4).toNat
      let o := (x.rdG 5).toNat
      let gives (r : Nat) (f : Engine → Engine) (e : Engine) : Engine := (f e).updCtx 16 fun x => (x.wrG 4 (BitVec.ofNat 32 r)).rte
      (2048 ≤ a → does .fuseBlow (gives 2 id)) ∧
      (a < 2048 → e.fuseBusy = true → does .fuseBlow (gives 3 fun e => e.raise (fuseEvt 0x02 .warn (e.coreHm 16) a))) ∧
      (a < 2048 → e.fuseBusy = false → e.mode ≠ 0 ∨ e.blowPermitted a = false → does .fuseBlow (gives 1 fun e => e.raise (fuseEvt 0x02 .warn (e.coreHm 16) a))) ∧
      (a < 2048 → e.fuseBusy = false → e.mode = 0 → e.blowPermitted a = true → does .fuseBlow (gives 0 fun e =>
        ((e.put FUSE_PROG_STATUS_BUSY 1).put FUSE_PROG_STATUS_DONE 0).updSec fun s => { s with blow := [a], target := none })) ∧
      (a = 0 ∨ 3 < a → does .lcAdvance (gives 2 id)) ∧
      (1 ≤ a → a ≤ 3 → does .lcAdvance fun e =>
        let r := e.lcStart (e.coreHm 16) a (2 ^ 31 + a); gives r.2 (fun _ => r.1) e) ∧
      (ccData a = false ∨ ccData o = false → does .derive (gives 2 id)) ∧
      (ccData a = true → ccData o = true → e.on SEC_STATUS_KEY_OK = false → does .derive (gives 1 id)) ∧
      (ccData a = true → ccData o = true → e.on SEC_STATUS_KEY_OK = true → does .derive (gives 0 fun e =>
        e.memWrite (some 16) o (e.derive (labelBytes "BX-APP" ++ e.bytesAt a 32)))))

/-- DBG_REQUEST, DBG_AUTH_SUBMIT, DBG_CHALLENGE_EXPIRE, DBG_WAIT_END, DBG_CLOSE, DBG_HALT, DBG_RESUME, DBG_STEP, DEBUG_RESET. -/
def Obligations.DebugSessions : Prop :=
  ∀ (s : State) (v : Word) (m : Nat), s.awake = true →
    let e := s.eng
    let does (x : Instr) (f : Engine → Engine) : Prop := exec x s = s.does f
    let idle (x : Instr) : Prop := exec x s = .next s
    let lvl := v.toNat / 2 ^ 17 % 4
    let refused (r : Nat) (e : Engine) : Engine := e.raise { block := 0x1C, code := 0x04, sev := .warn, hm := 0xE0, w2 := r, w3 := 0 }
    let cores := (List.range 17).filter m.testBit
    let open_ := e.get DBG_STATUS_LEVEL
    let waits (a : DbgAct) (e : Engine) : Engine := e.updDbg fun d => { d with wait := d.wait ++ [a] }
    (v.getLsbD 31 = false ∨ (lvl = 3) → idle (.dbgRequest v)) ∧
    (v.getLsbD 31 = true →
      (lvl = 0 → does (.dbgRequest v) fun e => e.sessionClose 0) ∧
      (lvl = 1 ∨ lvl = 2 →
        (e.lc = 3 ∨ e.lc = 7 → does (.dbgRequest v) (refused 1)) ∧
        (e.lc = 2 → lvl = 2 → v.getLsbD 16 = true → does (.dbgRequest v) (refused 6)) ∧
        (∀ t, t < 16 → e.lc = 2 → lvl = 2 → v.getLsbD 16 = false → v.getLsbD t = true → (e.rd SEC_CONSENT).getLsbD t = false → does (.dbgRequest v) (refused 2)) ∧
        (e.lc = 0 ∨ (e.lc = 1 ∧ lvl = 1) → does (.dbgRequest v) fun e => e.dbgOpen v) ∧
        (e.lc = 1 → lvl = 2 → e.on DBG_STATUS_WAIT = true → does (.dbgRequest v) (refused 5)) ∧
        ((e.lc = 1 ∧ lvl = 2) ∨ (e.lc = 2 ∧ lvl = 1) → e.on DBG_STATUS_WAIT = false →
          ∃ u, exec (.dbgRequest v) s = .next u ∧ u.eng.on DBG_STATUS_AUTH_PEND = true ∧ u.eng.dbg.req = v ∧ u.eng.get DBG_STATUS_LEVEL = open_))) ∧
    (e.lc < 2 → (e.dbgOpen v).get DBG_STATUS_LEVEL = lvl ∧ (e.dbgOpen v).rd DBG_SCOPE = v &&& 0x1FFFF#32) ∧
    (e.on DBG_STATUS_AUTH_PEND = false → idle .dbgAuthSubmit ∧ idle .dbgChallengeExpire) ∧
    (e.on DBG_STATUS_AUTH_PEND = true → does .dbgChallengeExpire Engine.chalClear ∧
      (e.dbgAnswered = false → does .dbgAuthSubmit fun e => (e.chalClear.put DBG_STATUS_WAIT 1).raise
        { block := 0x1C, code := 0x03, sev := .warn, hm := 0xE0, w2 := e.dbg.req.toNat, w3 := 0 }) ∧
      (e.dbgAnswered = true →
        (∀ r, e.dbgDenied e.dbg.req = some r → does .dbgAuthSubmit fun e => refused r e.chalClear) ∧
        (e.dbgDenied e.dbg.req = none → does .dbgAuthSubmit fun e => e.chalClear.dbgOpen e.dbg.req))) ∧
    (e.chalClear.on DBG_STATUS_AUTH_PEND = false ∧ ∀ k, k < 8 → e.chalClear.rd (DBG_CHAL k) = 0#32) ∧
    does .dbgWaitEnd (fun e => e.put DBG_STATUS_WAIT 0) ∧
    (open_ = 0 → idle .dbgClose) ∧
    (open_ ≠ 0 → ∃ u, exec .dbgClose s = .next u ∧ u.eng.get DBG_STATUS_LEVEL = 0 ∧ u.eng.rd DBG_SCOPE = 0#32 ∧ u.eng.rd DBG_CTRL = 0#32 ∧ u.eng.dbg.wait = [] ∧
      u.eng.mem = e.mem ∧ ∀ c, c < 17 → (u.eng.rd DBG_HALTED).getLsbD c = false) ∧
    (cores = [] → idle (.dbgHalt m) ∧ idle (.dbgStep m) ∧ idle (.dbgResume m)) ∧
    (cores ≠ [] → e.dbg.level ≠ none → does (.dbgHalt m) (refused 4)) ∧
    ((∃ c, c ∈ cores ∧ e.attached c = false) → idle (.dbgResume m) ∧ idle (.dbgStep m) ∧ (e.dbg.level = none → idle (.dbgHalt m))) ∧
    (cores ≠ [] → (∀ c, c ∈ cores → e.attached c = true) →
      does (.dbgResume m) (fun e => cores.foldl Engine.resumeCore e) ∧
      (e.lockstep = false → does (.dbgStep m) fun e => cores.foldl (fun e c => e.updCore c fun k => { k with step := k.step || k.halted }) e) ∧
      (e.lockstep = true → e.cpOn DUO_CFG_DEBUG_LEAVE = true → does (.dbgStep m) fun e => waits (.step m) e.duoAnnounce) ∧
      (e.lockstep = true → e.cpOn DUO_CFG_DEBUG_LEAVE = false → does (.dbgStep m) (refused 3)) ∧
      (e.dbg.level = none →
        ((∃ c, c ∈ cores ∧ e.corePowered c = false) →
          (e.lc < 2 → does (.dbgHalt m) fun e => waits (.halt m) (e.requestRun 7)) ∧ (2 ≤ e.lc → does (.dbgHalt m) (refused 4))) ∧
        ((∀ c, c ∈ cores → e.corePowered c = true) →
          (e.lockstep = false → does (.dbgHalt m) fun e => cores.foldl Engine.haltAsk e) ∧
          (e.lockstep = true → e.cpOn DUO_CFG_DEBUG_LEAVE = true → does (.dbgHalt m) fun e => waits (.halt m) e.duoAnnounce) ∧
          (e.lockstep = true → e.cpOn DUO_CFG_DEBUG_LEAVE = false → does (.dbgHalt m) (refused 3))))) ∧
    (∀ c, ((e.coreOf c).halted = true → e.haltAsk c = e) ∧
      ((e.coreOf c).halted = false → (e.ctxOf c).lk = false → ((e.haltAsk c).coreOf c).halted = true ∧ ((e.haltAsk c).coreOf c).resv = none)) ∧
    (open_ ≠ 2 ∨ (e.rd DBG_SCOPE).getLsbD 16 = false → idle .debugReset) ∧
    (open_ = 2 → (e.rd DBG_SCOPE).getLsbD 16 = true →
      (e.lockstep = false → does .debugReset fun e => e.resetWith 6) ∧ (e.lockstep = true → does .debugReset fun e => e.resetAsk 6))

/-- EXTEST, SAMPLE_PRELOAD, IDCODE, CLAMP, HIGHZ, BYPASS, WAKEREQ, TEST_LOGIC_RESET, DPACC. -/
def Obligations.DebugPort : Prop :=
  ∀ (s : State) (cells balls : List Bool) (op a : Nat) (v : Word), a < 2 ^ 32 → s.eng.pwr.off = false →
    let e := s.eng
    let d := e.dbg
    let does (x : Instr) (f : Engine → Engine) : Prop := exec x s = s.does f
    let drives := d.ir = 0 ∨ d.ir = 3 ∨ d.ir = 4
    let select (n : Nat) (e : Engine) : Engine := e.updDbg fun d => { d with ir := n }
    let boundary := e.live = true ∧ e.lc ≠ 3 ∧ e.lc ≠ 7
    let free := boundary ∧ e.pcie.boot.handed = false
    (free → does .clamp (select 3) ∧ does .highz (select 4) ∧ does (.extest none) (select 0) ∧
      does (.extest (some cells)) fun e => e.updDbg fun d => { d with ir := 0, latch := cells }) ∧
    (¬drives →
      (¬free → does .clamp (select 0x1F) ∧ does .highz (select 0x1F) ∧ does (.extest (some cells)) (select 0x1F)) ∧
      (boundary → does (.samplePreload balls cells) fun e => e.updDbg fun d => { d with ir := 1, scan := balls, latch := cells }) ∧
      (¬boundary → does (.samplePreload balls cells) (select 0x1F)) ∧
      does .bypass (select 0x1F) ∧
      does .idcode (fun e => { select 2 e with rdata := BitVec.ofNat 32 (2 * 2 ^ 28 + 0x9616 * 2 ^ 12 + (fuseWord s.fuse 3).toNat / 2 ^ 16 % 2 ^ 11 * 2 + 1) }) ∧
      (e.live = true → does .testLogicReset fun e => (select 2 e).sessionClose 1) ∧
      (e.live = false → does .testLogicReset (select 2)) ∧
      (e.pwr.dormant = true → ∃ u, exec .wakereq s = .next u ∧ u.eng.pwr.wake = some (e.pwr.wake.getD 7) ∧ u.eng.dbg.ir = 9) ∧
      (e.pwr.dormant = false → does .wakereq (select 9)) ∧
      (e.live = false → does (.dpacc op a v) (select 0x1F)) ∧
      (e.live = true → op ≠ 1 → op ≠ 2 → does (.dpacc op a v) (select 8))) ∧
    (drives → e.live = true → e.lockstep = false →
      does .bypass (fun e => select 0x1F ((select 0x1F e).resetWith 6)) ∧ does .wakereq (fun e => select 9 ((select 9 e).resetWith 6))) ∧
    (d.ir = 8 → d.wait = [] → e.live = true →
      let at_ (e : Engine) : Engine := e.updDbg fun d => { d with ir := 8, addr := a }
      let done (st : Nat) (w : Word) (e : Engine) : Engine := { e.updDbg fun d => { d with stat := st, data := w } with rdata := w }
      let lvl := e.get DBG_STATUS_LEVEL
      let inScope := e.dbgInScope a = true
      let plain := e.dbgDown a = false ∧ (e.lockstep = false ∨ e.pairedAddr a = false)
      let by_ : Sender := { hm := 0xE0 + (e.dbgOwner a).getD 0 }
      (dbgAlways a = true → does (.dpacc 1 a v) fun e => let r := (at_ e).fieldRead a; done 0 r.1 r.2) ∧
      (blkOf a = 0x1C → does (.dpacc 2 a v) fun e => let r := (at_ e).dbgRegWrite (offOf a) v; done r.1 0#32 r.2) ∧
      (dbgAlways a = false → lvl = 0 ∨ ¬inScope → does (.dpacc 1 a v) fun e => done 2 0#32 (at_ e)) ∧
      (blkOf a ≠ 0x1C → lvl = 0 ∨ ¬inScope ∨ (lvl ≠ 2 ∧ d.level = none) → does (.dpacc 2 a v) fun e => done 2 0#32 (at_ e)) ∧
      (dbgAlways a = false → lvl ≠ 0 → inScope → plain → ingotOf a = none → dbgCore a = none → e.on DBG_CTRL_SIDEFX = false → does (.dpacc 1 a v) fun e =>
        let r := (at_ e).peek by_ a; done 0 r.1 r.2) ∧
      (dbgAlways a = false → lvl ≠ 0 → inScope → plain → ingotOf a = none → dbgCore a = none → e.on DBG_CTRL_SIDEFX = true → does (.dpacc 1 a v) fun e =>
        let r := (at_ e).regRead by_ a; done 0 r.1 r.2) ∧
      (blkOf a ≠ 0x1C → lvl = 2 → d.level = none → inScope → plain → ingotOf a = none → dbgCore a = none → does (.dpacc 2 a v) fun e =>
        done 0 0#32 ((at_ e).regWrite by_ a v)))

/-- ASSAY_SCRUB, TRACK_ENTRY_EXPIRE, QUAR_LIFTED, AVS_MEASUREMENT, THERMAL_READING, THERM_STOP, LEVEL_DWELL_STEP. -/
def Obligations.AssayAndAdapt : Prop :=
  ∀ (s : State) (by_ : Sender) (a : Nat) (cs : List Nat) (r mv : Nat) (t0 t1 t2 t3 : Int), s.awake = true →
    let e := s.eng
    let does (x : Instr) (f : Engine → Engine) : Prop := exec x s = s.does f
    let idle (x : Instr) : Prop := exec x s = .next s
    let scrubTo (n : Nat) (e : Engine) : Engine := e.updAssay fun x => { x with scrubAt := n }
    (e.on ASSAY_CTRL_SCRUB_EN = false → idle .assayScrub) ∧
    (e.on ASSAY_CTRL_SCRUB_EN = true →
      (∀ b, nextCp e.assay.scrubAt = some b → (nextCp (b + 8)).isSome = true → does .assayScrub fun e => scrubTo (b + 8) ((e.cpCheck b (e.cpOwner b)).resetAnnounce)) ∧
      (∀ b, nextCp e.assay.scrubAt = some b → nextCp (b + 8) = none → does .assayScrub fun e =>
        scrubTo 0 (((scrubTo (b + 8) (e.cpCheck b (e.cpOwner b)).resetAnnounce)).wrap ASSAY_SWEEPS_COUNT)) ∧
      (nextCp e.assay.scrubAt = none → does .assayScrub (scrubTo 0))) ∧
    (∀ o, (e.rd (a + 4) = ~~~ (e.rd a) → e.cpCheck a o = e) ∧
      (e.rd (a + 4) ≠ ~~~ (e.rd a) → e.assay.badHold.contains a = true → e.cpCheck a o = { e.raise (assayEvt 0x07 .fatal 0xFF a 0) with resetReq := some 5 }) ∧
      (e.rd (a + 4) ≠ ~~~ (e.rd a) → e.assay.badHold.contains a = false →
        let h := Tbl.getF resetWord e.assay.hold a
        e.cpCheck a o = ((e.wr a h).wr (a + 4) (~~~ h)).held a (e.rd a) o)) ∧
    (does .trackEntryExpire fun e => (e.updAssay fun x => { x with
      tracked := x.tracked.filter fun t => decide (e.now < t.hits.headD 0 + 614400000) }).assayShow) ∧
    (by_.isCC = false → does (.quarLifted by_ a) fun e => e.raise (assayEvt 0x09 .warn by_.hm 0x030 0)) ∧
    (by_.isCC = true → a % 4 = 0 → isCpEven a = false ∨ a ∉ e.assay.quar → idle (.quarLifted by_ a)) ∧
    (by_.isCC = true → a % 4 = 0 → isCpEven a = true → a ∈ e.assay.quar → ∃ u, exec (.quarLifted by_ a) s = .next u ∧ a ∉ u.eng.assay.quar ∧
      (∀ b, b ≠ a → (b ∈ u.eng.assay.quar ↔ b ∈ e.assay.quar)) ∧ (∀ t, t ∈ u.eng.assay.tracked → t.addr ≠ a)) ∧
    (cs ≠ [] → r ∈ cs → (∀ c, c ∈ cs → r ≤ c) → r < 4096 → mv < 1024 →
      let floor := e.cp ADAPT_AVS_CFG_FLOOR
      let ceil := e.cp ADAPT_AVS_CFG_CEIL
      let req := e.get ADAPT_AVS_REQ_MV
      let low := r * 1000 < 2400 * (1000 + e.get ADAPT_AVS_MARGIN_LO)
      let high := 2400 * (1000 + e.get ADAPT_AVS_MARGIN_HI) < r * 1000
      let next := if e.cpOn ADAPT_POLICY_AVS_EN = false then ceil
        else if low ∧ req < ceil then min ceil (req + 5) else if high ∧ floor < req then max floor (req - 5) else req
      ∃ u, exec (.avsMeasurement cs mv) s = .next u ∧ u.eng.get ADAPT_RO_COUNT = r ∧ u.eng.get ADAPT_AVS_MEAS_MV = mv ∧ u.eng.get ADAPT_AVS_REQ_MV = next ∧
        (u.eng.on ADAPT_STATUS_AT_CEIL = true ↔ low ∧ ceil ≤ next) ∧ (r < 2352 ∨ mv < 640 → u.eng.on ADAPT_STATUS_SAFE_UV = true) ∧
        (2352 ≤ r → 640 ≤ mv → e.on ADAPT_STATUS_SAFE_UV = false → u.eng.on ADAPT_STATUS_SAFE_UV = false)) ∧
    (-1024 ≤ min (min t0 t1) (min t2 t3) → max (max t0 t1) (max t2 t3) < 1024 →
      let th := max (max t0 t1) (max t2 t3)
      let l : Int := 4 * e.cp ADAPT_THERM_CFG_LIMIT
      ∃ u, exec (.thermalReading t0 t1 t2 t3) s = .next u ∧ u.eng.theta = th ∧
        (e.cpOn ADAPT_POLICY_THERM_EN = false → u.eng.adapt.therm = 0) ∧
        (e.cpOn ADAPT_POLICY_THERM_EN = true → (l + 32 ≤ th → u.eng.adapt.therm = 3) ∧ (th < l - 12 → u.eng.adapt.therm = 0) ∧
          (e.adapt.thr = [false, false, false] → u.eng.adapt.therm = if l + 32 ≤ th then 3 else if l + 16 ≤ th then 2 else if l ≤ th then 1 else 0)) ∧
        (460 ≤ th → u.eng.on ADAPT_STATUS_SAFE_THERM = true ∧ u.eng.adapt.hotN = e.adapt.hotN + 1) ∧
        (th < 460 → u.eng.adapt.hotN = 0 ∧ (e.on ADAPT_STATUS_SAFE_THERM = false → u.eng.on ADAPT_STATUS_SAFE_THERM = false)) ∧
        (th < 420 → u.eng.on ADAPT_STATUS_STOPPED = false)) ∧
    (e.on ADAPT_STATUS_STOPPED = true ∨ (e.adapt.hotN < 1001 ∧ e.theta < 500) → idle .thermStop) ∧
    (e.on ADAPT_STATUS_STOPPED = false → 1001 ≤ e.adapt.hotN ∨ 500 ≤ e.theta → ∃ u, exec .thermStop s = .next u ∧
      u.eng.on ADAPT_STATUS_STOPPED = true ∧ u.eng.tick.muted = true ∧ u.eng.on TICK_CFG_RUN = false ∧ u.eng.rd CLK_STATUS = e.rd CLK_STATUS) ∧
    (let lvl := e.get ADAPT_STATUS_LEVEL
     (e.lockstep = true ∨ e.safetyOn = true ∨ lvl ≤ e.get ADAPT_STATUS_TARGET ∨ e.adapt.below < e.get ADAPT_DWELL_TICKS → idle .levelDwellStep) ∧
     (e.lockstep = false → e.safetyOn = false → e.get ADAPT_STATUS_TARGET < lvl → e.get ADAPT_DWELL_TICKS ≤ e.adapt.below → ∃ u, exec .levelDwellStep s = .next u ∧
       u.eng.get ADAPT_STATUS_LEVEL = lvl - 1 ∧ u.eng.adapt.below = 0 ∧ u.eng.get SCHED_SHED_LEVEL = lvl - 1))

/-- The queue of commands; what a step does on an empty one is the model's choice (log entry 2). -/
def Obligations.StepTakesFront : Prop :=
  (∀ (s : State) (c : Instr) (cs : List Instr), s.pending = c :: cs → step s = exec c { s with pending := cs }) ∧
  (∀ s : State, s.pending = [] → (s.awake = true → step s = s.does Engine.cycle) ∧ (s.awake = false → step s = .next s))

/-- `State.reset` and the invariants there. That memory nothing has written reads as zero is the model's choice (log entry 4). -/
def Obligations.ResetState : Prop :=
  let s := State.reset
  s.pending = [] ∧ s.awake = true ∧ s.fuseWf = true ∧ s.memoryWf = true ∧ s.regsWf = true ∧ (∀ a, s.eng.rd a = resetWord a) ∧ (∀ a, s.eng.ldB a = 0#8) ∧
  (∀ i, fuseBlown s.fuse i = false) ∧ s.eng.rd 0x40000000 = 0x96160042#32 ∧ s.eng.rd 0x40000010 = 0x00010004#32 ∧ s.eng.get PWR_RESET_CAUSE_LAST = 1 ∧
  s.eng.rd PWR_IDLE_CORES = 0x7FFF#32 ∧ s.eng.rd WDT_PERIOD = 65536#32 ∧ s.eng.rd CLK_LPO_TRIM = 32#32 ∧ s.eng.stopped = true ∧ s.eng.mode = 0 ∧
  (s.eng.ctxOf 16).mode = 2 ∧ (∀ c, c < 16 → (s.eng.coreOf c).task = none) ∧ s.eng.lockstep = false ∧ s.eng.evBuf = []

/-- What holds of every step and every command. -/
def Obligations.EveryStepCompletesAndKeepsFuses : Prop :=
  (∀ s : State, ∃ t, step s = .next t ∧ t.pending = s.pending.tail ∧ (s.fuseWf = true → t.fuseWf = true) ∧ s.fuseGrows t ∧
    ((∀ c cs, s.pending = c :: cs → blowsFuses c = false) → t.fuse = s.fuse)) ∧
  (∀ (c : Instr) (s : State), s.awake = false → alwaysOn c = false → exec c s = .next s)

/-- The words of the Isalorin instructions (R194 to R262). -/
def Obligations.InstructionWords : Prop :=
  ∀ (c : Instr) (i : Issue), c.issueOf = some i → c.wf = true → i.bad = false →
    (isaEncode c = none → (∃ x, c = .ext i x) ∧ ¬(i.q = 0 ∧ i.inv = false)) ∧
    (∀ w, isaEncode c = some w → w < 2 ^ 32 ∧ isaDecode i.core w = some c)

/-- The end of a FABRIC cycle (R38). -/
def Obligations.EventOrder : Prop :=
  ∀ e : Engine,
    let l := sortEvts e.evBuf
    let r := 2 ^ e.get SYS_EVR_LEN_LOG2
    let wr := e.get SYS_EVR_WR_IDX
    let u := e.flushEvents
    l.Perm e.evBuf ∧ List.Pairwise (fun a b : Evt => a.block < b.block ∨ (a.block = b.block ∧ a.code ≤ b.code)) l ∧ u.evBuf = [] ∧
    (0 < e.get SYS_EVR_LEN_LOG2 → e.get SYS_EVR_LEN_LOG2 ≤ 15 → e.ringOwned = true → e.tick.evrLost = 0 → wr < r →
      l.length ≤ (e.get SYS_EVR_RD_IDX % r + r - 1 - wr) % r →
      u.get SYS_EVR_WR_IDX = (wr + l.length) % r ∧
      ∀ k j v, l[k]? = some v → j < 4 → u.ldW ((e.rd SYS_EVR_BASE).toNat + 16 * ((wr + k) % r) + 4 * j) = v.words.getD j 0#32)

/-- PWR_CMD_IDLE, PWR_CMD_LISTEN, PWR_CMD_DORMANT and IDLE_ENTRY in lockstep (R615). -/
def Obligations.PairKeepsAwake : Prop :=
  ∀ (s : State) (by_ : Sender), s.awake = true → s.eng.on DUO_CTRL_LOCKSTEP = true → by_.isCC = true →
    let refused (c : Instr) (m : Nat) : Prop := ∃ u, exec c s = .next u ∧
      u.eng.evBuf = s.eng.evBuf ++ [{ block := 0x1E, code := 0x02, sev := .warn, hm := by_.hm, w2 := m, w3 := 1, esc := s.eng.tick.esc % 2 ^ 32 }] ∧
      u.eng.get PWR_STATUS_MODE = s.eng.get PWR_STATUS_MODE ∧ u.eng.pwr.want = s.eng.pwr.want ∧ u.eng.pwr.runReq = s.eng.pwr.runReq ∧ u.eng.mem = s.eng.mem
    refused (.pwrCmdIdle by_) 1 ∧ refused (.pwrCmdListen by_) 2 ∧ refused (.pwrCmdDormant by_) 3 ∧
    (s.eng.pwr.want ≠ some 1 → exec .idleEntry s = .next s)

/-- The always-on register of the LPO through modes and resets (R68). -/
def Obligations.LpoTrimKept : Prop :=
  ∀ (s : State) (c : Instr),
    (c ∈ [Instr.idleEntry, .idleExit, .listenEntry, .listenExit, .dormantEntry, .dormantWake, .softwareReset, .watchdogReset, .debugReset] ∨
      (∃ low g, c = .resetNReset low g) ∨ (∃ ok, c = .supplyReset ok) →
      ∃ t, exec c s = .next t ∧ t.eng.rd CLK_LPO_TRIM = s.eng.rd CLK_LPO_TRIM) ∧
    (∀ up, c = .powerOnReset up → ∃ t, exec c s = .next t ∧ t.eng.rd CLK_LPO_TRIM = 32#32)
end

