-- ==== Sys2Proof/Laws/State.lean ====
section
/-!
SUPPORT. One lemma a field for every update of the engine: an update of one part leaves the others
as they were, and shows the new value in its own. All are true by `rfl`, so that no proof unfolds a
record update.
-/
namespace Sys2Proof.Machine

section Fields

variable (e : Engine)

/-! ### updTick -/

@[simp] theorem Engine.updTick_regs (f : TickSt → TickSt) : (e.updTick f).regs = e.regs := rfl
@[simp] theorem Engine.updTick_mem (f : TickSt → TickSt) : (e.updTick f).mem = e.mem := rfl
@[simp] theorem Engine.updTick_now (f : TickSt → TickSt) : (e.updTick f).now = e.now := rfl
@[simp] theorem Engine.updTick_free (f : TickSt → TickSt) : (e.updTick f).free = e.free := rfl
@[simp] theorem Engine.updTick_rdata (f : TickSt → TickSt) : (e.updTick f).rdata = e.rdata := rfl
@[simp] theorem Engine.updTick_cpPend (f : TickSt → TickSt) : (e.updTick f).cpPend = e.cpPend := rfl
@[simp] theorem Engine.updTick_cpDue (f : TickSt → TickSt) : (e.updTick f).cpDue = e.cpDue := rfl
@[simp] theorem Engine.updTick_evBuf (f : TickSt → TickSt) : (e.updTick f).evBuf = e.evBuf := rfl
@[simp] theorem Engine.updTick_caps (f : TickSt → TickSt) : (e.updTick f).caps = e.caps := rfl
@[simp] theorem Engine.updTick_tick (f : TickSt → TickSt) : (e.updTick f).tick = f e.tick := rfl
@[simp] theorem Engine.updTick_clk (f : TickSt → TickSt) : (e.updTick f).clk = e.clk := rfl
@[simp] theorem Engine.updTick_ref (f : TickSt → TickSt) : (e.updTick f).ref = e.ref := rfl
@[simp] theorem Engine.updTick_time (f : TickSt → TickSt) : (e.updTick f).time = e.time := rfl
@[simp] theorem Engine.updTick_taq (f : TickSt → TickSt) : (e.updTick f).taq = e.taq := rfl
@[simp] theorem Engine.updTick_mbx (f : TickSt → TickSt) : (e.updTick f).mbx = e.mbx := rfl
@[simp] theorem Engine.updTick_assay (f : TickSt → TickSt) : (e.updTick f).assay = e.assay := rfl
@[simp] theorem Engine.updTick_core (f : TickSt → TickSt) : (e.updTick f).core = e.core := rfl
@[simp] theorem Engine.updTick_ingot (f : TickSt → TickSt) : (e.updTick f).ingot = e.ingot := rfl
@[simp] theorem Engine.updTick_xlat (f : TickSt → TickSt) : (e.updTick f).xlat = e.xlat := rfl
@[simp] theorem Engine.updTick_dma (f : TickSt → TickSt) : (e.updTick f).dma = e.dma := rfl
@[simp] theorem Engine.updTick_sched (f : TickSt → TickSt) : (e.updTick f).sched = e.sched := rfl
@[simp] theorem Engine.updTick_resetReq (f : TickSt → TickSt) : (e.updTick f).resetReq = e.resetReq := rfl
@[simp] theorem Engine.updTick_audio (f : TickSt → TickSt) : (e.updTick f).audio = e.audio := rfl
@[simp] theorem Engine.updTick_route (f : TickSt → TickSt) : (e.updTick f).route = e.route := rfl
@[simp] theorem Engine.updTick_sumx (f : TickSt → TickSt) : (e.updTick f).sumx = e.sumx := rfl
@[simp] theorem Engine.updTick_eqa (f : TickSt → TickSt) : (e.updTick f).eqa = e.eqa := rfl
@[simp] theorem Engine.updTick_safe (f : TickSt → TickSt) : (e.updTick f).safe = e.safe := rfl
@[simp] theorem Engine.updTick_duo (f : TickSt → TickSt) : (e.updTick f).duo = e.duo := rfl
@[simp] theorem Engine.updTick_pwr (f : TickSt → TickSt) : (e.updTick f).pwr = e.pwr := rfl
@[simp] theorem Engine.updTick_sap (f : TickSt → TickSt) : (e.updTick f).sap = e.sap := rfl
@[simp] theorem Engine.updTick_madi (f : TickSt → TickSt) : (e.updTick f).madi = e.madi := rfl
@[simp] theorem Engine.updTick_net (f : TickSt → TickSt) : (e.updTick f).net = e.net := rfl
@[simp] theorem Engine.updTick_cue (f : TickSt → TickSt) : (e.updTick f).cue = e.cue := rfl
@[simp] theorem Engine.updTick_pcie (f : TickSt → TickSt) : (e.updTick f).pcie = e.pcie := rfl
@[simp] theorem Engine.updTick_twb (f : TickSt → TickSt) : (e.updTick f).twb = e.twb := rfl
@[simp] theorem Engine.updTick_sec (f : TickSt → TickSt) : (e.updTick f).sec = e.sec := rfl
@[simp] theorem Engine.updTick_dbg (f : TickSt → TickSt) : (e.updTick f).dbg = e.dbg := rfl
@[simp] theorem Engine.updTick_adapt (f : TickSt → TickSt) : (e.updTick f).adapt = e.adapt := rfl

/-! ### updClk -/

@[simp] theorem Engine.updClk_regs (f : ClkSt → ClkSt) : (e.updClk f).regs = e.regs := rfl
@[simp] theorem Engine.updClk_mem (f : ClkSt → ClkSt) : (e.updClk f).mem = e.mem := rfl
@[simp] theorem Engine.updClk_now (f : ClkSt → ClkSt) : (e.updClk f).now = e.now := rfl
@[simp] theorem Engine.updClk_free (f : ClkSt → ClkSt) : (e.updClk f).free = e.free := rfl
@[simp] theorem Engine.updClk_rdata (f : ClkSt → ClkSt) : (e.updClk f).rdata = e.rdata := rfl
@[simp] theorem Engine.updClk_cpPend (f : ClkSt → ClkSt) : (e.updClk f).cpPend = e.cpPend := rfl
@[simp] theorem Engine.updClk_cpDue (f : ClkSt → ClkSt) : (e.updClk f).cpDue = e.cpDue := rfl
@[simp] theorem Engine.updClk_evBuf (f : ClkSt → ClkSt) : (e.updClk f).evBuf = e.evBuf := rfl
@[simp] theorem Engine.updClk_caps (f : ClkSt → ClkSt) : (e.updClk f).caps = e.caps := rfl
@[simp] theorem Engine.updClk_tick (f : ClkSt → ClkSt) : (e.updClk f).tick = e.tick := rfl
@[simp] theorem Engine.updClk_clk (f : ClkSt → ClkSt) : (e.updClk f).clk = f e.clk := rfl
@[simp] theorem Engine.updClk_ref (f : ClkSt → ClkSt) : (e.updClk f).ref = e.ref := rfl
@[simp] theorem Engine.updClk_time (f : ClkSt → ClkSt) : (e.updClk f).time = e.time := rfl
@[simp] theorem Engine.updClk_taq (f : ClkSt → ClkSt) : (e.updClk f).taq = e.taq := rfl
@[simp] theorem Engine.updClk_mbx (f : ClkSt → ClkSt) : (e.updClk f).mbx = e.mbx := rfl
@[simp] theorem Engine.updClk_assay (f : ClkSt → ClkSt) : (e.updClk f).assay = e.assay := rfl
@[simp] theorem Engine.updClk_core (f : ClkSt → ClkSt) : (e.updClk f).core = e.core := rfl
@[simp] theorem Engine.updClk_ingot (f : ClkSt → ClkSt) : (e.updClk f).ingot = e.ingot := rfl
@[simp] theorem Engine.updClk_xlat (f : ClkSt → ClkSt) : (e.updClk f).xlat = e.xlat := rfl
@[simp] theorem Engine.updClk_dma (f : ClkSt → ClkSt) : (e.updClk f).dma = e.dma := rfl
@[simp] theorem Engine.updClk_sched (f : ClkSt → ClkSt) : (e.updClk f).sched = e.sched := rfl
@[simp] theorem Engine.updClk_resetReq (f : ClkSt → ClkSt) : (e.updClk f).resetReq = e.resetReq := rfl
@[simp] theorem Engine.updClk_audio (f : ClkSt → ClkSt) : (e.updClk f).audio = e.audio := rfl
@[simp] theorem Engine.updClk_route (f : ClkSt → ClkSt) : (e.updClk f).route = e.route := rfl
@[simp] theorem Engine.updClk_sumx (f : ClkSt → ClkSt) : (e.updClk f).sumx = e.sumx := rfl
@[simp] theorem Engine.updClk_eqa (f : ClkSt → ClkSt) : (e.updClk f).eqa = e.eqa := rfl
@[simp] theorem Engine.updClk_safe (f : ClkSt → ClkSt) : (e.updClk f).safe = e.safe := rfl
@[simp] theorem Engine.updClk_duo (f : ClkSt → ClkSt) : (e.updClk f).duo = e.duo := rfl
@[simp] theorem Engine.updClk_pwr (f : ClkSt → ClkSt) : (e.updClk f).pwr = e.pwr := rfl
@[simp] theorem Engine.updClk_sap (f : ClkSt → ClkSt) : (e.updClk f).sap = e.sap := rfl
@[simp] theorem Engine.updClk_madi (f : ClkSt → ClkSt) : (e.updClk f).madi = e.madi := rfl
@[simp] theorem Engine.updClk_net (f : ClkSt → ClkSt) : (e.updClk f).net = e.net := rfl
@[simp] theorem Engine.updClk_cue (f : ClkSt → ClkSt) : (e.updClk f).cue = e.cue := rfl
@[simp] theorem Engine.updClk_pcie (f : ClkSt → ClkSt) : (e.updClk f).pcie = e.pcie := rfl
@[simp] theorem Engine.updClk_twb (f : ClkSt → ClkSt) : (e.updClk f).twb = e.twb := rfl
@[simp] theorem Engine.updClk_sec (f : ClkSt → ClkSt) : (e.updClk f).sec = e.sec := rfl
@[simp] theorem Engine.updClk_dbg (f : ClkSt → ClkSt) : (e.updClk f).dbg = e.dbg := rfl
@[simp] theorem Engine.updClk_adapt (f : ClkSt → ClkSt) : (e.updClk f).adapt = e.adapt := rfl

/-! ### updRef -/

@[simp] theorem Engine.updRef_regs (f : RefSt → RefSt) : (e.updRef f).regs = e.regs := rfl
@[simp] theorem Engine.updRef_mem (f : RefSt → RefSt) : (e.updRef f).mem = e.mem := rfl
@[simp] theorem Engine.updRef_now (f : RefSt → RefSt) : (e.updRef f).now = e.now := rfl
@[simp] theorem Engine.updRef_free (f : RefSt → RefSt) : (e.updRef f).free = e.free := rfl
@[simp] theorem Engine.updRef_rdata (f : RefSt → RefSt) : (e.updRef f).rdata = e.rdata := rfl
@[simp] theorem Engine.updRef_cpPend (f : RefSt → RefSt) : (e.updRef f).cpPend = e.cpPend := rfl
@[simp] theorem Engine.updRef_cpDue (f : RefSt → RefSt) : (e.updRef f).cpDue = e.cpDue := rfl
@[simp] theorem Engine.updRef_evBuf (f : RefSt → RefSt) : (e.updRef f).evBuf = e.evBuf := rfl
@[simp] theorem Engine.updRef_caps (f : RefSt → RefSt) : (e.updRef f).caps = e.caps := rfl
@[simp] theorem Engine.updRef_tick (f : RefSt → RefSt) : (e.updRef f).tick = e.tick := rfl
@[simp] theorem Engine.updRef_clk (f : RefSt → RefSt) : (e.updRef f).clk = e.clk := rfl
@[simp] theorem Engine.updRef_ref (f : RefSt → RefSt) : (e.updRef f).ref = f e.ref := rfl
@[simp] theorem Engine.updRef_time (f : RefSt → RefSt) : (e.updRef f).time = e.time := rfl
@[simp] theorem Engine.updRef_taq (f : RefSt → RefSt) : (e.updRef f).taq = e.taq := rfl
@[simp] theorem Engine.updRef_mbx (f : RefSt → RefSt) : (e.updRef f).mbx = e.mbx := rfl
@[simp] theorem Engine.updRef_assay (f : RefSt → RefSt) : (e.updRef f).assay = e.assay := rfl
@[simp] theorem Engine.updRef_core (f : RefSt → RefSt) : (e.updRef f).core = e.core := rfl
@[simp] theorem Engine.updRef_ingot (f : RefSt → RefSt) : (e.updRef f).ingot = e.ingot := rfl
@[simp] theorem Engine.updRef_xlat (f : RefSt → RefSt) : (e.updRef f).xlat = e.xlat := rfl
@[simp] theorem Engine.updRef_dma (f : RefSt → RefSt) : (e.updRef f).dma = e.dma := rfl
@[simp] theorem Engine.updRef_sched (f : RefSt → RefSt) : (e.updRef f).sched = e.sched := rfl
@[simp] theorem Engine.updRef_resetReq (f : RefSt → RefSt) : (e.updRef f).resetReq = e.resetReq := rfl
@[simp] theorem Engine.updRef_audio (f : RefSt → RefSt) : (e.updRef f).audio = e.audio := rfl
@[simp] theorem Engine.updRef_route (f : RefSt → RefSt) : (e.updRef f).route = e.route := rfl
@[simp] theorem Engine.updRef_sumx (f : RefSt → RefSt) : (e.updRef f).sumx = e.sumx := rfl
@[simp] theorem Engine.updRef_eqa (f : RefSt → RefSt) : (e.updRef f).eqa = e.eqa := rfl
@[simp] theorem Engine.updRef_safe (f : RefSt → RefSt) : (e.updRef f).safe = e.safe := rfl
@[simp] theorem Engine.updRef_duo (f : RefSt → RefSt) : (e.updRef f).duo = e.duo := rfl
@[simp] theorem Engine.updRef_pwr (f : RefSt → RefSt) : (e.updRef f).pwr = e.pwr := rfl
@[simp] theorem Engine.updRef_sap (f : RefSt → RefSt) : (e.updRef f).sap = e.sap := rfl
@[simp] theorem Engine.updRef_madi (f : RefSt → RefSt) : (e.updRef f).madi = e.madi := rfl
@[simp] theorem Engine.updRef_net (f : RefSt → RefSt) : (e.updRef f).net = e.net := rfl
@[simp] theorem Engine.updRef_cue (f : RefSt → RefSt) : (e.updRef f).cue = e.cue := rfl
@[simp] theorem Engine.updRef_pcie (f : RefSt → RefSt) : (e.updRef f).pcie = e.pcie := rfl
@[simp] theorem Engine.updRef_twb (f : RefSt → RefSt) : (e.updRef f).twb = e.twb := rfl
@[simp] theorem Engine.updRef_sec (f : RefSt → RefSt) : (e.updRef f).sec = e.sec := rfl
@[simp] theorem Engine.updRef_dbg (f : RefSt → RefSt) : (e.updRef f).dbg = e.dbg := rfl
@[simp] theorem Engine.updRef_adapt (f : RefSt → RefSt) : (e.updRef f).adapt = e.adapt := rfl

/-! ### updTime -/

@[simp] theorem Engine.updTime_regs (f : TimeSt → TimeSt) : (e.updTime f).regs = e.regs := rfl
@[simp] theorem Engine.updTime_mem (f : TimeSt → TimeSt) : (e.updTime f).mem = e.mem := rfl
@[simp] theorem Engine.updTime_now (f : TimeSt → TimeSt) : (e.updTime f).now = e.now := rfl
@[simp] theorem Engine.updTime_free (f : TimeSt → TimeSt) : (e.updTime f).free = e.free := rfl
@[simp] theorem Engine.updTime_rdata (f : TimeSt → TimeSt) : (e.updTime f).rdata = e.rdata := rfl
@[simp] theorem Engine.updTime_cpPend (f : TimeSt → TimeSt) : (e.updTime f).cpPend = e.cpPend := rfl
@[simp] theorem Engine.updTime_cpDue (f : TimeSt → TimeSt) : (e.updTime f).cpDue = e.cpDue := rfl
@[simp] theorem Engine.updTime_evBuf (f : TimeSt → TimeSt) : (e.updTime f).evBuf = e.evBuf := rfl
@[simp] theorem Engine.updTime_caps (f : TimeSt → TimeSt) : (e.updTime f).caps = e.caps := rfl
@[simp] theorem Engine.updTime_tick (f : TimeSt → TimeSt) : (e.updTime f).tick = e.tick := rfl
@[simp] theorem Engine.updTime_clk (f : TimeSt → TimeSt) : (e.updTime f).clk = e.clk := rfl
@[simp] theorem Engine.updTime_ref (f : TimeSt → TimeSt) : (e.updTime f).ref = e.ref := rfl
@[simp] theorem Engine.updTime_time (f : TimeSt → TimeSt) : (e.updTime f).time = f e.time := rfl
@[simp] theorem Engine.updTime_taq (f : TimeSt → TimeSt) : (e.updTime f).taq = e.taq := rfl
@[simp] theorem Engine.updTime_mbx (f : TimeSt → TimeSt) : (e.updTime f).mbx = e.mbx := rfl
@[simp] theorem Engine.updTime_assay (f : TimeSt → TimeSt) : (e.updTime f).assay = e.assay := rfl
@[simp] theorem Engine.updTime_core (f : TimeSt → TimeSt) : (e.updTime f).core = e.core := rfl
@[simp] theorem Engine.updTime_ingot (f : TimeSt → TimeSt) : (e.updTime f).ingot = e.ingot := rfl
@[simp] theorem Engine.updTime_xlat (f : TimeSt → TimeSt) : (e.updTime f).xlat = e.xlat := rfl
@[simp] theorem Engine.updTime_dma (f : TimeSt → TimeSt) : (e.updTime f).dma = e.dma := rfl
@[simp] theorem Engine.updTime_sched (f : TimeSt → TimeSt) : (e.updTime f).sched = e.sched := rfl
@[simp] theorem Engine.updTime_resetReq (f : TimeSt → TimeSt) : (e.updTime f).resetReq = e.resetReq := rfl
@[simp] theorem Engine.updTime_audio (f : TimeSt → TimeSt) : (e.updTime f).audio = e.audio := rfl
@[simp] theorem Engine.updTime_route (f : TimeSt → TimeSt) : (e.updTime f).route = e.route := rfl
@[simp] theorem Engine.updTime_sumx (f : TimeSt → TimeSt) : (e.updTime f).sumx = e.sumx := rfl
@[simp] theorem Engine.updTime_eqa (f : TimeSt → TimeSt) : (e.updTime f).eqa = e.eqa := rfl
@[simp] theorem Engine.updTime_safe (f : TimeSt → TimeSt) : (e.updTime f).safe = e.safe := rfl
@[simp] theorem Engine.updTime_duo (f : TimeSt → TimeSt) : (e.updTime f).duo = e.duo := rfl
@[simp] theorem Engine.updTime_pwr (f : TimeSt → TimeSt) : (e.updTime f).pwr = e.pwr := rfl
@[simp] theorem Engine.updTime_sap (f : TimeSt → TimeSt) : (e.updTime f).sap = e.sap := rfl
@[simp] theorem Engine.updTime_madi (f : TimeSt → TimeSt) : (e.updTime f).madi = e.madi := rfl
@[simp] theorem Engine.updTime_net (f : TimeSt → TimeSt) : (e.updTime f).net = e.net := rfl
@[simp] theorem Engine.updTime_cue (f : TimeSt → TimeSt) : (e.updTime f).cue = e.cue := rfl
@[simp] theorem Engine.updTime_pcie (f : TimeSt → TimeSt) : (e.updTime f).pcie = e.pcie := rfl
@[simp] theorem Engine.updTime_twb (f : TimeSt → TimeSt) : (e.updTime f).twb = e.twb := rfl
@[simp] theorem Engine.updTime_sec (f : TimeSt → TimeSt) : (e.updTime f).sec = e.sec := rfl
@[simp] theorem Engine.updTime_dbg (f : TimeSt → TimeSt) : (e.updTime f).dbg = e.dbg := rfl
@[simp] theorem Engine.updTime_adapt (f : TimeSt → TimeSt) : (e.updTime f).adapt = e.adapt := rfl

/-! ### updTaq -/

@[simp] theorem Engine.updTaq_regs (f : TaqSt → TaqSt) : (e.updTaq f).regs = e.regs := rfl
@[simp] theorem Engine.updTaq_mem (f : TaqSt → TaqSt) : (e.updTaq f).mem = e.mem := rfl
@[simp] theorem Engine.updTaq_now (f : TaqSt → TaqSt) : (e.updTaq f).now = e.now := rfl
@[simp] theorem Engine.updTaq_free (f : TaqSt → TaqSt) : (e.updTaq f).free = e.free := rfl
@[simp] theorem Engine.updTaq_rdata (f : TaqSt → TaqSt) : (e.updTaq f).rdata = e.rdata := rfl
@[simp] theorem Engine.updTaq_cpPend (f : TaqSt → TaqSt) : (e.updTaq f).cpPend = e.cpPend := rfl
@[simp] theorem Engine.updTaq_cpDue (f : TaqSt → TaqSt) : (e.updTaq f).cpDue = e.cpDue := rfl
@[simp] theorem Engine.updTaq_evBuf (f : TaqSt → TaqSt) : (e.updTaq f).evBuf = e.evBuf := rfl
@[simp] theorem Engine.updTaq_caps (f : TaqSt → TaqSt) : (e.updTaq f).caps = e.caps := rfl
@[simp] theorem Engine.updTaq_tick (f : TaqSt → TaqSt) : (e.updTaq f).tick = e.tick := rfl
@[simp] theorem Engine.updTaq_clk (f : TaqSt → TaqSt) : (e.updTaq f).clk = e.clk := rfl
@[simp] theorem Engine.updTaq_ref (f : TaqSt → TaqSt) : (e.updTaq f).ref = e.ref := rfl
@[simp] theorem Engine.updTaq_time (f : TaqSt → TaqSt) : (e.updTaq f).time = e.time := rfl
@[simp] theorem Engine.updTaq_taq (f : TaqSt → TaqSt) : (e.updTaq f).taq = f e.taq := rfl
@[simp] theorem Engine.updTaq_mbx (f : TaqSt → TaqSt) : (e.updTaq f).mbx = e.mbx := rfl
@[simp] theorem Engine.updTaq_assay (f : TaqSt → TaqSt) : (e.updTaq f).assay = e.assay := rfl
@[simp] theorem Engine.updTaq_core (f : TaqSt → TaqSt) : (e.updTaq f).core = e.core := rfl
@[simp] theorem Engine.updTaq_ingot (f : TaqSt → TaqSt) : (e.updTaq f).ingot = e.ingot := rfl
@[simp] theorem Engine.updTaq_xlat (f : TaqSt → TaqSt) : (e.updTaq f).xlat = e.xlat := rfl
@[simp] theorem Engine.updTaq_dma (f : TaqSt → TaqSt) : (e.updTaq f).dma = e.dma := rfl
@[simp] theorem Engine.updTaq_sched (f : TaqSt → TaqSt) : (e.updTaq f).sched = e.sched := rfl
@[simp] theorem Engine.updTaq_resetReq (f : TaqSt → TaqSt) : (e.updTaq f).resetReq = e.resetReq := rfl
@[simp] theorem Engine.updTaq_audio (f : TaqSt → TaqSt) : (e.updTaq f).audio = e.audio := rfl
@[simp] theorem Engine.updTaq_route (f : TaqSt → TaqSt) : (e.updTaq f).route = e.route := rfl
@[simp] theorem Engine.updTaq_sumx (f : TaqSt → TaqSt) : (e.updTaq f).sumx = e.sumx := rfl
@[simp] theorem Engine.updTaq_eqa (f : TaqSt → TaqSt) : (e.updTaq f).eqa = e.eqa := rfl
@[simp] theorem Engine.updTaq_safe (f : TaqSt → TaqSt) : (e.updTaq f).safe = e.safe := rfl
@[simp] theorem Engine.updTaq_duo (f : TaqSt → TaqSt) : (e.updTaq f).duo = e.duo := rfl
@[simp] theorem Engine.updTaq_pwr (f : TaqSt → TaqSt) : (e.updTaq f).pwr = e.pwr := rfl
@[simp] theorem Engine.updTaq_sap (f : TaqSt → TaqSt) : (e.updTaq f).sap = e.sap := rfl
@[simp] theorem Engine.updTaq_madi (f : TaqSt → TaqSt) : (e.updTaq f).madi = e.madi := rfl
@[simp] theorem Engine.updTaq_net (f : TaqSt → TaqSt) : (e.updTaq f).net = e.net := rfl
@[simp] theorem Engine.updTaq_cue (f : TaqSt → TaqSt) : (e.updTaq f).cue = e.cue := rfl
@[simp] theorem Engine.updTaq_pcie (f : TaqSt → TaqSt) : (e.updTaq f).pcie = e.pcie := rfl
@[simp] theorem Engine.updTaq_twb (f : TaqSt → TaqSt) : (e.updTaq f).twb = e.twb := rfl
@[simp] theorem Engine.updTaq_sec (f : TaqSt → TaqSt) : (e.updTaq f).sec = e.sec := rfl
@[simp] theorem Engine.updTaq_dbg (f : TaqSt → TaqSt) : (e.updTaq f).dbg = e.dbg := rfl
@[simp] theorem Engine.updTaq_adapt (f : TaqSt → TaqSt) : (e.updTaq f).adapt = e.adapt := rfl

/-! ### updMbx -/

@[simp] theorem Engine.updMbx_regs (f : MbxSt → MbxSt) : (e.updMbx f).regs = e.regs := rfl
@[simp] theorem Engine.updMbx_mem (f : MbxSt → MbxSt) : (e.updMbx f).mem = e.mem := rfl
@[simp] theorem Engine.updMbx_now (f : MbxSt → MbxSt) : (e.updMbx f).now = e.now := rfl
@[simp] theorem Engine.updMbx_free (f : MbxSt → MbxSt) : (e.updMbx f).free = e.free := rfl
@[simp] theorem Engine.updMbx_rdata (f : MbxSt → MbxSt) : (e.updMbx f).rdata = e.rdata := rfl
@[simp] theorem Engine.updMbx_cpPend (f : MbxSt → MbxSt) : (e.updMbx f).cpPend = e.cpPend := rfl
@[simp] theorem Engine.updMbx_cpDue (f : MbxSt → MbxSt) : (e.updMbx f).cpDue = e.cpDue := rfl
@[simp] theorem Engine.updMbx_evBuf (f : MbxSt → MbxSt) : (e.updMbx f).evBuf = e.evBuf := rfl
@[simp] theorem Engine.updMbx_caps (f : MbxSt → MbxSt) : (e.updMbx f).caps = e.caps := rfl
@[simp] theorem Engine.updMbx_tick (f : MbxSt → MbxSt) : (e.updMbx f).tick = e.tick := rfl
@[simp] theorem Engine.updMbx_clk (f : MbxSt → MbxSt) : (e.updMbx f).clk = e.clk := rfl
@[simp] theorem Engine.updMbx_ref (f : MbxSt → MbxSt) : (e.updMbx f).ref = e.ref := rfl
@[simp] theorem Engine.updMbx_time (f : MbxSt → MbxSt) : (e.updMbx f).time = e.time := rfl
@[simp] theorem Engine.updMbx_taq (f : MbxSt → MbxSt) : (e.updMbx f).taq = e.taq := rfl
@[simp] theorem Engine.updMbx_mbx (f : MbxSt → MbxSt) : (e.updMbx f).mbx = f e.mbx := rfl
@[simp] theorem Engine.updMbx_assay (f : MbxSt → MbxSt) : (e.updMbx f).assay = e.assay := rfl
@[simp] theorem Engine.updMbx_core (f : MbxSt → MbxSt) : (e.updMbx f).core = e.core := rfl
@[simp] theorem Engine.updMbx_ingot (f : MbxSt → MbxSt) : (e.updMbx f).ingot = e.ingot := rfl
@[simp] theorem Engine.updMbx_xlat (f : MbxSt → MbxSt) : (e.updMbx f).xlat = e.xlat := rfl
@[simp] theorem Engine.updMbx_dma (f : MbxSt → MbxSt) : (e.updMbx f).dma = e.dma := rfl
@[simp] theorem Engine.updMbx_sched (f : MbxSt → MbxSt) : (e.updMbx f).sched = e.sched := rfl
@[simp] theorem Engine.updMbx_resetReq (f : MbxSt → MbxSt) : (e.updMbx f).resetReq = e.resetReq := rfl
@[simp] theorem Engine.updMbx_audio (f : MbxSt → MbxSt) : (e.updMbx f).audio = e.audio := rfl
@[simp] theorem Engine.updMbx_route (f : MbxSt → MbxSt) : (e.updMbx f).route = e.route := rfl
@[simp] theorem Engine.updMbx_sumx (f : MbxSt → MbxSt) : (e.updMbx f).sumx = e.sumx := rfl
@[simp] theorem Engine.updMbx_eqa (f : MbxSt → MbxSt) : (e.updMbx f).eqa = e.eqa := rfl
@[simp] theorem Engine.updMbx_safe (f : MbxSt → MbxSt) : (e.updMbx f).safe = e.safe := rfl
@[simp] theorem Engine.updMbx_duo (f : MbxSt → MbxSt) : (e.updMbx f).duo = e.duo := rfl
@[simp] theorem Engine.updMbx_pwr (f : MbxSt → MbxSt) : (e.updMbx f).pwr = e.pwr := rfl
@[simp] theorem Engine.updMbx_sap (f : MbxSt → MbxSt) : (e.updMbx f).sap = e.sap := rfl
@[simp] theorem Engine.updMbx_madi (f : MbxSt → MbxSt) : (e.updMbx f).madi = e.madi := rfl
@[simp] theorem Engine.updMbx_net (f : MbxSt → MbxSt) : (e.updMbx f).net = e.net := rfl
@[simp] theorem Engine.updMbx_cue (f : MbxSt → MbxSt) : (e.updMbx f).cue = e.cue := rfl
@[simp] theorem Engine.updMbx_pcie (f : MbxSt → MbxSt) : (e.updMbx f).pcie = e.pcie := rfl
@[simp] theorem Engine.updMbx_twb (f : MbxSt → MbxSt) : (e.updMbx f).twb = e.twb := rfl
@[simp] theorem Engine.updMbx_sec (f : MbxSt → MbxSt) : (e.updMbx f).sec = e.sec := rfl
@[simp] theorem Engine.updMbx_dbg (f : MbxSt → MbxSt) : (e.updMbx f).dbg = e.dbg := rfl
@[simp] theorem Engine.updMbx_adapt (f : MbxSt → MbxSt) : (e.updMbx f).adapt = e.adapt := rfl

/-! ### updAssay -/

@[simp] theorem Engine.updAssay_regs (f : AssaySt → AssaySt) : (e.updAssay f).regs = e.regs := rfl
@[simp] theorem Engine.updAssay_mem (f : AssaySt → AssaySt) : (e.updAssay f).mem = e.mem := rfl
@[simp] theorem Engine.updAssay_now (f : AssaySt → AssaySt) : (e.updAssay f).now = e.now := rfl
@[simp] theorem Engine.updAssay_free (f : AssaySt → AssaySt) : (e.updAssay f).free = e.free := rfl
@[simp] theorem Engine.updAssay_rdata (f : AssaySt → AssaySt) : (e.updAssay f).rdata = e.rdata := rfl
@[simp] theorem Engine.updAssay_cpPend (f : AssaySt → AssaySt) : (e.updAssay f).cpPend = e.cpPend := rfl
@[simp] theorem Engine.updAssay_cpDue (f : AssaySt → AssaySt) : (e.updAssay f).cpDue = e.cpDue := rfl
@[simp] theorem Engine.updAssay_evBuf (f : AssaySt → AssaySt) : (e.updAssay f).evBuf = e.evBuf := rfl
@[simp] theorem Engine.updAssay_caps (f : AssaySt → AssaySt) : (e.updAssay f).caps = e.caps := rfl
@[simp] theorem Engine.updAssay_tick (f : AssaySt → AssaySt) : (e.updAssay f).tick = e.tick := rfl
@[simp] theorem Engine.updAssay_clk (f : AssaySt → AssaySt) : (e.updAssay f).clk = e.clk := rfl
@[simp] theorem Engine.updAssay_ref (f : AssaySt → AssaySt) : (e.updAssay f).ref = e.ref := rfl
@[simp] theorem Engine.updAssay_time (f : AssaySt → AssaySt) : (e.updAssay f).time = e.time := rfl
@[simp] theorem Engine.updAssay_taq (f : AssaySt → AssaySt) : (e.updAssay f).taq = e.taq := rfl
@[simp] theorem Engine.updAssay_mbx (f : AssaySt → AssaySt) : (e.updAssay f).mbx = e.mbx := rfl
@[simp] theorem Engine.updAssay_assay (f : AssaySt → AssaySt) : (e.updAssay f).assay = f e.assay := rfl
@[simp] theorem Engine.updAssay_core (f : AssaySt → AssaySt) : (e.updAssay f).core = e.core := rfl
@[simp] theorem Engine.updAssay_ingot (f : AssaySt → AssaySt) : (e.updAssay f).ingot = e.ingot := rfl
@[simp] theorem Engine.updAssay_xlat (f : AssaySt → AssaySt) : (e.updAssay f).xlat = e.xlat := rfl
@[simp] theorem Engine.updAssay_dma (f : AssaySt → AssaySt) : (e.updAssay f).dma = e.dma := rfl
@[simp] theorem Engine.updAssay_sched (f : AssaySt → AssaySt) : (e.updAssay f).sched = e.sched := rfl
@[simp] theorem Engine.updAssay_resetReq (f : AssaySt → AssaySt) : (e.updAssay f).resetReq = e.resetReq := rfl
@[simp] theorem Engine.updAssay_audio (f : AssaySt → AssaySt) : (e.updAssay f).audio = e.audio := rfl
@[simp] theorem Engine.updAssay_route (f : AssaySt → AssaySt) : (e.updAssay f).route = e.route := rfl
@[simp] theorem Engine.updAssay_sumx (f : AssaySt → AssaySt) : (e.updAssay f).sumx = e.sumx := rfl
@[simp] theorem Engine.updAssay_eqa (f : AssaySt → AssaySt) : (e.updAssay f).eqa = e.eqa := rfl
@[simp] theorem Engine.updAssay_safe (f : AssaySt → AssaySt) : (e.updAssay f).safe = e.safe := rfl
@[simp] theorem Engine.updAssay_duo (f : AssaySt → AssaySt) : (e.updAssay f).duo = e.duo := rfl
@[simp] theorem Engine.updAssay_pwr (f : AssaySt → AssaySt) : (e.updAssay f).pwr = e.pwr := rfl
@[simp] theorem Engine.updAssay_sap (f : AssaySt → AssaySt) : (e.updAssay f).sap = e.sap := rfl
@[simp] theorem Engine.updAssay_madi (f : AssaySt → AssaySt) : (e.updAssay f).madi = e.madi := rfl
@[simp] theorem Engine.updAssay_net (f : AssaySt → AssaySt) : (e.updAssay f).net = e.net := rfl
@[simp] theorem Engine.updAssay_cue (f : AssaySt → AssaySt) : (e.updAssay f).cue = e.cue := rfl
@[simp] theorem Engine.updAssay_pcie (f : AssaySt → AssaySt) : (e.updAssay f).pcie = e.pcie := rfl
@[simp] theorem Engine.updAssay_twb (f : AssaySt → AssaySt) : (e.updAssay f).twb = e.twb := rfl
@[simp] theorem Engine.updAssay_sec (f : AssaySt → AssaySt) : (e.updAssay f).sec = e.sec := rfl
@[simp] theorem Engine.updAssay_dbg (f : AssaySt → AssaySt) : (e.updAssay f).dbg = e.dbg := rfl
@[simp] theorem Engine.updAssay_adapt (f : AssaySt → AssaySt) : (e.updAssay f).adapt = e.adapt := rfl

/-! ### updIngot -/

@[simp] theorem Engine.updIngot_regs (f : IngotSt → IngotSt) : (e.updIngot f).regs = e.regs := rfl
@[simp] theorem Engine.updIngot_mem (f : IngotSt → IngotSt) : (e.updIngot f).mem = e.mem := rfl
@[simp] theorem Engine.updIngot_now (f : IngotSt → IngotSt) : (e.updIngot f).now = e.now := rfl
@[simp] theorem Engine.updIngot_free (f : IngotSt → IngotSt) : (e.updIngot f).free = e.free := rfl
@[simp] theorem Engine.updIngot_rdata (f : IngotSt → IngotSt) : (e.updIngot f).rdata = e.rdata := rfl
@[simp] theorem Engine.updIngot_cpPend (f : IngotSt → IngotSt) : (e.updIngot f).cpPend = e.cpPend := rfl
@[simp] theorem Engine.updIngot_cpDue (f : IngotSt → IngotSt) : (e.updIngot f).cpDue = e.cpDue := rfl
@[simp] theorem Engine.updIngot_evBuf (f : IngotSt → IngotSt) : (e.updIngot f).evBuf = e.evBuf := rfl
@[simp] theorem Engine.updIngot_caps (f : IngotSt → IngotSt) : (e.updIngot f).caps = e.caps := rfl
@[simp] theorem Engine.updIngot_tick (f : IngotSt → IngotSt) : (e.updIngot f).tick = e.tick := rfl
@[simp] theorem Engine.updIngot_clk (f : IngotSt → IngotSt) : (e.updIngot f).clk = e.clk := rfl
@[simp] theorem Engine.updIngot_ref (f : IngotSt → IngotSt) : (e.updIngot f).ref = e.ref := rfl
@[simp] theorem Engine.updIngot_time (f : IngotSt → IngotSt) : (e.updIngot f).time = e.time := rfl
@[simp] theorem Engine.updIngot_taq (f : IngotSt → IngotSt) : (e.updIngot f).taq = e.taq := rfl
@[simp] theorem Engine.updIngot_mbx (f : IngotSt → IngotSt) : (e.updIngot f).mbx = e.mbx := rfl
@[simp] theorem Engine.updIngot_assay (f : IngotSt → IngotSt) : (e.updIngot f).assay = e.assay := rfl
@[simp] theorem Engine.updIngot_core (f : IngotSt → IngotSt) : (e.updIngot f).core = e.core := rfl
@[simp] theorem Engine.updIngot_ingot (f : IngotSt → IngotSt) : (e.updIngot f).ingot = f e.ingot := rfl
@[simp] theorem Engine.updIngot_xlat (f : IngotSt → IngotSt) : (e.updIngot f).xlat = e.xlat := rfl
@[simp] theorem Engine.updIngot_dma (f : IngotSt → IngotSt) : (e.updIngot f).dma = e.dma := rfl
@[simp] theorem Engine.updIngot_sched (f : IngotSt → IngotSt) : (e.updIngot f).sched = e.sched := rfl
@[simp] theorem Engine.updIngot_resetReq (f : IngotSt → IngotSt) : (e.updIngot f).resetReq = e.resetReq := rfl
@[simp] theorem Engine.updIngot_audio (f : IngotSt → IngotSt) : (e.updIngot f).audio = e.audio := rfl
@[simp] theorem Engine.updIngot_route (f : IngotSt → IngotSt) : (e.updIngot f).route = e.route := rfl
@[simp] theorem Engine.updIngot_sumx (f : IngotSt → IngotSt) : (e.updIngot f).sumx = e.sumx := rfl
@[simp] theorem Engine.updIngot_eqa (f : IngotSt → IngotSt) : (e.updIngot f).eqa = e.eqa := rfl
@[simp] theorem Engine.updIngot_safe (f : IngotSt → IngotSt) : (e.updIngot f).safe = e.safe := rfl
@[simp] theorem Engine.updIngot_duo (f : IngotSt → IngotSt) : (e.updIngot f).duo = e.duo := rfl
@[simp] theorem Engine.updIngot_pwr (f : IngotSt → IngotSt) : (e.updIngot f).pwr = e.pwr := rfl
@[simp] theorem Engine.updIngot_sap (f : IngotSt → IngotSt) : (e.updIngot f).sap = e.sap := rfl
@[simp] theorem Engine.updIngot_madi (f : IngotSt → IngotSt) : (e.updIngot f).madi = e.madi := rfl
@[simp] theorem Engine.updIngot_net (f : IngotSt → IngotSt) : (e.updIngot f).net = e.net := rfl
@[simp] theorem Engine.updIngot_cue (f : IngotSt → IngotSt) : (e.updIngot f).cue = e.cue := rfl
@[simp] theorem Engine.updIngot_pcie (f : IngotSt → IngotSt) : (e.updIngot f).pcie = e.pcie := rfl
@[simp] theorem Engine.updIngot_twb (f : IngotSt → IngotSt) : (e.updIngot f).twb = e.twb := rfl
@[simp] theorem Engine.updIngot_sec (f : IngotSt → IngotSt) : (e.updIngot f).sec = e.sec := rfl
@[simp] theorem Engine.updIngot_dbg (f : IngotSt → IngotSt) : (e.updIngot f).dbg = e.dbg := rfl
@[simp] theorem Engine.updIngot_adapt (f : IngotSt → IngotSt) : (e.updIngot f).adapt = e.adapt := rfl

/-! ### updXlat -/

@[simp] theorem Engine.updXlat_regs (f : XlatSt → XlatSt) : (e.updXlat f).regs = e.regs := rfl
@[simp] theorem Engine.updXlat_mem (f : XlatSt → XlatSt) : (e.updXlat f).mem = e.mem := rfl
@[simp] theorem Engine.updXlat_now (f : XlatSt → XlatSt) : (e.updXlat f).now = e.now := rfl
@[simp] theorem Engine.updXlat_free (f : XlatSt → XlatSt) : (e.updXlat f).free = e.free := rfl
@[simp] theorem Engine.updXlat_rdata (f : XlatSt → XlatSt) : (e.updXlat f).rdata = e.rdata := rfl
@[simp] theorem Engine.updXlat_cpPend (f : XlatSt → XlatSt) : (e.updXlat f).cpPend = e.cpPend := rfl
@[simp] theorem Engine.updXlat_cpDue (f : XlatSt → XlatSt) : (e.updXlat f).cpDue = e.cpDue := rfl
@[simp] theorem Engine.updXlat_evBuf (f : XlatSt → XlatSt) : (e.updXlat f).evBuf = e.evBuf := rfl
@[simp] theorem Engine.updXlat_caps (f : XlatSt → XlatSt) : (e.updXlat f).caps = e.caps := rfl
@[simp] theorem Engine.updXlat_tick (f : XlatSt → XlatSt) : (e.updXlat f).tick = e.tick := rfl
@[simp] theorem Engine.updXlat_clk (f : XlatSt → XlatSt) : (e.updXlat f).clk = e.clk := rfl
@[simp] theorem Engine.updXlat_ref (f : XlatSt → XlatSt) : (e.updXlat f).ref = e.ref := rfl
@[simp] theorem Engine.updXlat_time (f : XlatSt → XlatSt) : (e.updXlat f).time = e.time := rfl
@[simp] theorem Engine.updXlat_taq (f : XlatSt → XlatSt) : (e.updXlat f).taq = e.taq := rfl
@[simp] theorem Engine.updXlat_mbx (f : XlatSt → XlatSt) : (e.updXlat f).mbx = e.mbx := rfl
@[simp] theorem Engine.updXlat_assay (f : XlatSt → XlatSt) : (e.updXlat f).assay = e.assay := rfl
@[simp] theorem Engine.updXlat_core (f : XlatSt → XlatSt) : (e.updXlat f).core = e.core := rfl
@[simp] theorem Engine.updXlat_ingot (f : XlatSt → XlatSt) : (e.updXlat f).ingot = e.ingot := rfl
@[simp] theorem Engine.updXlat_xlat (f : XlatSt → XlatSt) : (e.updXlat f).xlat = f e.xlat := rfl
@[simp] theorem Engine.updXlat_dma (f : XlatSt → XlatSt) : (e.updXlat f).dma = e.dma := rfl
@[simp] theorem Engine.updXlat_sched (f : XlatSt → XlatSt) : (e.updXlat f).sched = e.sched := rfl
@[simp] theorem Engine.updXlat_resetReq (f : XlatSt → XlatSt) : (e.updXlat f).resetReq = e.resetReq := rfl
@[simp] theorem Engine.updXlat_audio (f : XlatSt → XlatSt) : (e.updXlat f).audio = e.audio := rfl
@[simp] theorem Engine.updXlat_route (f : XlatSt → XlatSt) : (e.updXlat f).route = e.route := rfl
@[simp] theorem Engine.updXlat_sumx (f : XlatSt → XlatSt) : (e.updXlat f).sumx = e.sumx := rfl
@[simp] theorem Engine.updXlat_eqa (f : XlatSt → XlatSt) : (e.updXlat f).eqa = e.eqa := rfl
@[simp] theorem Engine.updXlat_safe (f : XlatSt → XlatSt) : (e.updXlat f).safe = e.safe := rfl
@[simp] theorem Engine.updXlat_duo (f : XlatSt → XlatSt) : (e.updXlat f).duo = e.duo := rfl
@[simp] theorem Engine.updXlat_pwr (f : XlatSt → XlatSt) : (e.updXlat f).pwr = e.pwr := rfl
@[simp] theorem Engine.updXlat_sap (f : XlatSt → XlatSt) : (e.updXlat f).sap = e.sap := rfl
@[simp] theorem Engine.updXlat_madi (f : XlatSt → XlatSt) : (e.updXlat f).madi = e.madi := rfl
@[simp] theorem Engine.updXlat_net (f : XlatSt → XlatSt) : (e.updXlat f).net = e.net := rfl
@[simp] theorem Engine.updXlat_cue (f : XlatSt → XlatSt) : (e.updXlat f).cue = e.cue := rfl
@[simp] theorem Engine.updXlat_pcie (f : XlatSt → XlatSt) : (e.updXlat f).pcie = e.pcie := rfl
@[simp] theorem Engine.updXlat_twb (f : XlatSt → XlatSt) : (e.updXlat f).twb = e.twb := rfl
@[simp] theorem Engine.updXlat_sec (f : XlatSt → XlatSt) : (e.updXlat f).sec = e.sec := rfl
@[simp] theorem Engine.updXlat_dbg (f : XlatSt → XlatSt) : (e.updXlat f).dbg = e.dbg := rfl
@[simp] theorem Engine.updXlat_adapt (f : XlatSt → XlatSt) : (e.updXlat f).adapt = e.adapt := rfl

/-! ### updSched -/

@[simp] theorem Engine.updSched_regs (f : SchedSt → SchedSt) : (e.updSched f).regs = e.regs := rfl
@[simp] theorem Engine.updSched_mem (f : SchedSt → SchedSt) : (e.updSched f).mem = e.mem := rfl
@[simp] theorem Engine.updSched_now (f : SchedSt → SchedSt) : (e.updSched f).now = e.now := rfl
@[simp] theorem Engine.updSched_free (f : SchedSt → SchedSt) : (e.updSched f).free = e.free := rfl
@[simp] theorem Engine.updSched_rdata (f : SchedSt → SchedSt) : (e.updSched f).rdata = e.rdata := rfl
@[simp] theorem Engine.updSched_cpPend (f : SchedSt → SchedSt) : (e.updSched f).cpPend = e.cpPend := rfl
@[simp] theorem Engine.updSched_cpDue (f : SchedSt → SchedSt) : (e.updSched f).cpDue = e.cpDue := rfl
@[simp] theorem Engine.updSched_evBuf (f : SchedSt → SchedSt) : (e.updSched f).evBuf = e.evBuf := rfl
@[simp] theorem Engine.updSched_caps (f : SchedSt → SchedSt) : (e.updSched f).caps = e.caps := rfl
@[simp] theorem Engine.updSched_tick (f : SchedSt → SchedSt) : (e.updSched f).tick = e.tick := rfl
@[simp] theorem Engine.updSched_clk (f : SchedSt → SchedSt) : (e.updSched f).clk = e.clk := rfl
@[simp] theorem Engine.updSched_ref (f : SchedSt → SchedSt) : (e.updSched f).ref = e.ref := rfl
@[simp] theorem Engine.updSched_time (f : SchedSt → SchedSt) : (e.updSched f).time = e.time := rfl
@[simp] theorem Engine.updSched_taq (f : SchedSt → SchedSt) : (e.updSched f).taq = e.taq := rfl
@[simp] theorem Engine.updSched_mbx (f : SchedSt → SchedSt) : (e.updSched f).mbx = e.mbx := rfl
@[simp] theorem Engine.updSched_assay (f : SchedSt → SchedSt) : (e.updSched f).assay = e.assay := rfl
@[simp] theorem Engine.updSched_core (f : SchedSt → SchedSt) : (e.updSched f).core = e.core := rfl
@[simp] theorem Engine.updSched_ingot (f : SchedSt → SchedSt) : (e.updSched f).ingot = e.ingot := rfl
@[simp] theorem Engine.updSched_xlat (f : SchedSt → SchedSt) : (e.updSched f).xlat = e.xlat := rfl
@[simp] theorem Engine.updSched_dma (f : SchedSt → SchedSt) : (e.updSched f).dma = e.dma := rfl
@[simp] theorem Engine.updSched_sched (f : SchedSt → SchedSt) : (e.updSched f).sched = f e.sched := rfl
@[simp] theorem Engine.updSched_resetReq (f : SchedSt → SchedSt) : (e.updSched f).resetReq = e.resetReq := rfl
@[simp] theorem Engine.updSched_audio (f : SchedSt → SchedSt) : (e.updSched f).audio = e.audio := rfl
@[simp] theorem Engine.updSched_route (f : SchedSt → SchedSt) : (e.updSched f).route = e.route := rfl
@[simp] theorem Engine.updSched_sumx (f : SchedSt → SchedSt) : (e.updSched f).sumx = e.sumx := rfl
@[simp] theorem Engine.updSched_eqa (f : SchedSt → SchedSt) : (e.updSched f).eqa = e.eqa := rfl
@[simp] theorem Engine.updSched_safe (f : SchedSt → SchedSt) : (e.updSched f).safe = e.safe := rfl
@[simp] theorem Engine.updSched_duo (f : SchedSt → SchedSt) : (e.updSched f).duo = e.duo := rfl
@[simp] theorem Engine.updSched_pwr (f : SchedSt → SchedSt) : (e.updSched f).pwr = e.pwr := rfl
@[simp] theorem Engine.updSched_sap (f : SchedSt → SchedSt) : (e.updSched f).sap = e.sap := rfl
@[simp] theorem Engine.updSched_madi (f : SchedSt → SchedSt) : (e.updSched f).madi = e.madi := rfl
@[simp] theorem Engine.updSched_net (f : SchedSt → SchedSt) : (e.updSched f).net = e.net := rfl
@[simp] theorem Engine.updSched_cue (f : SchedSt → SchedSt) : (e.updSched f).cue = e.cue := rfl
@[simp] theorem Engine.updSched_pcie (f : SchedSt → SchedSt) : (e.updSched f).pcie = e.pcie := rfl
@[simp] theorem Engine.updSched_twb (f : SchedSt → SchedSt) : (e.updSched f).twb = e.twb := rfl
@[simp] theorem Engine.updSched_sec (f : SchedSt → SchedSt) : (e.updSched f).sec = e.sec := rfl
@[simp] theorem Engine.updSched_dbg (f : SchedSt → SchedSt) : (e.updSched f).dbg = e.dbg := rfl
@[simp] theorem Engine.updSched_adapt (f : SchedSt → SchedSt) : (e.updSched f).adapt = e.adapt := rfl

/-! ### updAudio -/

@[simp] theorem Engine.updAudio_regs (f : AudioSt → AudioSt) : (e.updAudio f).regs = e.regs := rfl
@[simp] theorem Engine.updAudio_mem (f : AudioSt → AudioSt) : (e.updAudio f).mem = e.mem := rfl
@[simp] theorem Engine.updAudio_now (f : AudioSt → AudioSt) : (e.updAudio f).now = e.now := rfl
@[simp] theorem Engine.updAudio_free (f : AudioSt → AudioSt) : (e.updAudio f).free = e.free := rfl
@[simp] theorem Engine.updAudio_rdata (f : AudioSt → AudioSt) : (e.updAudio f).rdata = e.rdata := rfl
@[simp] theorem Engine.updAudio_cpPend (f : AudioSt → AudioSt) : (e.updAudio f).cpPend = e.cpPend := rfl
@[simp] theorem Engine.updAudio_cpDue (f : AudioSt → AudioSt) : (e.updAudio f).cpDue = e.cpDue := rfl
@[simp] theorem Engine.updAudio_evBuf (f : AudioSt → AudioSt) : (e.updAudio f).evBuf = e.evBuf := rfl
@[simp] theorem Engine.updAudio_caps (f : AudioSt → AudioSt) : (e.updAudio f).caps = e.caps := rfl
@[simp] theorem Engine.updAudio_tick (f : AudioSt → AudioSt) : (e.updAudio f).tick = e.tick := rfl
@[simp] theorem Engine.updAudio_clk (f : AudioSt → AudioSt) : (e.updAudio f).clk = e.clk := rfl
@[simp] theorem Engine.updAudio_ref (f : AudioSt → AudioSt) : (e.updAudio f).ref = e.ref := rfl
@[simp] theorem Engine.updAudio_time (f : AudioSt → AudioSt) : (e.updAudio f).time = e.time := rfl
@[simp] theorem Engine.updAudio_taq (f : AudioSt → AudioSt) : (e.updAudio f).taq = e.taq := rfl
@[simp] theorem Engine.updAudio_mbx (f : AudioSt → AudioSt) : (e.updAudio f).mbx = e.mbx := rfl
@[simp] theorem Engine.updAudio_assay (f : AudioSt → AudioSt) : (e.updAudio f).assay = e.assay := rfl
@[simp] theorem Engine.updAudio_core (f : AudioSt → AudioSt) : (e.updAudio f).core = e.core := rfl
@[simp] theorem Engine.updAudio_ingot (f : AudioSt → AudioSt) : (e.updAudio f).ingot = e.ingot := rfl
@[simp] theorem Engine.updAudio_xlat (f : AudioSt → AudioSt) : (e.updAudio f).xlat = e.xlat := rfl
@[simp] theorem Engine.updAudio_dma (f : AudioSt → AudioSt) : (e.updAudio f).dma = e.dma := rfl
@[simp] theorem Engine.updAudio_sched (f : AudioSt → AudioSt) : (e.updAudio f).sched = e.sched := rfl
@[simp] theorem Engine.updAudio_resetReq (f : AudioSt → AudioSt) : (e.updAudio f).resetReq = e.resetReq := rfl
@[simp] theorem Engine.updAudio_audio (f : AudioSt → AudioSt) : (e.updAudio f).audio = f e.audio := rfl
@[simp] theorem Engine.updAudio_route (f : AudioSt → AudioSt) : (e.updAudio f).route = e.route := rfl
@[simp] theorem Engine.updAudio_sumx (f : AudioSt → AudioSt) : (e.updAudio f).sumx = e.sumx := rfl
@[simp] theorem Engine.updAudio_eqa (f : AudioSt → AudioSt) : (e.updAudio f).eqa = e.eqa := rfl
@[simp] theorem Engine.updAudio_safe (f : AudioSt → AudioSt) : (e.updAudio f).safe = e.safe := rfl
@[simp] theorem Engine.updAudio_duo (f : AudioSt → AudioSt) : (e.updAudio f).duo = e.duo := rfl
@[simp] theorem Engine.updAudio_pwr (f : AudioSt → AudioSt) : (e.updAudio f).pwr = e.pwr := rfl
@[simp] theorem Engine.updAudio_sap (f : AudioSt → AudioSt) : (e.updAudio f).sap = e.sap := rfl
@[simp] theorem Engine.updAudio_madi (f : AudioSt → AudioSt) : (e.updAudio f).madi = e.madi := rfl
@[simp] theorem Engine.updAudio_net (f : AudioSt → AudioSt) : (e.updAudio f).net = e.net := rfl
@[simp] theorem Engine.updAudio_cue (f : AudioSt → AudioSt) : (e.updAudio f).cue = e.cue := rfl
@[simp] theorem Engine.updAudio_pcie (f : AudioSt → AudioSt) : (e.updAudio f).pcie = e.pcie := rfl
@[simp] theorem Engine.updAudio_twb (f : AudioSt → AudioSt) : (e.updAudio f).twb = e.twb := rfl
@[simp] theorem Engine.updAudio_sec (f : AudioSt → AudioSt) : (e.updAudio f).sec = e.sec := rfl
@[simp] theorem Engine.updAudio_dbg (f : AudioSt → AudioSt) : (e.updAudio f).dbg = e.dbg := rfl
@[simp] theorem Engine.updAudio_adapt (f : AudioSt → AudioSt) : (e.updAudio f).adapt = e.adapt := rfl

/-! ### updRoute -/

@[simp] theorem Engine.updRoute_regs (f : RouteSt → RouteSt) : (e.updRoute f).regs = e.regs := rfl
@[simp] theorem Engine.updRoute_mem (f : RouteSt → RouteSt) : (e.updRoute f).mem = e.mem := rfl
@[simp] theorem Engine.updRoute_now (f : RouteSt → RouteSt) : (e.updRoute f).now = e.now := rfl
@[simp] theorem Engine.updRoute_free (f : RouteSt → RouteSt) : (e.updRoute f).free = e.free := rfl
@[simp] theorem Engine.updRoute_rdata (f : RouteSt → RouteSt) : (e.updRoute f).rdata = e.rdata := rfl
@[simp] theorem Engine.updRoute_cpPend (f : RouteSt → RouteSt) : (e.updRoute f).cpPend = e.cpPend := rfl
@[simp] theorem Engine.updRoute_cpDue (f : RouteSt → RouteSt) : (e.updRoute f).cpDue = e.cpDue := rfl
@[simp] theorem Engine.updRoute_evBuf (f : RouteSt → RouteSt) : (e.updRoute f).evBuf = e.evBuf := rfl
@[simp] theorem Engine.updRoute_caps (f : RouteSt → RouteSt) : (e.updRoute f).caps = e.caps := rfl
@[simp] theorem Engine.updRoute_tick (f : RouteSt → RouteSt) : (e.updRoute f).tick = e.tick := rfl
@[simp] theorem Engine.updRoute_clk (f : RouteSt → RouteSt) : (e.updRoute f).clk = e.clk := rfl
@[simp] theorem Engine.updRoute_ref (f : RouteSt → RouteSt) : (e.updRoute f).ref = e.ref := rfl
@[simp] theorem Engine.updRoute_time (f : RouteSt → RouteSt) : (e.updRoute f).time = e.time := rfl
@[simp] theorem Engine.updRoute_taq (f : RouteSt → RouteSt) : (e.updRoute f).taq = e.taq := rfl
@[simp] theorem Engine.updRoute_mbx (f : RouteSt → RouteSt) : (e.updRoute f).mbx = e.mbx := rfl
@[simp] theorem Engine.updRoute_assay (f : RouteSt → RouteSt) : (e.updRoute f).assay = e.assay := rfl
@[simp] theorem Engine.updRoute_core (f : RouteSt → RouteSt) : (e.updRoute f).core = e.core := rfl
@[simp] theorem Engine.updRoute_ingot (f : RouteSt → RouteSt) : (e.updRoute f).ingot = e.ingot := rfl
@[simp] theorem Engine.updRoute_xlat (f : RouteSt → RouteSt) : (e.updRoute f).xlat = e.xlat := rfl
@[simp] theorem Engine.updRoute_dma (f : RouteSt → RouteSt) : (e.updRoute f).dma = e.dma := rfl
@[simp] theorem Engine.updRoute_sched (f : RouteSt → RouteSt) : (e.updRoute f).sched = e.sched := rfl
@[simp] theorem Engine.updRoute_resetReq (f : RouteSt → RouteSt) : (e.updRoute f).resetReq = e.resetReq := rfl
@[simp] theorem Engine.updRoute_audio (f : RouteSt → RouteSt) : (e.updRoute f).audio = e.audio := rfl
@[simp] theorem Engine.updRoute_route (f : RouteSt → RouteSt) : (e.updRoute f).route = f e.route := rfl
@[simp] theorem Engine.updRoute_sumx (f : RouteSt → RouteSt) : (e.updRoute f).sumx = e.sumx := rfl
@[simp] theorem Engine.updRoute_eqa (f : RouteSt → RouteSt) : (e.updRoute f).eqa = e.eqa := rfl
@[simp] theorem Engine.updRoute_safe (f : RouteSt → RouteSt) : (e.updRoute f).safe = e.safe := rfl
@[simp] theorem Engine.updRoute_duo (f : RouteSt → RouteSt) : (e.updRoute f).duo = e.duo := rfl
@[simp] theorem Engine.updRoute_pwr (f : RouteSt → RouteSt) : (e.updRoute f).pwr = e.pwr := rfl
@[simp] theorem Engine.updRoute_sap (f : RouteSt → RouteSt) : (e.updRoute f).sap = e.sap := rfl
@[simp] theorem Engine.updRoute_madi (f : RouteSt → RouteSt) : (e.updRoute f).madi = e.madi := rfl
@[simp] theorem Engine.updRoute_net (f : RouteSt → RouteSt) : (e.updRoute f).net = e.net := rfl
@[simp] theorem Engine.updRoute_cue (f : RouteSt → RouteSt) : (e.updRoute f).cue = e.cue := rfl
@[simp] theorem Engine.updRoute_pcie (f : RouteSt → RouteSt) : (e.updRoute f).pcie = e.pcie := rfl
@[simp] theorem Engine.updRoute_twb (f : RouteSt → RouteSt) : (e.updRoute f).twb = e.twb := rfl
@[simp] theorem Engine.updRoute_sec (f : RouteSt → RouteSt) : (e.updRoute f).sec = e.sec := rfl
@[simp] theorem Engine.updRoute_dbg (f : RouteSt → RouteSt) : (e.updRoute f).dbg = e.dbg := rfl
@[simp] theorem Engine.updRoute_adapt (f : RouteSt → RouteSt) : (e.updRoute f).adapt = e.adapt := rfl

/-! ### updSumx -/

@[simp] theorem Engine.updSumx_regs (f : SumxSt → SumxSt) : (e.updSumx f).regs = e.regs := rfl
@[simp] theorem Engine.updSumx_mem (f : SumxSt → SumxSt) : (e.updSumx f).mem = e.mem := rfl
@[simp] theorem Engine.updSumx_now (f : SumxSt → SumxSt) : (e.updSumx f).now = e.now := rfl
@[simp] theorem Engine.updSumx_free (f : SumxSt → SumxSt) : (e.updSumx f).free = e.free := rfl
@[simp] theorem Engine.updSumx_rdata (f : SumxSt → SumxSt) : (e.updSumx f).rdata = e.rdata := rfl
@[simp] theorem Engine.updSumx_cpPend (f : SumxSt → SumxSt) : (e.updSumx f).cpPend = e.cpPend := rfl
@[simp] theorem Engine.updSumx_cpDue (f : SumxSt → SumxSt) : (e.updSumx f).cpDue = e.cpDue := rfl
@[simp] theorem Engine.updSumx_evBuf (f : SumxSt → SumxSt) : (e.updSumx f).evBuf = e.evBuf := rfl
@[simp] theorem Engine.updSumx_caps (f : SumxSt → SumxSt) : (e.updSumx f).caps = e.caps := rfl
@[simp] theorem Engine.updSumx_tick (f : SumxSt → SumxSt) : (e.updSumx f).tick = e.tick := rfl
@[simp] theorem Engine.updSumx_clk (f : SumxSt → SumxSt) : (e.updSumx f).clk = e.clk := rfl
@[simp] theorem Engine.updSumx_ref (f : SumxSt → SumxSt) : (e.updSumx f).ref = e.ref := rfl
@[simp] theorem Engine.updSumx_time (f : SumxSt → SumxSt) : (e.updSumx f).time = e.time := rfl
@[simp] theorem Engine.updSumx_taq (f : SumxSt → SumxSt) : (e.updSumx f).taq = e.taq := rfl
@[simp] theorem Engine.updSumx_mbx (f : SumxSt → SumxSt) : (e.updSumx f).mbx = e.mbx := rfl
@[simp] theorem Engine.updSumx_assay (f : SumxSt → SumxSt) : (e.updSumx f).assay = e.assay := rfl
@[simp] theorem Engine.updSumx_core (f : SumxSt → SumxSt) : (e.updSumx f).core = e.core := rfl
@[simp] theorem Engine.updSumx_ingot (f : SumxSt → SumxSt) : (e.updSumx f).ingot = e.ingot := rfl
@[simp] theorem Engine.updSumx_xlat (f : SumxSt → SumxSt) : (e.updSumx f).xlat = e.xlat := rfl
@[simp] theorem Engine.updSumx_dma (f : SumxSt → SumxSt) : (e.updSumx f).dma = e.dma := rfl
@[simp] theorem Engine.updSumx_sched (f : SumxSt → SumxSt) : (e.updSumx f).sched = e.sched := rfl
@[simp] theorem Engine.updSumx_resetReq (f : SumxSt → SumxSt) : (e.updSumx f).resetReq = e.resetReq := rfl
@[simp] theorem Engine.updSumx_audio (f : SumxSt → SumxSt) : (e.updSumx f).audio = e.audio := rfl
@[simp] theorem Engine.updSumx_route (f : SumxSt → SumxSt) : (e.updSumx f).route = e.route := rfl
@[simp] theorem Engine.updSumx_sumx (f : SumxSt → SumxSt) : (e.updSumx f).sumx = f e.sumx := rfl
@[simp] theorem Engine.updSumx_eqa (f : SumxSt → SumxSt) : (e.updSumx f).eqa = e.eqa := rfl
@[simp] theorem Engine.updSumx_safe (f : SumxSt → SumxSt) : (e.updSumx f).safe = e.safe := rfl
@[simp] theorem Engine.updSumx_duo (f : SumxSt → SumxSt) : (e.updSumx f).duo = e.duo := rfl
@[simp] theorem Engine.updSumx_pwr (f : SumxSt → SumxSt) : (e.updSumx f).pwr = e.pwr := rfl
@[simp] theorem Engine.updSumx_sap (f : SumxSt → SumxSt) : (e.updSumx f).sap = e.sap := rfl
@[simp] theorem Engine.updSumx_madi (f : SumxSt → SumxSt) : (e.updSumx f).madi = e.madi := rfl
@[simp] theorem Engine.updSumx_net (f : SumxSt → SumxSt) : (e.updSumx f).net = e.net := rfl
@[simp] theorem Engine.updSumx_cue (f : SumxSt → SumxSt) : (e.updSumx f).cue = e.cue := rfl
@[simp] theorem Engine.updSumx_pcie (f : SumxSt → SumxSt) : (e.updSumx f).pcie = e.pcie := rfl
@[simp] theorem Engine.updSumx_twb (f : SumxSt → SumxSt) : (e.updSumx f).twb = e.twb := rfl
@[simp] theorem Engine.updSumx_sec (f : SumxSt → SumxSt) : (e.updSumx f).sec = e.sec := rfl
@[simp] theorem Engine.updSumx_dbg (f : SumxSt → SumxSt) : (e.updSumx f).dbg = e.dbg := rfl
@[simp] theorem Engine.updSumx_adapt (f : SumxSt → SumxSt) : (e.updSumx f).adapt = e.adapt := rfl

/-! ### updEqa -/

@[simp] theorem Engine.updEqa_regs (f : EqaSt → EqaSt) : (e.updEqa f).regs = e.regs := rfl
@[simp] theorem Engine.updEqa_mem (f : EqaSt → EqaSt) : (e.updEqa f).mem = e.mem := rfl
@[simp] theorem Engine.updEqa_now (f : EqaSt → EqaSt) : (e.updEqa f).now = e.now := rfl
@[simp] theorem Engine.updEqa_free (f : EqaSt → EqaSt) : (e.updEqa f).free = e.free := rfl
@[simp] theorem Engine.updEqa_rdata (f : EqaSt → EqaSt) : (e.updEqa f).rdata = e.rdata := rfl
@[simp] theorem Engine.updEqa_cpPend (f : EqaSt → EqaSt) : (e.updEqa f).cpPend = e.cpPend := rfl
@[simp] theorem Engine.updEqa_cpDue (f : EqaSt → EqaSt) : (e.updEqa f).cpDue = e.cpDue := rfl
@[simp] theorem Engine.updEqa_evBuf (f : EqaSt → EqaSt) : (e.updEqa f).evBuf = e.evBuf := rfl
@[simp] theorem Engine.updEqa_caps (f : EqaSt → EqaSt) : (e.updEqa f).caps = e.caps := rfl
@[simp] theorem Engine.updEqa_tick (f : EqaSt → EqaSt) : (e.updEqa f).tick = e.tick := rfl
@[simp] theorem Engine.updEqa_clk (f : EqaSt → EqaSt) : (e.updEqa f).clk = e.clk := rfl
@[simp] theorem Engine.updEqa_ref (f : EqaSt → EqaSt) : (e.updEqa f).ref = e.ref := rfl
@[simp] theorem Engine.updEqa_time (f : EqaSt → EqaSt) : (e.updEqa f).time = e.time := rfl
@[simp] theorem Engine.updEqa_taq (f : EqaSt → EqaSt) : (e.updEqa f).taq = e.taq := rfl
@[simp] theorem Engine.updEqa_mbx (f : EqaSt → EqaSt) : (e.updEqa f).mbx = e.mbx := rfl
@[simp] theorem Engine.updEqa_assay (f : EqaSt → EqaSt) : (e.updEqa f).assay = e.assay := rfl
@[simp] theorem Engine.updEqa_core (f : EqaSt → EqaSt) : (e.updEqa f).core = e.core := rfl
@[simp] theorem Engine.updEqa_ingot (f : EqaSt → EqaSt) : (e.updEqa f).ingot = e.ingot := rfl
@[simp] theorem Engine.updEqa_xlat (f : EqaSt → EqaSt) : (e.updEqa f).xlat = e.xlat := rfl
@[simp] theorem Engine.updEqa_dma (f : EqaSt → EqaSt) : (e.updEqa f).dma = e.dma := rfl
@[simp] theorem Engine.updEqa_sched (f : EqaSt → EqaSt) : (e.updEqa f).sched = e.sched := rfl
@[simp] theorem Engine.updEqa_resetReq (f : EqaSt → EqaSt) : (e.updEqa f).resetReq = e.resetReq := rfl
@[simp] theorem Engine.updEqa_audio (f : EqaSt → EqaSt) : (e.updEqa f).audio = e.audio := rfl
@[simp] theorem Engine.updEqa_route (f : EqaSt → EqaSt) : (e.updEqa f).route = e.route := rfl
@[simp] theorem Engine.updEqa_sumx (f : EqaSt → EqaSt) : (e.updEqa f).sumx = e.sumx := rfl
@[simp] theorem Engine.updEqa_eqa (f : EqaSt → EqaSt) : (e.updEqa f).eqa = f e.eqa := rfl
@[simp] theorem Engine.updEqa_safe (f : EqaSt → EqaSt) : (e.updEqa f).safe = e.safe := rfl
@[simp] theorem Engine.updEqa_duo (f : EqaSt → EqaSt) : (e.updEqa f).duo = e.duo := rfl
@[simp] theorem Engine.updEqa_pwr (f : EqaSt → EqaSt) : (e.updEqa f).pwr = e.pwr := rfl
@[simp] theorem Engine.updEqa_sap (f : EqaSt → EqaSt) : (e.updEqa f).sap = e.sap := rfl
@[simp] theorem Engine.updEqa_madi (f : EqaSt → EqaSt) : (e.updEqa f).madi = e.madi := rfl
@[simp] theorem Engine.updEqa_net (f : EqaSt → EqaSt) : (e.updEqa f).net = e.net := rfl
@[simp] theorem Engine.updEqa_cue (f : EqaSt → EqaSt) : (e.updEqa f).cue = e.cue := rfl
@[simp] theorem Engine.updEqa_pcie (f : EqaSt → EqaSt) : (e.updEqa f).pcie = e.pcie := rfl
@[simp] theorem Engine.updEqa_twb (f : EqaSt → EqaSt) : (e.updEqa f).twb = e.twb := rfl
@[simp] theorem Engine.updEqa_sec (f : EqaSt → EqaSt) : (e.updEqa f).sec = e.sec := rfl
@[simp] theorem Engine.updEqa_dbg (f : EqaSt → EqaSt) : (e.updEqa f).dbg = e.dbg := rfl
@[simp] theorem Engine.updEqa_adapt (f : EqaSt → EqaSt) : (e.updEqa f).adapt = e.adapt := rfl

/-! ### updSafe -/

@[simp] theorem Engine.updSafe_regs (f : SafeSt → SafeSt) : (e.updSafe f).regs = e.regs := rfl
@[simp] theorem Engine.updSafe_mem (f : SafeSt → SafeSt) : (e.updSafe f).mem = e.mem := rfl
@[simp] theorem Engine.updSafe_now (f : SafeSt → SafeSt) : (e.updSafe f).now = e.now := rfl
@[simp] theorem Engine.updSafe_free (f : SafeSt → SafeSt) : (e.updSafe f).free = e.free := rfl
@[simp] theorem Engine.updSafe_rdata (f : SafeSt → SafeSt) : (e.updSafe f).rdata = e.rdata := rfl
@[simp] theorem Engine.updSafe_cpPend (f : SafeSt → SafeSt) : (e.updSafe f).cpPend = e.cpPend := rfl
@[simp] theorem Engine.updSafe_cpDue (f : SafeSt → SafeSt) : (e.updSafe f).cpDue = e.cpDue := rfl
@[simp] theorem Engine.updSafe_evBuf (f : SafeSt → SafeSt) : (e.updSafe f).evBuf = e.evBuf := rfl
@[simp] theorem Engine.updSafe_caps (f : SafeSt → SafeSt) : (e.updSafe f).caps = e.caps := rfl
@[simp] theorem Engine.updSafe_tick (f : SafeSt → SafeSt) : (e.updSafe f).tick = e.tick := rfl
@[simp] theorem Engine.updSafe_clk (f : SafeSt → SafeSt) : (e.updSafe f).clk = e.clk := rfl
@[simp] theorem Engine.updSafe_ref (f : SafeSt → SafeSt) : (e.updSafe f).ref = e.ref := rfl
@[simp] theorem Engine.updSafe_time (f : SafeSt → SafeSt) : (e.updSafe f).time = e.time := rfl
@[simp] theorem Engine.updSafe_taq (f : SafeSt → SafeSt) : (e.updSafe f).taq = e.taq := rfl
@[simp] theorem Engine.updSafe_mbx (f : SafeSt → SafeSt) : (e.updSafe f).mbx = e.mbx := rfl
@[simp] theorem Engine.updSafe_assay (f : SafeSt → SafeSt) : (e.updSafe f).assay = e.assay := rfl
@[simp] theorem Engine.updSafe_core (f : SafeSt → SafeSt) : (e.updSafe f).core = e.core := rfl
@[simp] theorem Engine.updSafe_ingot (f : SafeSt → SafeSt) : (e.updSafe f).ingot = e.ingot := rfl
@[simp] theorem Engine.updSafe_xlat (f : SafeSt → SafeSt) : (e.updSafe f).xlat = e.xlat := rfl
@[simp] theorem Engine.updSafe_dma (f : SafeSt → SafeSt) : (e.updSafe f).dma = e.dma := rfl
@[simp] theorem Engine.updSafe_sched (f : SafeSt → SafeSt) : (e.updSafe f).sched = e.sched := rfl
@[simp] theorem Engine.updSafe_resetReq (f : SafeSt → SafeSt) : (e.updSafe f).resetReq = e.resetReq := rfl
@[simp] theorem Engine.updSafe_audio (f : SafeSt → SafeSt) : (e.updSafe f).audio = e.audio := rfl
@[simp] theorem Engine.updSafe_route (f : SafeSt → SafeSt) : (e.updSafe f).route = e.route := rfl
@[simp] theorem Engine.updSafe_sumx (f : SafeSt → SafeSt) : (e.updSafe f).sumx = e.sumx := rfl
@[simp] theorem Engine.updSafe_eqa (f : SafeSt → SafeSt) : (e.updSafe f).eqa = e.eqa := rfl
@[simp] theorem Engine.updSafe_safe (f : SafeSt → SafeSt) : (e.updSafe f).safe = f e.safe := rfl
@[simp] theorem Engine.updSafe_duo (f : SafeSt → SafeSt) : (e.updSafe f).duo = e.duo := rfl
@[simp] theorem Engine.updSafe_pwr (f : SafeSt → SafeSt) : (e.updSafe f).pwr = e.pwr := rfl
@[simp] theorem Engine.updSafe_sap (f : SafeSt → SafeSt) : (e.updSafe f).sap = e.sap := rfl
@[simp] theorem Engine.updSafe_madi (f : SafeSt → SafeSt) : (e.updSafe f).madi = e.madi := rfl
@[simp] theorem Engine.updSafe_net (f : SafeSt → SafeSt) : (e.updSafe f).net = e.net := rfl
@[simp] theorem Engine.updSafe_cue (f : SafeSt → SafeSt) : (e.updSafe f).cue = e.cue := rfl
@[simp] theorem Engine.updSafe_pcie (f : SafeSt → SafeSt) : (e.updSafe f).pcie = e.pcie := rfl
@[simp] theorem Engine.updSafe_twb (f : SafeSt → SafeSt) : (e.updSafe f).twb = e.twb := rfl
@[simp] theorem Engine.updSafe_sec (f : SafeSt → SafeSt) : (e.updSafe f).sec = e.sec := rfl
@[simp] theorem Engine.updSafe_dbg (f : SafeSt → SafeSt) : (e.updSafe f).dbg = e.dbg := rfl
@[simp] theorem Engine.updSafe_adapt (f : SafeSt → SafeSt) : (e.updSafe f).adapt = e.adapt := rfl

/-! ### updDuo -/

@[simp] theorem Engine.updDuo_regs (f : DuoSt → DuoSt) : (e.updDuo f).regs = e.regs := rfl
@[simp] theorem Engine.updDuo_mem (f : DuoSt → DuoSt) : (e.updDuo f).mem = e.mem := rfl
@[simp] theorem Engine.updDuo_now (f : DuoSt → DuoSt) : (e.updDuo f).now = e.now := rfl
@[simp] theorem Engine.updDuo_free (f : DuoSt → DuoSt) : (e.updDuo f).free = e.free := rfl
@[simp] theorem Engine.updDuo_rdata (f : DuoSt → DuoSt) : (e.updDuo f).rdata = e.rdata := rfl
@[simp] theorem Engine.updDuo_cpPend (f : DuoSt → DuoSt) : (e.updDuo f).cpPend = e.cpPend := rfl
@[simp] theorem Engine.updDuo_cpDue (f : DuoSt → DuoSt) : (e.updDuo f).cpDue = e.cpDue := rfl
@[simp] theorem Engine.updDuo_evBuf (f : DuoSt → DuoSt) : (e.updDuo f).evBuf = e.evBuf := rfl
@[simp] theorem Engine.updDuo_caps (f : DuoSt → DuoSt) : (e.updDuo f).caps = e.caps := rfl
@[simp] theorem Engine.updDuo_tick (f : DuoSt → DuoSt) : (e.updDuo f).tick = e.tick := rfl
@[simp] theorem Engine.updDuo_clk (f : DuoSt → DuoSt) : (e.updDuo f).clk = e.clk := rfl
@[simp] theorem Engine.updDuo_ref (f : DuoSt → DuoSt) : (e.updDuo f).ref = e.ref := rfl
@[simp] theorem Engine.updDuo_time (f : DuoSt → DuoSt) : (e.updDuo f).time = e.time := rfl
@[simp] theorem Engine.updDuo_taq (f : DuoSt → DuoSt) : (e.updDuo f).taq = e.taq := rfl
@[simp] theorem Engine.updDuo_mbx (f : DuoSt → DuoSt) : (e.updDuo f).mbx = e.mbx := rfl
@[simp] theorem Engine.updDuo_assay (f : DuoSt → DuoSt) : (e.updDuo f).assay = e.assay := rfl
@[simp] theorem Engine.updDuo_core (f : DuoSt → DuoSt) : (e.updDuo f).core = e.core := rfl
@[simp] theorem Engine.updDuo_ingot (f : DuoSt → DuoSt) : (e.updDuo f).ingot = e.ingot := rfl
@[simp] theorem Engine.updDuo_xlat (f : DuoSt → DuoSt) : (e.updDuo f).xlat = e.xlat := rfl
@[simp] theorem Engine.updDuo_dma (f : DuoSt → DuoSt) : (e.updDuo f).dma = e.dma := rfl
@[simp] theorem Engine.updDuo_sched (f : DuoSt → DuoSt) : (e.updDuo f).sched = e.sched := rfl
@[simp] theorem Engine.updDuo_resetReq (f : DuoSt → DuoSt) : (e.updDuo f).resetReq = e.resetReq := rfl
@[simp] theorem Engine.updDuo_audio (f : DuoSt → DuoSt) : (e.updDuo f).audio = e.audio := rfl
@[simp] theorem Engine.updDuo_route (f : DuoSt → DuoSt) : (e.updDuo f).route = e.route := rfl
@[simp] theorem Engine.updDuo_sumx (f : DuoSt → DuoSt) : (e.updDuo f).sumx = e.sumx := rfl
@[simp] theorem Engine.updDuo_eqa (f : DuoSt → DuoSt) : (e.updDuo f).eqa = e.eqa := rfl
@[simp] theorem Engine.updDuo_safe (f : DuoSt → DuoSt) : (e.updDuo f).safe = e.safe := rfl
@[simp] theorem Engine.updDuo_duo (f : DuoSt → DuoSt) : (e.updDuo f).duo = f e.duo := rfl
@[simp] theorem Engine.updDuo_pwr (f : DuoSt → DuoSt) : (e.updDuo f).pwr = e.pwr := rfl
@[simp] theorem Engine.updDuo_sap (f : DuoSt → DuoSt) : (e.updDuo f).sap = e.sap := rfl
@[simp] theorem Engine.updDuo_madi (f : DuoSt → DuoSt) : (e.updDuo f).madi = e.madi := rfl
@[simp] theorem Engine.updDuo_net (f : DuoSt → DuoSt) : (e.updDuo f).net = e.net := rfl
@[simp] theorem Engine.updDuo_cue (f : DuoSt → DuoSt) : (e.updDuo f).cue = e.cue := rfl
@[simp] theorem Engine.updDuo_pcie (f : DuoSt → DuoSt) : (e.updDuo f).pcie = e.pcie := rfl
@[simp] theorem Engine.updDuo_twb (f : DuoSt → DuoSt) : (e.updDuo f).twb = e.twb := rfl
@[simp] theorem Engine.updDuo_sec (f : DuoSt → DuoSt) : (e.updDuo f).sec = e.sec := rfl
@[simp] theorem Engine.updDuo_dbg (f : DuoSt → DuoSt) : (e.updDuo f).dbg = e.dbg := rfl
@[simp] theorem Engine.updDuo_adapt (f : DuoSt → DuoSt) : (e.updDuo f).adapt = e.adapt := rfl

/-! ### updPwr -/

@[simp] theorem Engine.updPwr_regs (f : PwrSt → PwrSt) : (e.updPwr f).regs = e.regs := rfl
@[simp] theorem Engine.updPwr_mem (f : PwrSt → PwrSt) : (e.updPwr f).mem = e.mem := rfl
@[simp] theorem Engine.updPwr_now (f : PwrSt → PwrSt) : (e.updPwr f).now = e.now := rfl
@[simp] theorem Engine.updPwr_free (f : PwrSt → PwrSt) : (e.updPwr f).free = e.free := rfl
@[simp] theorem Engine.updPwr_rdata (f : PwrSt → PwrSt) : (e.updPwr f).rdata = e.rdata := rfl
@[simp] theorem Engine.updPwr_cpPend (f : PwrSt → PwrSt) : (e.updPwr f).cpPend = e.cpPend := rfl
@[simp] theorem Engine.updPwr_cpDue (f : PwrSt → PwrSt) : (e.updPwr f).cpDue = e.cpDue := rfl
@[simp] theorem Engine.updPwr_evBuf (f : PwrSt → PwrSt) : (e.updPwr f).evBuf = e.evBuf := rfl
@[simp] theorem Engine.updPwr_caps (f : PwrSt → PwrSt) : (e.updPwr f).caps = e.caps := rfl
@[simp] theorem Engine.updPwr_tick (f : PwrSt → PwrSt) : (e.updPwr f).tick = e.tick := rfl
@[simp] theorem Engine.updPwr_clk (f : PwrSt → PwrSt) : (e.updPwr f).clk = e.clk := rfl
@[simp] theorem Engine.updPwr_ref (f : PwrSt → PwrSt) : (e.updPwr f).ref = e.ref := rfl
@[simp] theorem Engine.updPwr_time (f : PwrSt → PwrSt) : (e.updPwr f).time = e.time := rfl
@[simp] theorem Engine.updPwr_taq (f : PwrSt → PwrSt) : (e.updPwr f).taq = e.taq := rfl
@[simp] theorem Engine.updPwr_mbx (f : PwrSt → PwrSt) : (e.updPwr f).mbx = e.mbx := rfl
@[simp] theorem Engine.updPwr_assay (f : PwrSt → PwrSt) : (e.updPwr f).assay = e.assay := rfl
@[simp] theorem Engine.updPwr_core (f : PwrSt → PwrSt) : (e.updPwr f).core = e.core := rfl
@[simp] theorem Engine.updPwr_ingot (f : PwrSt → PwrSt) : (e.updPwr f).ingot = e.ingot := rfl
@[simp] theorem Engine.updPwr_xlat (f : PwrSt → PwrSt) : (e.updPwr f).xlat = e.xlat := rfl
@[simp] theorem Engine.updPwr_dma (f : PwrSt → PwrSt) : (e.updPwr f).dma = e.dma := rfl
@[simp] theorem Engine.updPwr_sched (f : PwrSt → PwrSt) : (e.updPwr f).sched = e.sched := rfl
@[simp] theorem Engine.updPwr_resetReq (f : PwrSt → PwrSt) : (e.updPwr f).resetReq = e.resetReq := rfl
@[simp] theorem Engine.updPwr_audio (f : PwrSt → PwrSt) : (e.updPwr f).audio = e.audio := rfl
@[simp] theorem Engine.updPwr_route (f : PwrSt → PwrSt) : (e.updPwr f).route = e.route := rfl
@[simp] theorem Engine.updPwr_sumx (f : PwrSt → PwrSt) : (e.updPwr f).sumx = e.sumx := rfl
@[simp] theorem Engine.updPwr_eqa (f : PwrSt → PwrSt) : (e.updPwr f).eqa = e.eqa := rfl
@[simp] theorem Engine.updPwr_safe (f : PwrSt → PwrSt) : (e.updPwr f).safe = e.safe := rfl
@[simp] theorem Engine.updPwr_duo (f : PwrSt → PwrSt) : (e.updPwr f).duo = e.duo := rfl
@[simp] theorem Engine.updPwr_pwr (f : PwrSt → PwrSt) : (e.updPwr f).pwr = f e.pwr := rfl
@[simp] theorem Engine.updPwr_sap (f : PwrSt → PwrSt) : (e.updPwr f).sap = e.sap := rfl
@[simp] theorem Engine.updPwr_madi (f : PwrSt → PwrSt) : (e.updPwr f).madi = e.madi := rfl
@[simp] theorem Engine.updPwr_net (f : PwrSt → PwrSt) : (e.updPwr f).net = e.net := rfl
@[simp] theorem Engine.updPwr_cue (f : PwrSt → PwrSt) : (e.updPwr f).cue = e.cue := rfl
@[simp] theorem Engine.updPwr_pcie (f : PwrSt → PwrSt) : (e.updPwr f).pcie = e.pcie := rfl
@[simp] theorem Engine.updPwr_twb (f : PwrSt → PwrSt) : (e.updPwr f).twb = e.twb := rfl
@[simp] theorem Engine.updPwr_sec (f : PwrSt → PwrSt) : (e.updPwr f).sec = e.sec := rfl
@[simp] theorem Engine.updPwr_dbg (f : PwrSt → PwrSt) : (e.updPwr f).dbg = e.dbg := rfl
@[simp] theorem Engine.updPwr_adapt (f : PwrSt → PwrSt) : (e.updPwr f).adapt = e.adapt := rfl

/-! ### updSap -/

@[simp] theorem Engine.updSap_regs (f : SapSt → SapSt) : (e.updSap f).regs = e.regs := rfl
@[simp] theorem Engine.updSap_mem (f : SapSt → SapSt) : (e.updSap f).mem = e.mem := rfl
@[simp] theorem Engine.updSap_now (f : SapSt → SapSt) : (e.updSap f).now = e.now := rfl
@[simp] theorem Engine.updSap_free (f : SapSt → SapSt) : (e.updSap f).free = e.free := rfl
@[simp] theorem Engine.updSap_rdata (f : SapSt → SapSt) : (e.updSap f).rdata = e.rdata := rfl
@[simp] theorem Engine.updSap_cpPend (f : SapSt → SapSt) : (e.updSap f).cpPend = e.cpPend := rfl
@[simp] theorem Engine.updSap_cpDue (f : SapSt → SapSt) : (e.updSap f).cpDue = e.cpDue := rfl
@[simp] theorem Engine.updSap_evBuf (f : SapSt → SapSt) : (e.updSap f).evBuf = e.evBuf := rfl
@[simp] theorem Engine.updSap_caps (f : SapSt → SapSt) : (e.updSap f).caps = e.caps := rfl
@[simp] theorem Engine.updSap_tick (f : SapSt → SapSt) : (e.updSap f).tick = e.tick := rfl
@[simp] theorem Engine.updSap_clk (f : SapSt → SapSt) : (e.updSap f).clk = e.clk := rfl
@[simp] theorem Engine.updSap_ref (f : SapSt → SapSt) : (e.updSap f).ref = e.ref := rfl
@[simp] theorem Engine.updSap_time (f : SapSt → SapSt) : (e.updSap f).time = e.time := rfl
@[simp] theorem Engine.updSap_taq (f : SapSt → SapSt) : (e.updSap f).taq = e.taq := rfl
@[simp] theorem Engine.updSap_mbx (f : SapSt → SapSt) : (e.updSap f).mbx = e.mbx := rfl
@[simp] theorem Engine.updSap_assay (f : SapSt → SapSt) : (e.updSap f).assay = e.assay := rfl
@[simp] theorem Engine.updSap_core (f : SapSt → SapSt) : (e.updSap f).core = e.core := rfl
@[simp] theorem Engine.updSap_ingot (f : SapSt → SapSt) : (e.updSap f).ingot = e.ingot := rfl
@[simp] theorem Engine.updSap_xlat (f : SapSt → SapSt) : (e.updSap f).xlat = e.xlat := rfl
@[simp] theorem Engine.updSap_dma (f : SapSt → SapSt) : (e.updSap f).dma = e.dma := rfl
@[simp] theorem Engine.updSap_sched (f : SapSt → SapSt) : (e.updSap f).sched = e.sched := rfl
@[simp] theorem Engine.updSap_resetReq (f : SapSt → SapSt) : (e.updSap f).resetReq = e.resetReq := rfl
@[simp] theorem Engine.updSap_audio (f : SapSt → SapSt) : (e.updSap f).audio = e.audio := rfl
@[simp] theorem Engine.updSap_route (f : SapSt → SapSt) : (e.updSap f).route = e.route := rfl
@[simp] theorem Engine.updSap_sumx (f : SapSt → SapSt) : (e.updSap f).sumx = e.sumx := rfl
@[simp] theorem Engine.updSap_eqa (f : SapSt → SapSt) : (e.updSap f).eqa = e.eqa := rfl
@[simp] theorem Engine.updSap_safe (f : SapSt → SapSt) : (e.updSap f).safe = e.safe := rfl
@[simp] theorem Engine.updSap_duo (f : SapSt → SapSt) : (e.updSap f).duo = e.duo := rfl
@[simp] theorem Engine.updSap_pwr (f : SapSt → SapSt) : (e.updSap f).pwr = e.pwr := rfl
@[simp] theorem Engine.updSap_sap (f : SapSt → SapSt) : (e.updSap f).sap = f e.sap := rfl
@[simp] theorem Engine.updSap_madi (f : SapSt → SapSt) : (e.updSap f).madi = e.madi := rfl
@[simp] theorem Engine.updSap_net (f : SapSt → SapSt) : (e.updSap f).net = e.net := rfl
@[simp] theorem Engine.updSap_cue (f : SapSt → SapSt) : (e.updSap f).cue = e.cue := rfl
@[simp] theorem Engine.updSap_pcie (f : SapSt → SapSt) : (e.updSap f).pcie = e.pcie := rfl
@[simp] theorem Engine.updSap_twb (f : SapSt → SapSt) : (e.updSap f).twb = e.twb := rfl
@[simp] theorem Engine.updSap_sec (f : SapSt → SapSt) : (e.updSap f).sec = e.sec := rfl
@[simp] theorem Engine.updSap_dbg (f : SapSt → SapSt) : (e.updSap f).dbg = e.dbg := rfl
@[simp] theorem Engine.updSap_adapt (f : SapSt → SapSt) : (e.updSap f).adapt = e.adapt := rfl

/-! ### updMadi -/

@[simp] theorem Engine.updMadi_regs (f : MadiSt → MadiSt) : (e.updMadi f).regs = e.regs := rfl
@[simp] theorem Engine.updMadi_mem (f : MadiSt → MadiSt) : (e.updMadi f).mem = e.mem := rfl
@[simp] theorem Engine.updMadi_now (f : MadiSt → MadiSt) : (e.updMadi f).now = e.now := rfl
@[simp] theorem Engine.updMadi_free (f : MadiSt → MadiSt) : (e.updMadi f).free = e.free := rfl
@[simp] theorem Engine.updMadi_rdata (f : MadiSt → MadiSt) : (e.updMadi f).rdata = e.rdata := rfl
@[simp] theorem Engine.updMadi_cpPend (f : MadiSt → MadiSt) : (e.updMadi f).cpPend = e.cpPend := rfl
@[simp] theorem Engine.updMadi_cpDue (f : MadiSt → MadiSt) : (e.updMadi f).cpDue = e.cpDue := rfl
@[simp] theorem Engine.updMadi_evBuf (f : MadiSt → MadiSt) : (e.updMadi f).evBuf = e.evBuf := rfl
@[simp] theorem Engine.updMadi_caps (f : MadiSt → MadiSt) : (e.updMadi f).caps = e.caps := rfl
@[simp] theorem Engine.updMadi_tick (f : MadiSt → MadiSt) : (e.updMadi f).tick = e.tick := rfl
@[simp] theorem Engine.updMadi_clk (f : MadiSt → MadiSt) : (e.updMadi f).clk = e.clk := rfl
@[simp] theorem Engine.updMadi_ref (f : MadiSt → MadiSt) : (e.updMadi f).ref = e.ref := rfl
@[simp] theorem Engine.updMadi_time (f : MadiSt → MadiSt) : (e.updMadi f).time = e.time := rfl
@[simp] theorem Engine.updMadi_taq (f : MadiSt → MadiSt) : (e.updMadi f).taq = e.taq := rfl
@[simp] theorem Engine.updMadi_mbx (f : MadiSt → MadiSt) : (e.updMadi f).mbx = e.mbx := rfl
@[simp] theorem Engine.updMadi_assay (f : MadiSt → MadiSt) : (e.updMadi f).assay = e.assay := rfl
@[simp] theorem Engine.updMadi_core (f : MadiSt → MadiSt) : (e.updMadi f).core = e.core := rfl
@[simp] theorem Engine.updMadi_ingot (f : MadiSt → MadiSt) : (e.updMadi f).ingot = e.ingot := rfl
@[simp] theorem Engine.updMadi_xlat (f : MadiSt → MadiSt) : (e.updMadi f).xlat = e.xlat := rfl
@[simp] theorem Engine.updMadi_dma (f : MadiSt → MadiSt) : (e.updMadi f).dma = e.dma := rfl
@[simp] theorem Engine.updMadi_sched (f : MadiSt → MadiSt) : (e.updMadi f).sched = e.sched := rfl
@[simp] theorem Engine.updMadi_resetReq (f : MadiSt → MadiSt) : (e.updMadi f).resetReq = e.resetReq := rfl
@[simp] theorem Engine.updMadi_audio (f : MadiSt → MadiSt) : (e.updMadi f).audio = e.audio := rfl
@[simp] theorem Engine.updMadi_route (f : MadiSt → MadiSt) : (e.updMadi f).route = e.route := rfl
@[simp] theorem Engine.updMadi_sumx (f : MadiSt → MadiSt) : (e.updMadi f).sumx = e.sumx := rfl
@[simp] theorem Engine.updMadi_eqa (f : MadiSt → MadiSt) : (e.updMadi f).eqa = e.eqa := rfl
@[simp] theorem Engine.updMadi_safe (f : MadiSt → MadiSt) : (e.updMadi f).safe = e.safe := rfl
@[simp] theorem Engine.updMadi_duo (f : MadiSt → MadiSt) : (e.updMadi f).duo = e.duo := rfl
@[simp] theorem Engine.updMadi_pwr (f : MadiSt → MadiSt) : (e.updMadi f).pwr = e.pwr := rfl
@[simp] theorem Engine.updMadi_sap (f : MadiSt → MadiSt) : (e.updMadi f).sap = e.sap := rfl
@[simp] theorem Engine.updMadi_madi (f : MadiSt → MadiSt) : (e.updMadi f).madi = f e.madi := rfl
@[simp] theorem Engine.updMadi_net (f : MadiSt → MadiSt) : (e.updMadi f).net = e.net := rfl
@[simp] theorem Engine.updMadi_cue (f : MadiSt → MadiSt) : (e.updMadi f).cue = e.cue := rfl
@[simp] theorem Engine.updMadi_pcie (f : MadiSt → MadiSt) : (e.updMadi f).pcie = e.pcie := rfl
@[simp] theorem Engine.updMadi_twb (f : MadiSt → MadiSt) : (e.updMadi f).twb = e.twb := rfl
@[simp] theorem Engine.updMadi_sec (f : MadiSt → MadiSt) : (e.updMadi f).sec = e.sec := rfl
@[simp] theorem Engine.updMadi_dbg (f : MadiSt → MadiSt) : (e.updMadi f).dbg = e.dbg := rfl
@[simp] theorem Engine.updMadi_adapt (f : MadiSt → MadiSt) : (e.updMadi f).adapt = e.adapt := rfl

/-! ### updNet -/

@[simp] theorem Engine.updNet_regs (f : NetSt → NetSt) : (e.updNet f).regs = e.regs := rfl
@[simp] theorem Engine.updNet_mem (f : NetSt → NetSt) : (e.updNet f).mem = e.mem := rfl
@[simp] theorem Engine.updNet_now (f : NetSt → NetSt) : (e.updNet f).now = e.now := rfl
@[simp] theorem Engine.updNet_free (f : NetSt → NetSt) : (e.updNet f).free = e.free := rfl
@[simp] theorem Engine.updNet_rdata (f : NetSt → NetSt) : (e.updNet f).rdata = e.rdata := rfl
@[simp] theorem Engine.updNet_cpPend (f : NetSt → NetSt) : (e.updNet f).cpPend = e.cpPend := rfl
@[simp] theorem Engine.updNet_cpDue (f : NetSt → NetSt) : (e.updNet f).cpDue = e.cpDue := rfl
@[simp] theorem Engine.updNet_evBuf (f : NetSt → NetSt) : (e.updNet f).evBuf = e.evBuf := rfl
@[simp] theorem Engine.updNet_caps (f : NetSt → NetSt) : (e.updNet f).caps = e.caps := rfl
@[simp] theorem Engine.updNet_tick (f : NetSt → NetSt) : (e.updNet f).tick = e.tick := rfl
@[simp] theorem Engine.updNet_clk (f : NetSt → NetSt) : (e.updNet f).clk = e.clk := rfl
@[simp] theorem Engine.updNet_ref (f : NetSt → NetSt) : (e.updNet f).ref = e.ref := rfl
@[simp] theorem Engine.updNet_time (f : NetSt → NetSt) : (e.updNet f).time = e.time := rfl
@[simp] theorem Engine.updNet_taq (f : NetSt → NetSt) : (e.updNet f).taq = e.taq := rfl
@[simp] theorem Engine.updNet_mbx (f : NetSt → NetSt) : (e.updNet f).mbx = e.mbx := rfl
@[simp] theorem Engine.updNet_assay (f : NetSt → NetSt) : (e.updNet f).assay = e.assay := rfl
@[simp] theorem Engine.updNet_core (f : NetSt → NetSt) : (e.updNet f).core = e.core := rfl
@[simp] theorem Engine.updNet_ingot (f : NetSt → NetSt) : (e.updNet f).ingot = e.ingot := rfl
@[simp] theorem Engine.updNet_xlat (f : NetSt → NetSt) : (e.updNet f).xlat = e.xlat := rfl
@[simp] theorem Engine.updNet_dma (f : NetSt → NetSt) : (e.updNet f).dma = e.dma := rfl
@[simp] theorem Engine.updNet_sched (f : NetSt → NetSt) : (e.updNet f).sched = e.sched := rfl
@[simp] theorem Engine.updNet_resetReq (f : NetSt → NetSt) : (e.updNet f).resetReq = e.resetReq := rfl
@[simp] theorem Engine.updNet_audio (f : NetSt → NetSt) : (e.updNet f).audio = e.audio := rfl
@[simp] theorem Engine.updNet_route (f : NetSt → NetSt) : (e.updNet f).route = e.route := rfl
@[simp] theorem Engine.updNet_sumx (f : NetSt → NetSt) : (e.updNet f).sumx = e.sumx := rfl
@[simp] theorem Engine.updNet_eqa (f : NetSt → NetSt) : (e.updNet f).eqa = e.eqa := rfl
@[simp] theorem Engine.updNet_safe (f : NetSt → NetSt) : (e.updNet f).safe = e.safe := rfl
@[simp] theorem Engine.updNet_duo (f : NetSt → NetSt) : (e.updNet f).duo = e.duo := rfl
@[simp] theorem Engine.updNet_pwr (f : NetSt → NetSt) : (e.updNet f).pwr = e.pwr := rfl
@[simp] theorem Engine.updNet_sap (f : NetSt → NetSt) : (e.updNet f).sap = e.sap := rfl
@[simp] theorem Engine.updNet_madi (f : NetSt → NetSt) : (e.updNet f).madi = e.madi := rfl
@[simp] theorem Engine.updNet_net (f : NetSt → NetSt) : (e.updNet f).net = f e.net := rfl
@[simp] theorem Engine.updNet_cue (f : NetSt → NetSt) : (e.updNet f).cue = e.cue := rfl
@[simp] theorem Engine.updNet_pcie (f : NetSt → NetSt) : (e.updNet f).pcie = e.pcie := rfl
@[simp] theorem Engine.updNet_twb (f : NetSt → NetSt) : (e.updNet f).twb = e.twb := rfl
@[simp] theorem Engine.updNet_sec (f : NetSt → NetSt) : (e.updNet f).sec = e.sec := rfl
@[simp] theorem Engine.updNet_dbg (f : NetSt → NetSt) : (e.updNet f).dbg = e.dbg := rfl
@[simp] theorem Engine.updNet_adapt (f : NetSt → NetSt) : (e.updNet f).adapt = e.adapt := rfl

/-! ### updCue -/

@[simp] theorem Engine.updCue_regs (f : CueSt → CueSt) : (e.updCue f).regs = e.regs := rfl
@[simp] theorem Engine.updCue_mem (f : CueSt → CueSt) : (e.updCue f).mem = e.mem := rfl
@[simp] theorem Engine.updCue_now (f : CueSt → CueSt) : (e.updCue f).now = e.now := rfl
@[simp] theorem Engine.updCue_free (f : CueSt → CueSt) : (e.updCue f).free = e.free := rfl
@[simp] theorem Engine.updCue_rdata (f : CueSt → CueSt) : (e.updCue f).rdata = e.rdata := rfl
@[simp] theorem Engine.updCue_cpPend (f : CueSt → CueSt) : (e.updCue f).cpPend = e.cpPend := rfl
@[simp] theorem Engine.updCue_cpDue (f : CueSt → CueSt) : (e.updCue f).cpDue = e.cpDue := rfl
@[simp] theorem Engine.updCue_evBuf (f : CueSt → CueSt) : (e.updCue f).evBuf = e.evBuf := rfl
@[simp] theorem Engine.updCue_caps (f : CueSt → CueSt) : (e.updCue f).caps = e.caps := rfl
@[simp] theorem Engine.updCue_tick (f : CueSt → CueSt) : (e.updCue f).tick = e.tick := rfl
@[simp] theorem Engine.updCue_clk (f : CueSt → CueSt) : (e.updCue f).clk = e.clk := rfl
@[simp] theorem Engine.updCue_ref (f : CueSt → CueSt) : (e.updCue f).ref = e.ref := rfl
@[simp] theorem Engine.updCue_time (f : CueSt → CueSt) : (e.updCue f).time = e.time := rfl
@[simp] theorem Engine.updCue_taq (f : CueSt → CueSt) : (e.updCue f).taq = e.taq := rfl
@[simp] theorem Engine.updCue_mbx (f : CueSt → CueSt) : (e.updCue f).mbx = e.mbx := rfl
@[simp] theorem Engine.updCue_assay (f : CueSt → CueSt) : (e.updCue f).assay = e.assay := rfl
@[simp] theorem Engine.updCue_core (f : CueSt → CueSt) : (e.updCue f).core = e.core := rfl
@[simp] theorem Engine.updCue_ingot (f : CueSt → CueSt) : (e.updCue f).ingot = e.ingot := rfl
@[simp] theorem Engine.updCue_xlat (f : CueSt → CueSt) : (e.updCue f).xlat = e.xlat := rfl
@[simp] theorem Engine.updCue_dma (f : CueSt → CueSt) : (e.updCue f).dma = e.dma := rfl
@[simp] theorem Engine.updCue_sched (f : CueSt → CueSt) : (e.updCue f).sched = e.sched := rfl
@[simp] theorem Engine.updCue_resetReq (f : CueSt → CueSt) : (e.updCue f).resetReq = e.resetReq := rfl
@[simp] theorem Engine.updCue_audio (f : CueSt → CueSt) : (e.updCue f).audio = e.audio := rfl
@[simp] theorem Engine.updCue_route (f : CueSt → CueSt) : (e.updCue f).route = e.route := rfl
@[simp] theorem Engine.updCue_sumx (f : CueSt → CueSt) : (e.updCue f).sumx = e.sumx := rfl
@[simp] theorem Engine.updCue_eqa (f : CueSt → CueSt) : (e.updCue f).eqa = e.eqa := rfl
@[simp] theorem Engine.updCue_safe (f : CueSt → CueSt) : (e.updCue f).safe = e.safe := rfl
@[simp] theorem Engine.updCue_duo (f : CueSt → CueSt) : (e.updCue f).duo = e.duo := rfl
@[simp] theorem Engine.updCue_pwr (f : CueSt → CueSt) : (e.updCue f).pwr = e.pwr := rfl
@[simp] theorem Engine.updCue_sap (f : CueSt → CueSt) : (e.updCue f).sap = e.sap := rfl
@[simp] theorem Engine.updCue_madi (f : CueSt → CueSt) : (e.updCue f).madi = e.madi := rfl
@[simp] theorem Engine.updCue_net (f : CueSt → CueSt) : (e.updCue f).net = e.net := rfl
@[simp] theorem Engine.updCue_cue (f : CueSt → CueSt) : (e.updCue f).cue = f e.cue := rfl
@[simp] theorem Engine.updCue_pcie (f : CueSt → CueSt) : (e.updCue f).pcie = e.pcie := rfl
@[simp] theorem Engine.updCue_twb (f : CueSt → CueSt) : (e.updCue f).twb = e.twb := rfl
@[simp] theorem Engine.updCue_sec (f : CueSt → CueSt) : (e.updCue f).sec = e.sec := rfl
@[simp] theorem Engine.updCue_dbg (f : CueSt → CueSt) : (e.updCue f).dbg = e.dbg := rfl
@[simp] theorem Engine.updCue_adapt (f : CueSt → CueSt) : (e.updCue f).adapt = e.adapt := rfl

/-! ### updPcie -/

@[simp] theorem Engine.updPcie_regs (f : PcieSt → PcieSt) : (e.updPcie f).regs = e.regs := rfl
@[simp] theorem Engine.updPcie_mem (f : PcieSt → PcieSt) : (e.updPcie f).mem = e.mem := rfl
@[simp] theorem Engine.updPcie_now (f : PcieSt → PcieSt) : (e.updPcie f).now = e.now := rfl
@[simp] theorem Engine.updPcie_free (f : PcieSt → PcieSt) : (e.updPcie f).free = e.free := rfl
@[simp] theorem Engine.updPcie_rdata (f : PcieSt → PcieSt) : (e.updPcie f).rdata = e.rdata := rfl
@[simp] theorem Engine.updPcie_cpPend (f : PcieSt → PcieSt) : (e.updPcie f).cpPend = e.cpPend := rfl
@[simp] theorem Engine.updPcie_cpDue (f : PcieSt → PcieSt) : (e.updPcie f).cpDue = e.cpDue := rfl
@[simp] theorem Engine.updPcie_evBuf (f : PcieSt → PcieSt) : (e.updPcie f).evBuf = e.evBuf := rfl
@[simp] theorem Engine.updPcie_caps (f : PcieSt → PcieSt) : (e.updPcie f).caps = e.caps := rfl
@[simp] theorem Engine.updPcie_tick (f : PcieSt → PcieSt) : (e.updPcie f).tick = e.tick := rfl
@[simp] theorem Engine.updPcie_clk (f : PcieSt → PcieSt) : (e.updPcie f).clk = e.clk := rfl
@[simp] theorem Engine.updPcie_ref (f : PcieSt → PcieSt) : (e.updPcie f).ref = e.ref := rfl
@[simp] theorem Engine.updPcie_time (f : PcieSt → PcieSt) : (e.updPcie f).time = e.time := rfl
@[simp] theorem Engine.updPcie_taq (f : PcieSt → PcieSt) : (e.updPcie f).taq = e.taq := rfl
@[simp] theorem Engine.updPcie_mbx (f : PcieSt → PcieSt) : (e.updPcie f).mbx = e.mbx := rfl
@[simp] theorem Engine.updPcie_assay (f : PcieSt → PcieSt) : (e.updPcie f).assay = e.assay := rfl
@[simp] theorem Engine.updPcie_core (f : PcieSt → PcieSt) : (e.updPcie f).core = e.core := rfl
@[simp] theorem Engine.updPcie_ingot (f : PcieSt → PcieSt) : (e.updPcie f).ingot = e.ingot := rfl
@[simp] theorem Engine.updPcie_xlat (f : PcieSt → PcieSt) : (e.updPcie f).xlat = e.xlat := rfl
@[simp] theorem Engine.updPcie_dma (f : PcieSt → PcieSt) : (e.updPcie f).dma = e.dma := rfl
@[simp] theorem Engine.updPcie_sched (f : PcieSt → PcieSt) : (e.updPcie f).sched = e.sched := rfl
@[simp] theorem Engine.updPcie_resetReq (f : PcieSt → PcieSt) : (e.updPcie f).resetReq = e.resetReq := rfl
@[simp] theorem Engine.updPcie_audio (f : PcieSt → PcieSt) : (e.updPcie f).audio = e.audio := rfl
@[simp] theorem Engine.updPcie_route (f : PcieSt → PcieSt) : (e.updPcie f).route = e.route := rfl
@[simp] theorem Engine.updPcie_sumx (f : PcieSt → PcieSt) : (e.updPcie f).sumx = e.sumx := rfl
@[simp] theorem Engine.updPcie_eqa (f : PcieSt → PcieSt) : (e.updPcie f).eqa = e.eqa := rfl
@[simp] theorem Engine.updPcie_safe (f : PcieSt → PcieSt) : (e.updPcie f).safe = e.safe := rfl
@[simp] theorem Engine.updPcie_duo (f : PcieSt → PcieSt) : (e.updPcie f).duo = e.duo := rfl
@[simp] theorem Engine.updPcie_pwr (f : PcieSt → PcieSt) : (e.updPcie f).pwr = e.pwr := rfl
@[simp] theorem Engine.updPcie_sap (f : PcieSt → PcieSt) : (e.updPcie f).sap = e.sap := rfl
@[simp] theorem Engine.updPcie_madi (f : PcieSt → PcieSt) : (e.updPcie f).madi = e.madi := rfl
@[simp] theorem Engine.updPcie_net (f : PcieSt → PcieSt) : (e.updPcie f).net = e.net := rfl
@[simp] theorem Engine.updPcie_cue (f : PcieSt → PcieSt) : (e.updPcie f).cue = e.cue := rfl
@[simp] theorem Engine.updPcie_pcie (f : PcieSt → PcieSt) : (e.updPcie f).pcie = f e.pcie := rfl
@[simp] theorem Engine.updPcie_twb (f : PcieSt → PcieSt) : (e.updPcie f).twb = e.twb := rfl
@[simp] theorem Engine.updPcie_sec (f : PcieSt → PcieSt) : (e.updPcie f).sec = e.sec := rfl
@[simp] theorem Engine.updPcie_dbg (f : PcieSt → PcieSt) : (e.updPcie f).dbg = e.dbg := rfl
@[simp] theorem Engine.updPcie_adapt (f : PcieSt → PcieSt) : (e.updPcie f).adapt = e.adapt := rfl

/-! ### updTwb -/

@[simp] theorem Engine.updTwb_regs (f : TwbSt → TwbSt) : (e.updTwb f).regs = e.regs := rfl
@[simp] theorem Engine.updTwb_mem (f : TwbSt → TwbSt) : (e.updTwb f).mem = e.mem := rfl
@[simp] theorem Engine.updTwb_now (f : TwbSt → TwbSt) : (e.updTwb f).now = e.now := rfl
@[simp] theorem Engine.updTwb_free (f : TwbSt → TwbSt) : (e.updTwb f).free = e.free := rfl
@[simp] theorem Engine.updTwb_rdata (f : TwbSt → TwbSt) : (e.updTwb f).rdata = e.rdata := rfl
@[simp] theorem Engine.updTwb_cpPend (f : TwbSt → TwbSt) : (e.updTwb f).cpPend = e.cpPend := rfl
@[simp] theorem Engine.updTwb_cpDue (f : TwbSt → TwbSt) : (e.updTwb f).cpDue = e.cpDue := rfl
@[simp] theorem Engine.updTwb_evBuf (f : TwbSt → TwbSt) : (e.updTwb f).evBuf = e.evBuf := rfl
@[simp] theorem Engine.updTwb_caps (f : TwbSt → TwbSt) : (e.updTwb f).caps = e.caps := rfl
@[simp] theorem Engine.updTwb_tick (f : TwbSt → TwbSt) : (e.updTwb f).tick = e.tick := rfl
@[simp] theorem Engine.updTwb_clk (f : TwbSt → TwbSt) : (e.updTwb f).clk = e.clk := rfl
@[simp] theorem Engine.updTwb_ref (f : TwbSt → TwbSt) : (e.updTwb f).ref = e.ref := rfl
@[simp] theorem Engine.updTwb_time (f : TwbSt → TwbSt) : (e.updTwb f).time = e.time := rfl
@[simp] theorem Engine.updTwb_taq (f : TwbSt → TwbSt) : (e.updTwb f).taq = e.taq := rfl
@[simp] theorem Engine.updTwb_mbx (f : TwbSt → TwbSt) : (e.updTwb f).mbx = e.mbx := rfl
@[simp] theorem Engine.updTwb_assay (f : TwbSt → TwbSt) : (e.updTwb f).assay = e.assay := rfl
@[simp] theorem Engine.updTwb_core (f : TwbSt → TwbSt) : (e.updTwb f).core = e.core := rfl
@[simp] theorem Engine.updTwb_ingot (f : TwbSt → TwbSt) : (e.updTwb f).ingot = e.ingot := rfl
@[simp] theorem Engine.updTwb_xlat (f : TwbSt → TwbSt) : (e.updTwb f).xlat = e.xlat := rfl
@[simp] theorem Engine.updTwb_dma (f : TwbSt → TwbSt) : (e.updTwb f).dma = e.dma := rfl
@[simp] theorem Engine.updTwb_sched (f : TwbSt → TwbSt) : (e.updTwb f).sched = e.sched := rfl
@[simp] theorem Engine.updTwb_resetReq (f : TwbSt → TwbSt) : (e.updTwb f).resetReq = e.resetReq := rfl
@[simp] theorem Engine.updTwb_audio (f : TwbSt → TwbSt) : (e.updTwb f).audio = e.audio := rfl
@[simp] theorem Engine.updTwb_route (f : TwbSt → TwbSt) : (e.updTwb f).route = e.route := rfl
@[simp] theorem Engine.updTwb_sumx (f : TwbSt → TwbSt) : (e.updTwb f).sumx = e.sumx := rfl
@[simp] theorem Engine.updTwb_eqa (f : TwbSt → TwbSt) : (e.updTwb f).eqa = e.eqa := rfl
@[simp] theorem Engine.updTwb_safe (f : TwbSt → TwbSt) : (e.updTwb f).safe = e.safe := rfl
@[simp] theorem Engine.updTwb_duo (f : TwbSt → TwbSt) : (e.updTwb f).duo = e.duo := rfl
@[simp] theorem Engine.updTwb_pwr (f : TwbSt → TwbSt) : (e.updTwb f).pwr = e.pwr := rfl
@[simp] theorem Engine.updTwb_sap (f : TwbSt → TwbSt) : (e.updTwb f).sap = e.sap := rfl
@[simp] theorem Engine.updTwb_madi (f : TwbSt → TwbSt) : (e.updTwb f).madi = e.madi := rfl
@[simp] theorem Engine.updTwb_net (f : TwbSt → TwbSt) : (e.updTwb f).net = e.net := rfl
@[simp] theorem Engine.updTwb_cue (f : TwbSt → TwbSt) : (e.updTwb f).cue = e.cue := rfl
@[simp] theorem Engine.updTwb_pcie (f : TwbSt → TwbSt) : (e.updTwb f).pcie = e.pcie := rfl
@[simp] theorem Engine.updTwb_twb (f : TwbSt → TwbSt) : (e.updTwb f).twb = f e.twb := rfl
@[simp] theorem Engine.updTwb_sec (f : TwbSt → TwbSt) : (e.updTwb f).sec = e.sec := rfl
@[simp] theorem Engine.updTwb_dbg (f : TwbSt → TwbSt) : (e.updTwb f).dbg = e.dbg := rfl
@[simp] theorem Engine.updTwb_adapt (f : TwbSt → TwbSt) : (e.updTwb f).adapt = e.adapt := rfl

/-! ### updSec -/

@[simp] theorem Engine.updSec_regs (f : SecuritySt → SecuritySt) : (e.updSec f).regs = e.regs := rfl
@[simp] theorem Engine.updSec_mem (f : SecuritySt → SecuritySt) : (e.updSec f).mem = e.mem := rfl
@[simp] theorem Engine.updSec_now (f : SecuritySt → SecuritySt) : (e.updSec f).now = e.now := rfl
@[simp] theorem Engine.updSec_free (f : SecuritySt → SecuritySt) : (e.updSec f).free = e.free := rfl
@[simp] theorem Engine.updSec_rdata (f : SecuritySt → SecuritySt) : (e.updSec f).rdata = e.rdata := rfl
@[simp] theorem Engine.updSec_cpPend (f : SecuritySt → SecuritySt) : (e.updSec f).cpPend = e.cpPend := rfl
@[simp] theorem Engine.updSec_cpDue (f : SecuritySt → SecuritySt) : (e.updSec f).cpDue = e.cpDue := rfl
@[simp] theorem Engine.updSec_evBuf (f : SecuritySt → SecuritySt) : (e.updSec f).evBuf = e.evBuf := rfl
@[simp] theorem Engine.updSec_caps (f : SecuritySt → SecuritySt) : (e.updSec f).caps = e.caps := rfl
@[simp] theorem Engine.updSec_tick (f : SecuritySt → SecuritySt) : (e.updSec f).tick = e.tick := rfl
@[simp] theorem Engine.updSec_clk (f : SecuritySt → SecuritySt) : (e.updSec f).clk = e.clk := rfl
@[simp] theorem Engine.updSec_ref (f : SecuritySt → SecuritySt) : (e.updSec f).ref = e.ref := rfl
@[simp] theorem Engine.updSec_time (f : SecuritySt → SecuritySt) : (e.updSec f).time = e.time := rfl
@[simp] theorem Engine.updSec_taq (f : SecuritySt → SecuritySt) : (e.updSec f).taq = e.taq := rfl
@[simp] theorem Engine.updSec_mbx (f : SecuritySt → SecuritySt) : (e.updSec f).mbx = e.mbx := rfl
@[simp] theorem Engine.updSec_assay (f : SecuritySt → SecuritySt) : (e.updSec f).assay = e.assay := rfl
@[simp] theorem Engine.updSec_core (f : SecuritySt → SecuritySt) : (e.updSec f).core = e.core := rfl
@[simp] theorem Engine.updSec_ingot (f : SecuritySt → SecuritySt) : (e.updSec f).ingot = e.ingot := rfl
@[simp] theorem Engine.updSec_xlat (f : SecuritySt → SecuritySt) : (e.updSec f).xlat = e.xlat := rfl
@[simp] theorem Engine.updSec_dma (f : SecuritySt → SecuritySt) : (e.updSec f).dma = e.dma := rfl
@[simp] theorem Engine.updSec_sched (f : SecuritySt → SecuritySt) : (e.updSec f).sched = e.sched := rfl
@[simp] theorem Engine.updSec_resetReq (f : SecuritySt → SecuritySt) : (e.updSec f).resetReq = e.resetReq := rfl
@[simp] theorem Engine.updSec_audio (f : SecuritySt → SecuritySt) : (e.updSec f).audio = e.audio := rfl
@[simp] theorem Engine.updSec_route (f : SecuritySt → SecuritySt) : (e.updSec f).route = e.route := rfl
@[simp] theorem Engine.updSec_sumx (f : SecuritySt → SecuritySt) : (e.updSec f).sumx = e.sumx := rfl
@[simp] theorem Engine.updSec_eqa (f : SecuritySt → SecuritySt) : (e.updSec f).eqa = e.eqa := rfl
@[simp] theorem Engine.updSec_safe (f : SecuritySt → SecuritySt) : (e.updSec f).safe = e.safe := rfl
@[simp] theorem Engine.updSec_duo (f : SecuritySt → SecuritySt) : (e.updSec f).duo = e.duo := rfl
@[simp] theorem Engine.updSec_pwr (f : SecuritySt → SecuritySt) : (e.updSec f).pwr = e.pwr := rfl
@[simp] theorem Engine.updSec_sap (f : SecuritySt → SecuritySt) : (e.updSec f).sap = e.sap := rfl
@[simp] theorem Engine.updSec_madi (f : SecuritySt → SecuritySt) : (e.updSec f).madi = e.madi := rfl
@[simp] theorem Engine.updSec_net (f : SecuritySt → SecuritySt) : (e.updSec f).net = e.net := rfl
@[simp] theorem Engine.updSec_cue (f : SecuritySt → SecuritySt) : (e.updSec f).cue = e.cue := rfl
@[simp] theorem Engine.updSec_pcie (f : SecuritySt → SecuritySt) : (e.updSec f).pcie = e.pcie := rfl
@[simp] theorem Engine.updSec_twb (f : SecuritySt → SecuritySt) : (e.updSec f).twb = e.twb := rfl
@[simp] theorem Engine.updSec_sec (f : SecuritySt → SecuritySt) : (e.updSec f).sec = f e.sec := rfl
@[simp] theorem Engine.updSec_dbg (f : SecuritySt → SecuritySt) : (e.updSec f).dbg = e.dbg := rfl
@[simp] theorem Engine.updSec_adapt (f : SecuritySt → SecuritySt) : (e.updSec f).adapt = e.adapt := rfl

/-! ### updDbg -/

@[simp] theorem Engine.updDbg_regs (f : DbgSt → DbgSt) : (e.updDbg f).regs = e.regs := rfl
@[simp] theorem Engine.updDbg_mem (f : DbgSt → DbgSt) : (e.updDbg f).mem = e.mem := rfl
@[simp] theorem Engine.updDbg_now (f : DbgSt → DbgSt) : (e.updDbg f).now = e.now := rfl
@[simp] theorem Engine.updDbg_free (f : DbgSt → DbgSt) : (e.updDbg f).free = e.free := rfl
@[simp] theorem Engine.updDbg_rdata (f : DbgSt → DbgSt) : (e.updDbg f).rdata = e.rdata := rfl
@[simp] theorem Engine.updDbg_cpPend (f : DbgSt → DbgSt) : (e.updDbg f).cpPend = e.cpPend := rfl
@[simp] theorem Engine.updDbg_cpDue (f : DbgSt → DbgSt) : (e.updDbg f).cpDue = e.cpDue := rfl
@[simp] theorem Engine.updDbg_evBuf (f : DbgSt → DbgSt) : (e.updDbg f).evBuf = e.evBuf := rfl
@[simp] theorem Engine.updDbg_caps (f : DbgSt → DbgSt) : (e.updDbg f).caps = e.caps := rfl
@[simp] theorem Engine.updDbg_tick (f : DbgSt → DbgSt) : (e.updDbg f).tick = e.tick := rfl
@[simp] theorem Engine.updDbg_clk (f : DbgSt → DbgSt) : (e.updDbg f).clk = e.clk := rfl
@[simp] theorem Engine.updDbg_ref (f : DbgSt → DbgSt) : (e.updDbg f).ref = e.ref := rfl
@[simp] theorem Engine.updDbg_time (f : DbgSt → DbgSt) : (e.updDbg f).time = e.time := rfl
@[simp] theorem Engine.updDbg_taq (f : DbgSt → DbgSt) : (e.updDbg f).taq = e.taq := rfl
@[simp] theorem Engine.updDbg_mbx (f : DbgSt → DbgSt) : (e.updDbg f).mbx = e.mbx := rfl
@[simp] theorem Engine.updDbg_assay (f : DbgSt → DbgSt) : (e.updDbg f).assay = e.assay := rfl
@[simp] theorem Engine.updDbg_core (f : DbgSt → DbgSt) : (e.updDbg f).core = e.core := rfl
@[simp] theorem Engine.updDbg_ingot (f : DbgSt → DbgSt) : (e.updDbg f).ingot = e.ingot := rfl
@[simp] theorem Engine.updDbg_xlat (f : DbgSt → DbgSt) : (e.updDbg f).xlat = e.xlat := rfl
@[simp] theorem Engine.updDbg_dma (f : DbgSt → DbgSt) : (e.updDbg f).dma = e.dma := rfl
@[simp] theorem Engine.updDbg_sched (f : DbgSt → DbgSt) : (e.updDbg f).sched = e.sched := rfl
@[simp] theorem Engine.updDbg_resetReq (f : DbgSt → DbgSt) : (e.updDbg f).resetReq = e.resetReq := rfl
@[simp] theorem Engine.updDbg_audio (f : DbgSt → DbgSt) : (e.updDbg f).audio = e.audio := rfl
@[simp] theorem Engine.updDbg_route (f : DbgSt → DbgSt) : (e.updDbg f).route = e.route := rfl
@[simp] theorem Engine.updDbg_sumx (f : DbgSt → DbgSt) : (e.updDbg f).sumx = e.sumx := rfl
@[simp] theorem Engine.updDbg_eqa (f : DbgSt → DbgSt) : (e.updDbg f).eqa = e.eqa := rfl
@[simp] theorem Engine.updDbg_safe (f : DbgSt → DbgSt) : (e.updDbg f).safe = e.safe := rfl
@[simp] theorem Engine.updDbg_duo (f : DbgSt → DbgSt) : (e.updDbg f).duo = e.duo := rfl
@[simp] theorem Engine.updDbg_pwr (f : DbgSt → DbgSt) : (e.updDbg f).pwr = e.pwr := rfl
@[simp] theorem Engine.updDbg_sap (f : DbgSt → DbgSt) : (e.updDbg f).sap = e.sap := rfl
@[simp] theorem Engine.updDbg_madi (f : DbgSt → DbgSt) : (e.updDbg f).madi = e.madi := rfl
@[simp] theorem Engine.updDbg_net (f : DbgSt → DbgSt) : (e.updDbg f).net = e.net := rfl
@[simp] theorem Engine.updDbg_cue (f : DbgSt → DbgSt) : (e.updDbg f).cue = e.cue := rfl
@[simp] theorem Engine.updDbg_pcie (f : DbgSt → DbgSt) : (e.updDbg f).pcie = e.pcie := rfl
@[simp] theorem Engine.updDbg_twb (f : DbgSt → DbgSt) : (e.updDbg f).twb = e.twb := rfl
@[simp] theorem Engine.updDbg_sec (f : DbgSt → DbgSt) : (e.updDbg f).sec = e.sec := rfl
@[simp] theorem Engine.updDbg_dbg (f : DbgSt → DbgSt) : (e.updDbg f).dbg = f e.dbg := rfl
@[simp] theorem Engine.updDbg_adapt (f : DbgSt → DbgSt) : (e.updDbg f).adapt = e.adapt := rfl

/-! ### updAdapt -/

@[simp] theorem Engine.updAdapt_regs (f : AdaptSt → AdaptSt) : (e.updAdapt f).regs = e.regs := rfl
@[simp] theorem Engine.updAdapt_mem (f : AdaptSt → AdaptSt) : (e.updAdapt f).mem = e.mem := rfl
@[simp] theorem Engine.updAdapt_now (f : AdaptSt → AdaptSt) : (e.updAdapt f).now = e.now := rfl
@[simp] theorem Engine.updAdapt_free (f : AdaptSt → AdaptSt) : (e.updAdapt f).free = e.free := rfl
@[simp] theorem Engine.updAdapt_rdata (f : AdaptSt → AdaptSt) : (e.updAdapt f).rdata = e.rdata := rfl
@[simp] theorem Engine.updAdapt_cpPend (f : AdaptSt → AdaptSt) : (e.updAdapt f).cpPend = e.cpPend := rfl
@[simp] theorem Engine.updAdapt_cpDue (f : AdaptSt → AdaptSt) : (e.updAdapt f).cpDue = e.cpDue := rfl
@[simp] theorem Engine.updAdapt_evBuf (f : AdaptSt → AdaptSt) : (e.updAdapt f).evBuf = e.evBuf := rfl
@[simp] theorem Engine.updAdapt_caps (f : AdaptSt → AdaptSt) : (e.updAdapt f).caps = e.caps := rfl
@[simp] theorem Engine.updAdapt_tick (f : AdaptSt → AdaptSt) : (e.updAdapt f).tick = e.tick := rfl
@[simp] theorem Engine.updAdapt_clk (f : AdaptSt → AdaptSt) : (e.updAdapt f).clk = e.clk := rfl
@[simp] theorem Engine.updAdapt_ref (f : AdaptSt → AdaptSt) : (e.updAdapt f).ref = e.ref := rfl
@[simp] theorem Engine.updAdapt_time (f : AdaptSt → AdaptSt) : (e.updAdapt f).time = e.time := rfl
@[simp] theorem Engine.updAdapt_taq (f : AdaptSt → AdaptSt) : (e.updAdapt f).taq = e.taq := rfl
@[simp] theorem Engine.updAdapt_mbx (f : AdaptSt → AdaptSt) : (e.updAdapt f).mbx = e.mbx := rfl
@[simp] theorem Engine.updAdapt_assay (f : AdaptSt → AdaptSt) : (e.updAdapt f).assay = e.assay := rfl
@[simp] theorem Engine.updAdapt_core (f : AdaptSt → AdaptSt) : (e.updAdapt f).core = e.core := rfl
@[simp] theorem Engine.updAdapt_ingot (f : AdaptSt → AdaptSt) : (e.updAdapt f).ingot = e.ingot := rfl
@[simp] theorem Engine.updAdapt_xlat (f : AdaptSt → AdaptSt) : (e.updAdapt f).xlat = e.xlat := rfl
@[simp] theorem Engine.updAdapt_dma (f : AdaptSt → AdaptSt) : (e.updAdapt f).dma = e.dma := rfl
@[simp] theorem Engine.updAdapt_sched (f : AdaptSt → AdaptSt) : (e.updAdapt f).sched = e.sched := rfl
@[simp] theorem Engine.updAdapt_resetReq (f : AdaptSt → AdaptSt) : (e.updAdapt f).resetReq = e.resetReq := rfl
@[simp] theorem Engine.updAdapt_audio (f : AdaptSt → AdaptSt) : (e.updAdapt f).audio = e.audio := rfl
@[simp] theorem Engine.updAdapt_route (f : AdaptSt → AdaptSt) : (e.updAdapt f).route = e.route := rfl
@[simp] theorem Engine.updAdapt_sumx (f : AdaptSt → AdaptSt) : (e.updAdapt f).sumx = e.sumx := rfl
@[simp] theorem Engine.updAdapt_eqa (f : AdaptSt → AdaptSt) : (e.updAdapt f).eqa = e.eqa := rfl
@[simp] theorem Engine.updAdapt_safe (f : AdaptSt → AdaptSt) : (e.updAdapt f).safe = e.safe := rfl
@[simp] theorem Engine.updAdapt_duo (f : AdaptSt → AdaptSt) : (e.updAdapt f).duo = e.duo := rfl
@[simp] theorem Engine.updAdapt_pwr (f : AdaptSt → AdaptSt) : (e.updAdapt f).pwr = e.pwr := rfl
@[simp] theorem Engine.updAdapt_sap (f : AdaptSt → AdaptSt) : (e.updAdapt f).sap = e.sap := rfl
@[simp] theorem Engine.updAdapt_madi (f : AdaptSt → AdaptSt) : (e.updAdapt f).madi = e.madi := rfl
@[simp] theorem Engine.updAdapt_net (f : AdaptSt → AdaptSt) : (e.updAdapt f).net = e.net := rfl
@[simp] theorem Engine.updAdapt_cue (f : AdaptSt → AdaptSt) : (e.updAdapt f).cue = e.cue := rfl
@[simp] theorem Engine.updAdapt_pcie (f : AdaptSt → AdaptSt) : (e.updAdapt f).pcie = e.pcie := rfl
@[simp] theorem Engine.updAdapt_twb (f : AdaptSt → AdaptSt) : (e.updAdapt f).twb = e.twb := rfl
@[simp] theorem Engine.updAdapt_sec (f : AdaptSt → AdaptSt) : (e.updAdapt f).sec = e.sec := rfl
@[simp] theorem Engine.updAdapt_dbg (f : AdaptSt → AdaptSt) : (e.updAdapt f).dbg = e.dbg := rfl
@[simp] theorem Engine.updAdapt_adapt (f : AdaptSt → AdaptSt) : (e.updAdapt f).adapt = f e.adapt := rfl

/-! ### wr -/

@[simp] theorem Engine.wr_mem (a : Nat) (v : Word) : (e.wr a v).mem = e.mem := rfl
@[simp] theorem Engine.wr_now (a : Nat) (v : Word) : (e.wr a v).now = e.now := rfl
@[simp] theorem Engine.wr_free (a : Nat) (v : Word) : (e.wr a v).free = e.free := rfl
@[simp] theorem Engine.wr_rdata (a : Nat) (v : Word) : (e.wr a v).rdata = e.rdata := rfl
@[simp] theorem Engine.wr_cpPend (a : Nat) (v : Word) : (e.wr a v).cpPend = e.cpPend := rfl
@[simp] theorem Engine.wr_cpDue (a : Nat) (v : Word) : (e.wr a v).cpDue = e.cpDue := rfl
@[simp] theorem Engine.wr_evBuf (a : Nat) (v : Word) : (e.wr a v).evBuf = e.evBuf := rfl
@[simp] theorem Engine.wr_caps (a : Nat) (v : Word) : (e.wr a v).caps = e.caps := rfl
@[simp] theorem Engine.wr_tick (a : Nat) (v : Word) : (e.wr a v).tick = e.tick := rfl
@[simp] theorem Engine.wr_clk (a : Nat) (v : Word) : (e.wr a v).clk = e.clk := rfl
@[simp] theorem Engine.wr_ref (a : Nat) (v : Word) : (e.wr a v).ref = e.ref := rfl
@[simp] theorem Engine.wr_time (a : Nat) (v : Word) : (e.wr a v).time = e.time := rfl
@[simp] theorem Engine.wr_taq (a : Nat) (v : Word) : (e.wr a v).taq = e.taq := rfl
@[simp] theorem Engine.wr_mbx (a : Nat) (v : Word) : (e.wr a v).mbx = e.mbx := rfl
@[simp] theorem Engine.wr_assay (a : Nat) (v : Word) : (e.wr a v).assay = e.assay := rfl
@[simp] theorem Engine.wr_core (a : Nat) (v : Word) : (e.wr a v).core = e.core := rfl
@[simp] theorem Engine.wr_ingot (a : Nat) (v : Word) : (e.wr a v).ingot = e.ingot := rfl
@[simp] theorem Engine.wr_xlat (a : Nat) (v : Word) : (e.wr a v).xlat = e.xlat := rfl
@[simp] theorem Engine.wr_dma (a : Nat) (v : Word) : (e.wr a v).dma = e.dma := rfl
@[simp] theorem Engine.wr_sched (a : Nat) (v : Word) : (e.wr a v).sched = e.sched := rfl
@[simp] theorem Engine.wr_resetReq (a : Nat) (v : Word) : (e.wr a v).resetReq = e.resetReq := rfl
@[simp] theorem Engine.wr_audio (a : Nat) (v : Word) : (e.wr a v).audio = e.audio := rfl
@[simp] theorem Engine.wr_route (a : Nat) (v : Word) : (e.wr a v).route = e.route := rfl
@[simp] theorem Engine.wr_sumx (a : Nat) (v : Word) : (e.wr a v).sumx = e.sumx := rfl
@[simp] theorem Engine.wr_eqa (a : Nat) (v : Word) : (e.wr a v).eqa = e.eqa := rfl
@[simp] theorem Engine.wr_safe (a : Nat) (v : Word) : (e.wr a v).safe = e.safe := rfl
@[simp] theorem Engine.wr_duo (a : Nat) (v : Word) : (e.wr a v).duo = e.duo := rfl
@[simp] theorem Engine.wr_pwr (a : Nat) (v : Word) : (e.wr a v).pwr = e.pwr := rfl
@[simp] theorem Engine.wr_sap (a : Nat) (v : Word) : (e.wr a v).sap = e.sap := rfl
@[simp] theorem Engine.wr_madi (a : Nat) (v : Word) : (e.wr a v).madi = e.madi := rfl
@[simp] theorem Engine.wr_net (a : Nat) (v : Word) : (e.wr a v).net = e.net := rfl
@[simp] theorem Engine.wr_cue (a : Nat) (v : Word) : (e.wr a v).cue = e.cue := rfl
@[simp] theorem Engine.wr_pcie (a : Nat) (v : Word) : (e.wr a v).pcie = e.pcie := rfl
@[simp] theorem Engine.wr_twb (a : Nat) (v : Word) : (e.wr a v).twb = e.twb := rfl
@[simp] theorem Engine.wr_sec (a : Nat) (v : Word) : (e.wr a v).sec = e.sec := rfl
@[simp] theorem Engine.wr_dbg (a : Nat) (v : Word) : (e.wr a v).dbg = e.dbg := rfl
@[simp] theorem Engine.wr_adapt (a : Nat) (v : Word) : (e.wr a v).adapt = e.adapt := rfl

/-! ### put -/

@[simp] theorem Engine.put_mem (f : Fld) (v : Nat) : (e.put f v).mem = e.mem := rfl
@[simp] theorem Engine.put_now (f : Fld) (v : Nat) : (e.put f v).now = e.now := rfl
@[simp] theorem Engine.put_free (f : Fld) (v : Nat) : (e.put f v).free = e.free := rfl
@[simp] theorem Engine.put_rdata (f : Fld) (v : Nat) : (e.put f v).rdata = e.rdata := rfl
@[simp] theorem Engine.put_cpPend (f : Fld) (v : Nat) : (e.put f v).cpPend = e.cpPend := rfl
@[simp] theorem Engine.put_cpDue (f : Fld) (v : Nat) : (e.put f v).cpDue = e.cpDue := rfl
@[simp] theorem Engine.put_evBuf (f : Fld) (v : Nat) : (e.put f v).evBuf = e.evBuf := rfl
@[simp] theorem Engine.put_caps (f : Fld) (v : Nat) : (e.put f v).caps = e.caps := rfl
@[simp] theorem Engine.put_tick (f : Fld) (v : Nat) : (e.put f v).tick = e.tick := rfl
@[simp] theorem Engine.put_clk (f : Fld) (v : Nat) : (e.put f v).clk = e.clk := rfl
@[simp] theorem Engine.put_ref (f : Fld) (v : Nat) : (e.put f v).ref = e.ref := rfl
@[simp] theorem Engine.put_time (f : Fld) (v : Nat) : (e.put f v).time = e.time := rfl
@[simp] theorem Engine.put_taq (f : Fld) (v : Nat) : (e.put f v).taq = e.taq := rfl
@[simp] theorem Engine.put_mbx (f : Fld) (v : Nat) : (e.put f v).mbx = e.mbx := rfl
@[simp] theorem Engine.put_assay (f : Fld) (v : Nat) : (e.put f v).assay = e.assay := rfl
@[simp] theorem Engine.put_core (f : Fld) (v : Nat) : (e.put f v).core = e.core := rfl
@[simp] theorem Engine.put_ingot (f : Fld) (v : Nat) : (e.put f v).ingot = e.ingot := rfl
@[simp] theorem Engine.put_xlat (f : Fld) (v : Nat) : (e.put f v).xlat = e.xlat := rfl
@[simp] theorem Engine.put_dma (f : Fld) (v : Nat) : (e.put f v).dma = e.dma := rfl
@[simp] theorem Engine.put_sched (f : Fld) (v : Nat) : (e.put f v).sched = e.sched := rfl
@[simp] theorem Engine.put_resetReq (f : Fld) (v : Nat) : (e.put f v).resetReq = e.resetReq := rfl
@[simp] theorem Engine.put_audio (f : Fld) (v : Nat) : (e.put f v).audio = e.audio := rfl
@[simp] theorem Engine.put_route (f : Fld) (v : Nat) : (e.put f v).route = e.route := rfl
@[simp] theorem Engine.put_sumx (f : Fld) (v : Nat) : (e.put f v).sumx = e.sumx := rfl
@[simp] theorem Engine.put_eqa (f : Fld) (v : Nat) : (e.put f v).eqa = e.eqa := rfl
@[simp] theorem Engine.put_safe (f : Fld) (v : Nat) : (e.put f v).safe = e.safe := rfl
@[simp] theorem Engine.put_duo (f : Fld) (v : Nat) : (e.put f v).duo = e.duo := rfl
@[simp] theorem Engine.put_pwr (f : Fld) (v : Nat) : (e.put f v).pwr = e.pwr := rfl
@[simp] theorem Engine.put_sap (f : Fld) (v : Nat) : (e.put f v).sap = e.sap := rfl
@[simp] theorem Engine.put_madi (f : Fld) (v : Nat) : (e.put f v).madi = e.madi := rfl
@[simp] theorem Engine.put_net (f : Fld) (v : Nat) : (e.put f v).net = e.net := rfl
@[simp] theorem Engine.put_cue (f : Fld) (v : Nat) : (e.put f v).cue = e.cue := rfl
@[simp] theorem Engine.put_pcie (f : Fld) (v : Nat) : (e.put f v).pcie = e.pcie := rfl
@[simp] theorem Engine.put_twb (f : Fld) (v : Nat) : (e.put f v).twb = e.twb := rfl
@[simp] theorem Engine.put_sec (f : Fld) (v : Nat) : (e.put f v).sec = e.sec := rfl
@[simp] theorem Engine.put_dbg (f : Fld) (v : Nat) : (e.put f v).dbg = e.dbg := rfl
@[simp] theorem Engine.put_adapt (f : Fld) (v : Nat) : (e.put f v).adapt = e.adapt := rfl

/-! ### putB -/

@[simp] theorem Engine.putB_mem (f : Fld) (b : Bool) : (e.putB f b).mem = e.mem := rfl
@[simp] theorem Engine.putB_now (f : Fld) (b : Bool) : (e.putB f b).now = e.now := rfl
@[simp] theorem Engine.putB_free (f : Fld) (b : Bool) : (e.putB f b).free = e.free := rfl
@[simp] theorem Engine.putB_rdata (f : Fld) (b : Bool) : (e.putB f b).rdata = e.rdata := rfl
@[simp] theorem Engine.putB_cpPend (f : Fld) (b : Bool) : (e.putB f b).cpPend = e.cpPend := rfl
@[simp] theorem Engine.putB_cpDue (f : Fld) (b : Bool) : (e.putB f b).cpDue = e.cpDue := rfl
@[simp] theorem Engine.putB_evBuf (f : Fld) (b : Bool) : (e.putB f b).evBuf = e.evBuf := rfl
@[simp] theorem Engine.putB_caps (f : Fld) (b : Bool) : (e.putB f b).caps = e.caps := rfl
@[simp] theorem Engine.putB_tick (f : Fld) (b : Bool) : (e.putB f b).tick = e.tick := rfl
@[simp] theorem Engine.putB_clk (f : Fld) (b : Bool) : (e.putB f b).clk = e.clk := rfl
@[simp] theorem Engine.putB_ref (f : Fld) (b : Bool) : (e.putB f b).ref = e.ref := rfl
@[simp] theorem Engine.putB_time (f : Fld) (b : Bool) : (e.putB f b).time = e.time := rfl
@[simp] theorem Engine.putB_taq (f : Fld) (b : Bool) : (e.putB f b).taq = e.taq := rfl
@[simp] theorem Engine.putB_mbx (f : Fld) (b : Bool) : (e.putB f b).mbx = e.mbx := rfl
@[simp] theorem Engine.putB_assay (f : Fld) (b : Bool) : (e.putB f b).assay = e.assay := rfl
@[simp] theorem Engine.putB_core (f : Fld) (b : Bool) : (e.putB f b).core = e.core := rfl
@[simp] theorem Engine.putB_ingot (f : Fld) (b : Bool) : (e.putB f b).ingot = e.ingot := rfl
@[simp] theorem Engine.putB_xlat (f : Fld) (b : Bool) : (e.putB f b).xlat = e.xlat := rfl
@[simp] theorem Engine.putB_dma (f : Fld) (b : Bool) : (e.putB f b).dma = e.dma := rfl
@[simp] theorem Engine.putB_sched (f : Fld) (b : Bool) : (e.putB f b).sched = e.sched := rfl
@[simp] theorem Engine.putB_resetReq (f : Fld) (b : Bool) : (e.putB f b).resetReq = e.resetReq := rfl
@[simp] theorem Engine.putB_audio (f : Fld) (b : Bool) : (e.putB f b).audio = e.audio := rfl
@[simp] theorem Engine.putB_route (f : Fld) (b : Bool) : (e.putB f b).route = e.route := rfl
@[simp] theorem Engine.putB_sumx (f : Fld) (b : Bool) : (e.putB f b).sumx = e.sumx := rfl
@[simp] theorem Engine.putB_eqa (f : Fld) (b : Bool) : (e.putB f b).eqa = e.eqa := rfl
@[simp] theorem Engine.putB_safe (f : Fld) (b : Bool) : (e.putB f b).safe = e.safe := rfl
@[simp] theorem Engine.putB_duo (f : Fld) (b : Bool) : (e.putB f b).duo = e.duo := rfl
@[simp] theorem Engine.putB_pwr (f : Fld) (b : Bool) : (e.putB f b).pwr = e.pwr := rfl
@[simp] theorem Engine.putB_sap (f : Fld) (b : Bool) : (e.putB f b).sap = e.sap := rfl
@[simp] theorem Engine.putB_madi (f : Fld) (b : Bool) : (e.putB f b).madi = e.madi := rfl
@[simp] theorem Engine.putB_net (f : Fld) (b : Bool) : (e.putB f b).net = e.net := rfl
@[simp] theorem Engine.putB_cue (f : Fld) (b : Bool) : (e.putB f b).cue = e.cue := rfl
@[simp] theorem Engine.putB_pcie (f : Fld) (b : Bool) : (e.putB f b).pcie = e.pcie := rfl
@[simp] theorem Engine.putB_twb (f : Fld) (b : Bool) : (e.putB f b).twb = e.twb := rfl
@[simp] theorem Engine.putB_sec (f : Fld) (b : Bool) : (e.putB f b).sec = e.sec := rfl
@[simp] theorem Engine.putB_dbg (f : Fld) (b : Bool) : (e.putB f b).dbg = e.dbg := rfl
@[simp] theorem Engine.putB_adapt (f : Fld) (b : Bool) : (e.putB f b).adapt = e.adapt := rfl

/-! ### count -/

@[simp] theorem Engine.count_mem (f : Fld) (n : Nat) : (e.count f n).mem = e.mem := rfl
@[simp] theorem Engine.count_now (f : Fld) (n : Nat) : (e.count f n).now = e.now := rfl
@[simp] theorem Engine.count_free (f : Fld) (n : Nat) : (e.count f n).free = e.free := rfl
@[simp] theorem Engine.count_rdata (f : Fld) (n : Nat) : (e.count f n).rdata = e.rdata := rfl
@[simp] theorem Engine.count_cpPend (f : Fld) (n : Nat) : (e.count f n).cpPend = e.cpPend := rfl
@[simp] theorem Engine.count_cpDue (f : Fld) (n : Nat) : (e.count f n).cpDue = e.cpDue := rfl
@[simp] theorem Engine.count_evBuf (f : Fld) (n : Nat) : (e.count f n).evBuf = e.evBuf := rfl
@[simp] theorem Engine.count_caps (f : Fld) (n : Nat) : (e.count f n).caps = e.caps := rfl
@[simp] theorem Engine.count_tick (f : Fld) (n : Nat) : (e.count f n).tick = e.tick := rfl
@[simp] theorem Engine.count_clk (f : Fld) (n : Nat) : (e.count f n).clk = e.clk := rfl
@[simp] theorem Engine.count_ref (f : Fld) (n : Nat) : (e.count f n).ref = e.ref := rfl
@[simp] theorem Engine.count_time (f : Fld) (n : Nat) : (e.count f n).time = e.time := rfl
@[simp] theorem Engine.count_taq (f : Fld) (n : Nat) : (e.count f n).taq = e.taq := rfl
@[simp] theorem Engine.count_mbx (f : Fld) (n : Nat) : (e.count f n).mbx = e.mbx := rfl
@[simp] theorem Engine.count_assay (f : Fld) (n : Nat) : (e.count f n).assay = e.assay := rfl
@[simp] theorem Engine.count_core (f : Fld) (n : Nat) : (e.count f n).core = e.core := rfl
@[simp] theorem Engine.count_ingot (f : Fld) (n : Nat) : (e.count f n).ingot = e.ingot := rfl
@[simp] theorem Engine.count_xlat (f : Fld) (n : Nat) : (e.count f n).xlat = e.xlat := rfl
@[simp] theorem Engine.count_dma (f : Fld) (n : Nat) : (e.count f n).dma = e.dma := rfl
@[simp] theorem Engine.count_sched (f : Fld) (n : Nat) : (e.count f n).sched = e.sched := rfl
@[simp] theorem Engine.count_resetReq (f : Fld) (n : Nat) : (e.count f n).resetReq = e.resetReq := rfl
@[simp] theorem Engine.count_audio (f : Fld) (n : Nat) : (e.count f n).audio = e.audio := rfl
@[simp] theorem Engine.count_route (f : Fld) (n : Nat) : (e.count f n).route = e.route := rfl
@[simp] theorem Engine.count_sumx (f : Fld) (n : Nat) : (e.count f n).sumx = e.sumx := rfl
@[simp] theorem Engine.count_eqa (f : Fld) (n : Nat) : (e.count f n).eqa = e.eqa := rfl
@[simp] theorem Engine.count_safe (f : Fld) (n : Nat) : (e.count f n).safe = e.safe := rfl
@[simp] theorem Engine.count_duo (f : Fld) (n : Nat) : (e.count f n).duo = e.duo := rfl
@[simp] theorem Engine.count_pwr (f : Fld) (n : Nat) : (e.count f n).pwr = e.pwr := rfl
@[simp] theorem Engine.count_sap (f : Fld) (n : Nat) : (e.count f n).sap = e.sap := rfl
@[simp] theorem Engine.count_madi (f : Fld) (n : Nat) : (e.count f n).madi = e.madi := rfl
@[simp] theorem Engine.count_net (f : Fld) (n : Nat) : (e.count f n).net = e.net := rfl
@[simp] theorem Engine.count_cue (f : Fld) (n : Nat) : (e.count f n).cue = e.cue := rfl
@[simp] theorem Engine.count_pcie (f : Fld) (n : Nat) : (e.count f n).pcie = e.pcie := rfl
@[simp] theorem Engine.count_twb (f : Fld) (n : Nat) : (e.count f n).twb = e.twb := rfl
@[simp] theorem Engine.count_sec (f : Fld) (n : Nat) : (e.count f n).sec = e.sec := rfl
@[simp] theorem Engine.count_dbg (f : Fld) (n : Nat) : (e.count f n).dbg = e.dbg := rfl
@[simp] theorem Engine.count_adapt (f : Fld) (n : Nat) : (e.count f n).adapt = e.adapt := rfl

/-! ### wrap -/

@[simp] theorem Engine.wrap_mem (f : Fld) : (e.wrap f).mem = e.mem := rfl
@[simp] theorem Engine.wrap_now (f : Fld) : (e.wrap f).now = e.now := rfl
@[simp] theorem Engine.wrap_free (f : Fld) : (e.wrap f).free = e.free := rfl
@[simp] theorem Engine.wrap_rdata (f : Fld) : (e.wrap f).rdata = e.rdata := rfl
@[simp] theorem Engine.wrap_cpPend (f : Fld) : (e.wrap f).cpPend = e.cpPend := rfl
@[simp] theorem Engine.wrap_cpDue (f : Fld) : (e.wrap f).cpDue = e.cpDue := rfl
@[simp] theorem Engine.wrap_evBuf (f : Fld) : (e.wrap f).evBuf = e.evBuf := rfl
@[simp] theorem Engine.wrap_caps (f : Fld) : (e.wrap f).caps = e.caps := rfl
@[simp] theorem Engine.wrap_tick (f : Fld) : (e.wrap f).tick = e.tick := rfl
@[simp] theorem Engine.wrap_clk (f : Fld) : (e.wrap f).clk = e.clk := rfl
@[simp] theorem Engine.wrap_ref (f : Fld) : (e.wrap f).ref = e.ref := rfl
@[simp] theorem Engine.wrap_time (f : Fld) : (e.wrap f).time = e.time := rfl
@[simp] theorem Engine.wrap_taq (f : Fld) : (e.wrap f).taq = e.taq := rfl
@[simp] theorem Engine.wrap_mbx (f : Fld) : (e.wrap f).mbx = e.mbx := rfl
@[simp] theorem Engine.wrap_assay (f : Fld) : (e.wrap f).assay = e.assay := rfl
@[simp] theorem Engine.wrap_core (f : Fld) : (e.wrap f).core = e.core := rfl
@[simp] theorem Engine.wrap_ingot (f : Fld) : (e.wrap f).ingot = e.ingot := rfl
@[simp] theorem Engine.wrap_xlat (f : Fld) : (e.wrap f).xlat = e.xlat := rfl
@[simp] theorem Engine.wrap_dma (f : Fld) : (e.wrap f).dma = e.dma := rfl
@[simp] theorem Engine.wrap_sched (f : Fld) : (e.wrap f).sched = e.sched := rfl
@[simp] theorem Engine.wrap_resetReq (f : Fld) : (e.wrap f).resetReq = e.resetReq := rfl
@[simp] theorem Engine.wrap_audio (f : Fld) : (e.wrap f).audio = e.audio := rfl
@[simp] theorem Engine.wrap_route (f : Fld) : (e.wrap f).route = e.route := rfl
@[simp] theorem Engine.wrap_sumx (f : Fld) : (e.wrap f).sumx = e.sumx := rfl
@[simp] theorem Engine.wrap_eqa (f : Fld) : (e.wrap f).eqa = e.eqa := rfl
@[simp] theorem Engine.wrap_safe (f : Fld) : (e.wrap f).safe = e.safe := rfl
@[simp] theorem Engine.wrap_duo (f : Fld) : (e.wrap f).duo = e.duo := rfl
@[simp] theorem Engine.wrap_pwr (f : Fld) : (e.wrap f).pwr = e.pwr := rfl
@[simp] theorem Engine.wrap_sap (f : Fld) : (e.wrap f).sap = e.sap := rfl
@[simp] theorem Engine.wrap_madi (f : Fld) : (e.wrap f).madi = e.madi := rfl
@[simp] theorem Engine.wrap_net (f : Fld) : (e.wrap f).net = e.net := rfl
@[simp] theorem Engine.wrap_cue (f : Fld) : (e.wrap f).cue = e.cue := rfl
@[simp] theorem Engine.wrap_pcie (f : Fld) : (e.wrap f).pcie = e.pcie := rfl
@[simp] theorem Engine.wrap_twb (f : Fld) : (e.wrap f).twb = e.twb := rfl
@[simp] theorem Engine.wrap_sec (f : Fld) : (e.wrap f).sec = e.sec := rfl
@[simp] theorem Engine.wrap_dbg (f : Fld) : (e.wrap f).dbg = e.dbg := rfl
@[simp] theorem Engine.wrap_adapt (f : Fld) : (e.wrap f).adapt = e.adapt := rfl

/-! ### stB -/

@[simp] theorem Engine.stB_regs (a : Nat) (v : Byte) : (e.stB a v).regs = e.regs := rfl
@[simp] theorem Engine.stB_now (a : Nat) (v : Byte) : (e.stB a v).now = e.now := rfl
@[simp] theorem Engine.stB_free (a : Nat) (v : Byte) : (e.stB a v).free = e.free := rfl
@[simp] theorem Engine.stB_rdata (a : Nat) (v : Byte) : (e.stB a v).rdata = e.rdata := rfl
@[simp] theorem Engine.stB_cpPend (a : Nat) (v : Byte) : (e.stB a v).cpPend = e.cpPend := rfl
@[simp] theorem Engine.stB_cpDue (a : Nat) (v : Byte) : (e.stB a v).cpDue = e.cpDue := rfl
@[simp] theorem Engine.stB_evBuf (a : Nat) (v : Byte) : (e.stB a v).evBuf = e.evBuf := rfl
@[simp] theorem Engine.stB_caps (a : Nat) (v : Byte) : (e.stB a v).caps = e.caps := rfl
@[simp] theorem Engine.stB_tick (a : Nat) (v : Byte) : (e.stB a v).tick = e.tick := rfl
@[simp] theorem Engine.stB_clk (a : Nat) (v : Byte) : (e.stB a v).clk = e.clk := rfl
@[simp] theorem Engine.stB_ref (a : Nat) (v : Byte) : (e.stB a v).ref = e.ref := rfl
@[simp] theorem Engine.stB_time (a : Nat) (v : Byte) : (e.stB a v).time = e.time := rfl
@[simp] theorem Engine.stB_taq (a : Nat) (v : Byte) : (e.stB a v).taq = e.taq := rfl
@[simp] theorem Engine.stB_mbx (a : Nat) (v : Byte) : (e.stB a v).mbx = e.mbx := rfl
@[simp] theorem Engine.stB_assay (a : Nat) (v : Byte) : (e.stB a v).assay = e.assay := rfl
@[simp] theorem Engine.stB_core (a : Nat) (v : Byte) : (e.stB a v).core = e.core := rfl
@[simp] theorem Engine.stB_ingot (a : Nat) (v : Byte) : (e.stB a v).ingot = e.ingot := rfl
@[simp] theorem Engine.stB_xlat (a : Nat) (v : Byte) : (e.stB a v).xlat = e.xlat := rfl
@[simp] theorem Engine.stB_dma (a : Nat) (v : Byte) : (e.stB a v).dma = e.dma := rfl
@[simp] theorem Engine.stB_sched (a : Nat) (v : Byte) : (e.stB a v).sched = e.sched := rfl
@[simp] theorem Engine.stB_resetReq (a : Nat) (v : Byte) : (e.stB a v).resetReq = e.resetReq := rfl
@[simp] theorem Engine.stB_audio (a : Nat) (v : Byte) : (e.stB a v).audio = e.audio := rfl
@[simp] theorem Engine.stB_route (a : Nat) (v : Byte) : (e.stB a v).route = e.route := rfl
@[simp] theorem Engine.stB_sumx (a : Nat) (v : Byte) : (e.stB a v).sumx = e.sumx := rfl
@[simp] theorem Engine.stB_eqa (a : Nat) (v : Byte) : (e.stB a v).eqa = e.eqa := rfl
@[simp] theorem Engine.stB_safe (a : Nat) (v : Byte) : (e.stB a v).safe = e.safe := rfl
@[simp] theorem Engine.stB_duo (a : Nat) (v : Byte) : (e.stB a v).duo = e.duo := rfl
@[simp] theorem Engine.stB_pwr (a : Nat) (v : Byte) : (e.stB a v).pwr = e.pwr := rfl
@[simp] theorem Engine.stB_sap (a : Nat) (v : Byte) : (e.stB a v).sap = e.sap := rfl
@[simp] theorem Engine.stB_madi (a : Nat) (v : Byte) : (e.stB a v).madi = e.madi := rfl
@[simp] theorem Engine.stB_net (a : Nat) (v : Byte) : (e.stB a v).net = e.net := rfl
@[simp] theorem Engine.stB_cue (a : Nat) (v : Byte) : (e.stB a v).cue = e.cue := rfl
@[simp] theorem Engine.stB_pcie (a : Nat) (v : Byte) : (e.stB a v).pcie = e.pcie := rfl
@[simp] theorem Engine.stB_twb (a : Nat) (v : Byte) : (e.stB a v).twb = e.twb := rfl
@[simp] theorem Engine.stB_sec (a : Nat) (v : Byte) : (e.stB a v).sec = e.sec := rfl
@[simp] theorem Engine.stB_dbg (a : Nat) (v : Byte) : (e.stB a v).dbg = e.dbg := rfl
@[simp] theorem Engine.stB_adapt (a : Nat) (v : Byte) : (e.stB a v).adapt = e.adapt := rfl

/-! ### stW -/

@[simp] theorem Engine.stW_regs (a : Nat) (v : Word) : (e.stW a v).regs = e.regs := rfl
@[simp] theorem Engine.stW_now (a : Nat) (v : Word) : (e.stW a v).now = e.now := rfl
@[simp] theorem Engine.stW_free (a : Nat) (v : Word) : (e.stW a v).free = e.free := rfl
@[simp] theorem Engine.stW_rdata (a : Nat) (v : Word) : (e.stW a v).rdata = e.rdata := rfl
@[simp] theorem Engine.stW_cpPend (a : Nat) (v : Word) : (e.stW a v).cpPend = e.cpPend := rfl
@[simp] theorem Engine.stW_cpDue (a : Nat) (v : Word) : (e.stW a v).cpDue = e.cpDue := rfl
@[simp] theorem Engine.stW_evBuf (a : Nat) (v : Word) : (e.stW a v).evBuf = e.evBuf := rfl
@[simp] theorem Engine.stW_caps (a : Nat) (v : Word) : (e.stW a v).caps = e.caps := rfl
@[simp] theorem Engine.stW_tick (a : Nat) (v : Word) : (e.stW a v).tick = e.tick := rfl
@[simp] theorem Engine.stW_clk (a : Nat) (v : Word) : (e.stW a v).clk = e.clk := rfl
@[simp] theorem Engine.stW_ref (a : Nat) (v : Word) : (e.stW a v).ref = e.ref := rfl
@[simp] theorem Engine.stW_time (a : Nat) (v : Word) : (e.stW a v).time = e.time := rfl
@[simp] theorem Engine.stW_taq (a : Nat) (v : Word) : (e.stW a v).taq = e.taq := rfl
@[simp] theorem Engine.stW_mbx (a : Nat) (v : Word) : (e.stW a v).mbx = e.mbx := rfl
@[simp] theorem Engine.stW_assay (a : Nat) (v : Word) : (e.stW a v).assay = e.assay := rfl
@[simp] theorem Engine.stW_core (a : Nat) (v : Word) : (e.stW a v).core = e.core := rfl
@[simp] theorem Engine.stW_ingot (a : Nat) (v : Word) : (e.stW a v).ingot = e.ingot := rfl
@[simp] theorem Engine.stW_xlat (a : Nat) (v : Word) : (e.stW a v).xlat = e.xlat := rfl
@[simp] theorem Engine.stW_dma (a : Nat) (v : Word) : (e.stW a v).dma = e.dma := rfl
@[simp] theorem Engine.stW_sched (a : Nat) (v : Word) : (e.stW a v).sched = e.sched := rfl
@[simp] theorem Engine.stW_resetReq (a : Nat) (v : Word) : (e.stW a v).resetReq = e.resetReq := rfl
@[simp] theorem Engine.stW_audio (a : Nat) (v : Word) : (e.stW a v).audio = e.audio := rfl
@[simp] theorem Engine.stW_route (a : Nat) (v : Word) : (e.stW a v).route = e.route := rfl
@[simp] theorem Engine.stW_sumx (a : Nat) (v : Word) : (e.stW a v).sumx = e.sumx := rfl
@[simp] theorem Engine.stW_eqa (a : Nat) (v : Word) : (e.stW a v).eqa = e.eqa := rfl
@[simp] theorem Engine.stW_safe (a : Nat) (v : Word) : (e.stW a v).safe = e.safe := rfl
@[simp] theorem Engine.stW_duo (a : Nat) (v : Word) : (e.stW a v).duo = e.duo := rfl
@[simp] theorem Engine.stW_pwr (a : Nat) (v : Word) : (e.stW a v).pwr = e.pwr := rfl
@[simp] theorem Engine.stW_sap (a : Nat) (v : Word) : (e.stW a v).sap = e.sap := rfl
@[simp] theorem Engine.stW_madi (a : Nat) (v : Word) : (e.stW a v).madi = e.madi := rfl
@[simp] theorem Engine.stW_net (a : Nat) (v : Word) : (e.stW a v).net = e.net := rfl
@[simp] theorem Engine.stW_cue (a : Nat) (v : Word) : (e.stW a v).cue = e.cue := rfl
@[simp] theorem Engine.stW_pcie (a : Nat) (v : Word) : (e.stW a v).pcie = e.pcie := rfl
@[simp] theorem Engine.stW_twb (a : Nat) (v : Word) : (e.stW a v).twb = e.twb := rfl
@[simp] theorem Engine.stW_sec (a : Nat) (v : Word) : (e.stW a v).sec = e.sec := rfl
@[simp] theorem Engine.stW_dbg (a : Nat) (v : Word) : (e.stW a v).dbg = e.dbg := rfl
@[simp] theorem Engine.stW_adapt (a : Nat) (v : Word) : (e.stW a v).adapt = e.adapt := rfl

/-! ### clearBytes -/

@[simp] theorem Engine.clearBytes_regs (a n : Nat) : (e.clearBytes a n).regs = e.regs := rfl
@[simp] theorem Engine.clearBytes_now (a n : Nat) : (e.clearBytes a n).now = e.now := rfl
@[simp] theorem Engine.clearBytes_free (a n : Nat) : (e.clearBytes a n).free = e.free := rfl
@[simp] theorem Engine.clearBytes_rdata (a n : Nat) : (e.clearBytes a n).rdata = e.rdata := rfl
@[simp] theorem Engine.clearBytes_cpPend (a n : Nat) : (e.clearBytes a n).cpPend = e.cpPend := rfl
@[simp] theorem Engine.clearBytes_cpDue (a n : Nat) : (e.clearBytes a n).cpDue = e.cpDue := rfl
@[simp] theorem Engine.clearBytes_evBuf (a n : Nat) : (e.clearBytes a n).evBuf = e.evBuf := rfl
@[simp] theorem Engine.clearBytes_caps (a n : Nat) : (e.clearBytes a n).caps = e.caps := rfl
@[simp] theorem Engine.clearBytes_tick (a n : Nat) : (e.clearBytes a n).tick = e.tick := rfl
@[simp] theorem Engine.clearBytes_clk (a n : Nat) : (e.clearBytes a n).clk = e.clk := rfl
@[simp] theorem Engine.clearBytes_ref (a n : Nat) : (e.clearBytes a n).ref = e.ref := rfl
@[simp] theorem Engine.clearBytes_time (a n : Nat) : (e.clearBytes a n).time = e.time := rfl
@[simp] theorem Engine.clearBytes_taq (a n : Nat) : (e.clearBytes a n).taq = e.taq := rfl
@[simp] theorem Engine.clearBytes_mbx (a n : Nat) : (e.clearBytes a n).mbx = e.mbx := rfl
@[simp] theorem Engine.clearBytes_assay (a n : Nat) : (e.clearBytes a n).assay = e.assay := rfl
@[simp] theorem Engine.clearBytes_core (a n : Nat) : (e.clearBytes a n).core = e.core := rfl
@[simp] theorem Engine.clearBytes_ingot (a n : Nat) : (e.clearBytes a n).ingot = e.ingot := rfl
@[simp] theorem Engine.clearBytes_xlat (a n : Nat) : (e.clearBytes a n).xlat = e.xlat := rfl
@[simp] theorem Engine.clearBytes_dma (a n : Nat) : (e.clearBytes a n).dma = e.dma := rfl
@[simp] theorem Engine.clearBytes_sched (a n : Nat) : (e.clearBytes a n).sched = e.sched := rfl
@[simp] theorem Engine.clearBytes_resetReq (a n : Nat) : (e.clearBytes a n).resetReq = e.resetReq := rfl
@[simp] theorem Engine.clearBytes_audio (a n : Nat) : (e.clearBytes a n).audio = e.audio := rfl
@[simp] theorem Engine.clearBytes_route (a n : Nat) : (e.clearBytes a n).route = e.route := rfl
@[simp] theorem Engine.clearBytes_sumx (a n : Nat) : (e.clearBytes a n).sumx = e.sumx := rfl
@[simp] theorem Engine.clearBytes_eqa (a n : Nat) : (e.clearBytes a n).eqa = e.eqa := rfl
@[simp] theorem Engine.clearBytes_safe (a n : Nat) : (e.clearBytes a n).safe = e.safe := rfl
@[simp] theorem Engine.clearBytes_duo (a n : Nat) : (e.clearBytes a n).duo = e.duo := rfl
@[simp] theorem Engine.clearBytes_pwr (a n : Nat) : (e.clearBytes a n).pwr = e.pwr := rfl
@[simp] theorem Engine.clearBytes_sap (a n : Nat) : (e.clearBytes a n).sap = e.sap := rfl
@[simp] theorem Engine.clearBytes_madi (a n : Nat) : (e.clearBytes a n).madi = e.madi := rfl
@[simp] theorem Engine.clearBytes_net (a n : Nat) : (e.clearBytes a n).net = e.net := rfl
@[simp] theorem Engine.clearBytes_cue (a n : Nat) : (e.clearBytes a n).cue = e.cue := rfl
@[simp] theorem Engine.clearBytes_pcie (a n : Nat) : (e.clearBytes a n).pcie = e.pcie := rfl
@[simp] theorem Engine.clearBytes_twb (a n : Nat) : (e.clearBytes a n).twb = e.twb := rfl
@[simp] theorem Engine.clearBytes_sec (a n : Nat) : (e.clearBytes a n).sec = e.sec := rfl
@[simp] theorem Engine.clearBytes_dbg (a n : Nat) : (e.clearBytes a n).dbg = e.dbg := rfl
@[simp] theorem Engine.clearBytes_adapt (a n : Nat) : (e.clearBytes a n).adapt = e.adapt := rfl

/-! ### raise -/

@[simp] theorem Engine.raise_mem (v : Evt) : (e.raise v).mem = e.mem := rfl
@[simp] theorem Engine.raise_now (v : Evt) : (e.raise v).now = e.now := rfl
@[simp] theorem Engine.raise_free (v : Evt) : (e.raise v).free = e.free := rfl
@[simp] theorem Engine.raise_rdata (v : Evt) : (e.raise v).rdata = e.rdata := rfl
@[simp] theorem Engine.raise_cpPend (v : Evt) : (e.raise v).cpPend = e.cpPend := rfl
@[simp] theorem Engine.raise_cpDue (v : Evt) : (e.raise v).cpDue = e.cpDue := rfl
@[simp] theorem Engine.raise_caps (v : Evt) : (e.raise v).caps = e.caps := rfl
@[simp] theorem Engine.raise_tick (v : Evt) : (e.raise v).tick = e.tick := rfl
@[simp] theorem Engine.raise_clk (v : Evt) : (e.raise v).clk = e.clk := rfl
@[simp] theorem Engine.raise_ref (v : Evt) : (e.raise v).ref = e.ref := rfl
@[simp] theorem Engine.raise_time (v : Evt) : (e.raise v).time = e.time := rfl
@[simp] theorem Engine.raise_taq (v : Evt) : (e.raise v).taq = e.taq := rfl
@[simp] theorem Engine.raise_mbx (v : Evt) : (e.raise v).mbx = e.mbx := rfl
@[simp] theorem Engine.raise_assay (v : Evt) : (e.raise v).assay = e.assay := rfl
@[simp] theorem Engine.raise_core (v : Evt) : (e.raise v).core = e.core := rfl
@[simp] theorem Engine.raise_ingot (v : Evt) : (e.raise v).ingot = e.ingot := rfl
@[simp] theorem Engine.raise_xlat (v : Evt) : (e.raise v).xlat = e.xlat := rfl
@[simp] theorem Engine.raise_dma (v : Evt) : (e.raise v).dma = e.dma := rfl
@[simp] theorem Engine.raise_sched (v : Evt) : (e.raise v).sched = e.sched := rfl
@[simp] theorem Engine.raise_resetReq (v : Evt) : (e.raise v).resetReq = e.resetReq := rfl
@[simp] theorem Engine.raise_audio (v : Evt) : (e.raise v).audio = e.audio := rfl
@[simp] theorem Engine.raise_route (v : Evt) : (e.raise v).route = e.route := rfl
@[simp] theorem Engine.raise_sumx (v : Evt) : (e.raise v).sumx = e.sumx := rfl
@[simp] theorem Engine.raise_eqa (v : Evt) : (e.raise v).eqa = e.eqa := rfl
@[simp] theorem Engine.raise_safe (v : Evt) : (e.raise v).safe = e.safe := rfl
@[simp] theorem Engine.raise_duo (v : Evt) : (e.raise v).duo = e.duo := rfl
@[simp] theorem Engine.raise_pwr (v : Evt) : (e.raise v).pwr = e.pwr := rfl
@[simp] theorem Engine.raise_sap (v : Evt) : (e.raise v).sap = e.sap := rfl
@[simp] theorem Engine.raise_madi (v : Evt) : (e.raise v).madi = e.madi := rfl
@[simp] theorem Engine.raise_net (v : Evt) : (e.raise v).net = e.net := rfl
@[simp] theorem Engine.raise_cue (v : Evt) : (e.raise v).cue = e.cue := rfl
@[simp] theorem Engine.raise_pcie (v : Evt) : (e.raise v).pcie = e.pcie := rfl
@[simp] theorem Engine.raise_twb (v : Evt) : (e.raise v).twb = e.twb := rfl
@[simp] theorem Engine.raise_sec (v : Evt) : (e.raise v).sec = e.sec := rfl
@[simp] theorem Engine.raise_dbg (v : Evt) : (e.raise v).dbg = e.dbg := rfl
@[simp] theorem Engine.raise_adapt (v : Evt) : (e.raise v).adapt = e.adapt := rfl

/-! ### raiseT -/

@[simp] theorem Engine.raiseT_mem (t : Nat) (v : Evt) : (e.raiseT t v).mem = e.mem := rfl
@[simp] theorem Engine.raiseT_now (t : Nat) (v : Evt) : (e.raiseT t v).now = e.now := rfl
@[simp] theorem Engine.raiseT_free (t : Nat) (v : Evt) : (e.raiseT t v).free = e.free := rfl
@[simp] theorem Engine.raiseT_rdata (t : Nat) (v : Evt) : (e.raiseT t v).rdata = e.rdata := rfl
@[simp] theorem Engine.raiseT_cpPend (t : Nat) (v : Evt) : (e.raiseT t v).cpPend = e.cpPend := rfl
@[simp] theorem Engine.raiseT_cpDue (t : Nat) (v : Evt) : (e.raiseT t v).cpDue = e.cpDue := rfl
@[simp] theorem Engine.raiseT_caps (t : Nat) (v : Evt) : (e.raiseT t v).caps = e.caps := rfl
@[simp] theorem Engine.raiseT_tick (t : Nat) (v : Evt) : (e.raiseT t v).tick = e.tick := rfl
@[simp] theorem Engine.raiseT_clk (t : Nat) (v : Evt) : (e.raiseT t v).clk = e.clk := rfl
@[simp] theorem Engine.raiseT_ref (t : Nat) (v : Evt) : (e.raiseT t v).ref = e.ref := rfl
@[simp] theorem Engine.raiseT_time (t : Nat) (v : Evt) : (e.raiseT t v).time = e.time := rfl
@[simp] theorem Engine.raiseT_taq (t : Nat) (v : Evt) : (e.raiseT t v).taq = e.taq := rfl
@[simp] theorem Engine.raiseT_mbx (t : Nat) (v : Evt) : (e.raiseT t v).mbx = e.mbx := rfl
@[simp] theorem Engine.raiseT_assay (t : Nat) (v : Evt) : (e.raiseT t v).assay = e.assay := rfl
@[simp] theorem Engine.raiseT_core (t : Nat) (v : Evt) : (e.raiseT t v).core = e.core := rfl
@[simp] theorem Engine.raiseT_ingot (t : Nat) (v : Evt) : (e.raiseT t v).ingot = e.ingot := rfl
@[simp] theorem Engine.raiseT_xlat (t : Nat) (v : Evt) : (e.raiseT t v).xlat = e.xlat := rfl
@[simp] theorem Engine.raiseT_dma (t : Nat) (v : Evt) : (e.raiseT t v).dma = e.dma := rfl
@[simp] theorem Engine.raiseT_sched (t : Nat) (v : Evt) : (e.raiseT t v).sched = e.sched := rfl
@[simp] theorem Engine.raiseT_resetReq (t : Nat) (v : Evt) : (e.raiseT t v).resetReq = e.resetReq := rfl
@[simp] theorem Engine.raiseT_audio (t : Nat) (v : Evt) : (e.raiseT t v).audio = e.audio := rfl
@[simp] theorem Engine.raiseT_route (t : Nat) (v : Evt) : (e.raiseT t v).route = e.route := rfl
@[simp] theorem Engine.raiseT_sumx (t : Nat) (v : Evt) : (e.raiseT t v).sumx = e.sumx := rfl
@[simp] theorem Engine.raiseT_eqa (t : Nat) (v : Evt) : (e.raiseT t v).eqa = e.eqa := rfl
@[simp] theorem Engine.raiseT_safe (t : Nat) (v : Evt) : (e.raiseT t v).safe = e.safe := rfl
@[simp] theorem Engine.raiseT_duo (t : Nat) (v : Evt) : (e.raiseT t v).duo = e.duo := rfl
@[simp] theorem Engine.raiseT_pwr (t : Nat) (v : Evt) : (e.raiseT t v).pwr = e.pwr := rfl
@[simp] theorem Engine.raiseT_sap (t : Nat) (v : Evt) : (e.raiseT t v).sap = e.sap := rfl
@[simp] theorem Engine.raiseT_madi (t : Nat) (v : Evt) : (e.raiseT t v).madi = e.madi := rfl
@[simp] theorem Engine.raiseT_net (t : Nat) (v : Evt) : (e.raiseT t v).net = e.net := rfl
@[simp] theorem Engine.raiseT_cue (t : Nat) (v : Evt) : (e.raiseT t v).cue = e.cue := rfl
@[simp] theorem Engine.raiseT_pcie (t : Nat) (v : Evt) : (e.raiseT t v).pcie = e.pcie := rfl
@[simp] theorem Engine.raiseT_twb (t : Nat) (v : Evt) : (e.raiseT t v).twb = e.twb := rfl
@[simp] theorem Engine.raiseT_sec (t : Nat) (v : Evt) : (e.raiseT t v).sec = e.sec := rfl
@[simp] theorem Engine.raiseT_dbg (t : Nat) (v : Evt) : (e.raiseT t v).dbg = e.dbg := rfl
@[simp] theorem Engine.raiseT_adapt (t : Nat) (v : Evt) : (e.raiseT t v).adapt = e.adapt := rfl

/-! ### capture -/

@[simp] theorem Engine.capture_regs (a hm : Nat) (ws : List Nat) : (e.capture a hm ws).regs = e.regs := rfl
@[simp] theorem Engine.capture_mem (a hm : Nat) (ws : List Nat) : (e.capture a hm ws).mem = e.mem := rfl
@[simp] theorem Engine.capture_now (a hm : Nat) (ws : List Nat) : (e.capture a hm ws).now = e.now := rfl
@[simp] theorem Engine.capture_free (a hm : Nat) (ws : List Nat) : (e.capture a hm ws).free = e.free := rfl
@[simp] theorem Engine.capture_rdata (a hm : Nat) (ws : List Nat) : (e.capture a hm ws).rdata = e.rdata := rfl
@[simp] theorem Engine.capture_cpPend (a hm : Nat) (ws : List Nat) : (e.capture a hm ws).cpPend = e.cpPend := rfl
@[simp] theorem Engine.capture_cpDue (a hm : Nat) (ws : List Nat) : (e.capture a hm ws).cpDue = e.cpDue := rfl
@[simp] theorem Engine.capture_evBuf (a hm : Nat) (ws : List Nat) : (e.capture a hm ws).evBuf = e.evBuf := rfl
@[simp] theorem Engine.capture_tick (a hm : Nat) (ws : List Nat) : (e.capture a hm ws).tick = e.tick := rfl
@[simp] theorem Engine.capture_clk (a hm : Nat) (ws : List Nat) : (e.capture a hm ws).clk = e.clk := rfl
@[simp] theorem Engine.capture_ref (a hm : Nat) (ws : List Nat) : (e.capture a hm ws).ref = e.ref := rfl
@[simp] theorem Engine.capture_time (a hm : Nat) (ws : List Nat) : (e.capture a hm ws).time = e.time := rfl
@[simp] theorem Engine.capture_taq (a hm : Nat) (ws : List Nat) : (e.capture a hm ws).taq = e.taq := rfl
@[simp] theorem Engine.capture_mbx (a hm : Nat) (ws : List Nat) : (e.capture a hm ws).mbx = e.mbx := rfl
@[simp] theorem Engine.capture_assay (a hm : Nat) (ws : List Nat) : (e.capture a hm ws).assay = e.assay := rfl
@[simp] theorem Engine.capture_core (a hm : Nat) (ws : List Nat) : (e.capture a hm ws).core = e.core := rfl
@[simp] theorem Engine.capture_ingot (a hm : Nat) (ws : List Nat) : (e.capture a hm ws).ingot = e.ingot := rfl
@[simp] theorem Engine.capture_xlat (a hm : Nat) (ws : List Nat) : (e.capture a hm ws).xlat = e.xlat := rfl
@[simp] theorem Engine.capture_dma (a hm : Nat) (ws : List Nat) : (e.capture a hm ws).dma = e.dma := rfl
@[simp] theorem Engine.capture_sched (a hm : Nat) (ws : List Nat) : (e.capture a hm ws).sched = e.sched := rfl
@[simp] theorem Engine.capture_resetReq (a hm : Nat) (ws : List Nat) : (e.capture a hm ws).resetReq = e.resetReq := rfl
@[simp] theorem Engine.capture_audio (a hm : Nat) (ws : List Nat) : (e.capture a hm ws).audio = e.audio := rfl
@[simp] theorem Engine.capture_route (a hm : Nat) (ws : List Nat) : (e.capture a hm ws).route = e.route := rfl
@[simp] theorem Engine.capture_sumx (a hm : Nat) (ws : List Nat) : (e.capture a hm ws).sumx = e.sumx := rfl
@[simp] theorem Engine.capture_eqa (a hm : Nat) (ws : List Nat) : (e.capture a hm ws).eqa = e.eqa := rfl
@[simp] theorem Engine.capture_safe (a hm : Nat) (ws : List Nat) : (e.capture a hm ws).safe = e.safe := rfl
@[simp] theorem Engine.capture_duo (a hm : Nat) (ws : List Nat) : (e.capture a hm ws).duo = e.duo := rfl
@[simp] theorem Engine.capture_pwr (a hm : Nat) (ws : List Nat) : (e.capture a hm ws).pwr = e.pwr := rfl
@[simp] theorem Engine.capture_sap (a hm : Nat) (ws : List Nat) : (e.capture a hm ws).sap = e.sap := rfl
@[simp] theorem Engine.capture_madi (a hm : Nat) (ws : List Nat) : (e.capture a hm ws).madi = e.madi := rfl
@[simp] theorem Engine.capture_net (a hm : Nat) (ws : List Nat) : (e.capture a hm ws).net = e.net := rfl
@[simp] theorem Engine.capture_cue (a hm : Nat) (ws : List Nat) : (e.capture a hm ws).cue = e.cue := rfl
@[simp] theorem Engine.capture_pcie (a hm : Nat) (ws : List Nat) : (e.capture a hm ws).pcie = e.pcie := rfl
@[simp] theorem Engine.capture_twb (a hm : Nat) (ws : List Nat) : (e.capture a hm ws).twb = e.twb := rfl
@[simp] theorem Engine.capture_sec (a hm : Nat) (ws : List Nat) : (e.capture a hm ws).sec = e.sec := rfl
@[simp] theorem Engine.capture_dbg (a hm : Nat) (ws : List Nat) : (e.capture a hm ws).dbg = e.dbg := rfl
@[simp] theorem Engine.capture_adapt (a hm : Nat) (ws : List Nat) : (e.capture a hm ws).adapt = e.adapt := rfl

end Fields

end Sys2Proof.Machine
end

