-- ==== Sys2Proof/Laws/Table.lean ====
section
/-!
SUPPORT. The laws of sparse tables: what reading gives after a write or a removal,
and that every update keeps the canonical form. They hold of every list, whether
or not it is in that form.
-/
namespace Sys2Proof.Machine

variable {α : Type}

@[simp] theorem Tbl.getF_nil (d : Nat → α) (i : Nat) : Tbl.getF d [] i = d i := rfl

@[simp] theorem Tbl.get_nil (d : α) (i : Nat) : Tbl.get d [] i = d := rfl

theorem Tbl.getF_drop_same (d : Nat → α) (t : Tbl α) (i : Nat) :
    Tbl.getF d (Tbl.drop i t) i = d i := by
  induction t with
  | nil => rfl
  | cons c t ih =>
    obtain ⟨k, w⟩ := c
    by_cases h : i = k
    · simp only [Tbl.drop, if_pos h, ih]
    · simp only [Tbl.drop, if_neg h, Tbl.getF, ih]

theorem Tbl.getF_drop_other (d : Nat → α) (t : Tbl α) {i j : Nat} (h : j ≠ i) :
    Tbl.getF d (Tbl.drop i t) j = Tbl.getF d t j := by
  induction t with
  | nil => rfl
  | cons c t ih =>
    obtain ⟨k, w⟩ := c
    by_cases hk : i = k
    · have hj : j ≠ k := fun e => h (e.trans hk.symm)
      simp only [Tbl.drop, if_pos hk, ih, Tbl.getF, if_neg hj]
    · simp only [Tbl.drop, if_neg hk, Tbl.getF, ih]

theorem Tbl.getF_insert_other (d : Nat → α) (t : Tbl α) (v : α) {i j : Nat} (h : j ≠ i) :
    Tbl.getF d (Tbl.insert i v t) j = Tbl.getF d t j := by
  induction t with
  | nil => simp only [Tbl.insert, Tbl.getF, if_neg h]
  | cons c t ih =>
    obtain ⟨k, w⟩ := c
    by_cases hk : i < k
    · simp only [Tbl.insert, if_pos hk, Tbl.getF, if_neg h]
    · simp only [Tbl.insert, if_neg hk, Tbl.getF, ih]

theorem Tbl.getF_insert_drop (d : Nat → α) (t : Tbl α) (i : Nat) (v : α) :
    Tbl.getF d (Tbl.insert i v (Tbl.drop i t)) i = v := by
  induction t with
  | nil => simp [Tbl.drop, Tbl.insert, Tbl.getF]
  | cons c t ih =>
    obtain ⟨k, w⟩ := c
    by_cases hk : i = k
    · simpa only [Tbl.drop, if_pos hk] using ih
    · by_cases hlt : i < k
      · simp only [Tbl.drop, if_neg hk, Tbl.insert, if_pos hlt, Tbl.getF, if_true]
      · simp only [Tbl.drop, if_neg hk, Tbl.insert, if_neg hlt, Tbl.getF, ih]

/-- A read after a write to the same index gives the value written. -/
@[simp] theorem Tbl.getF_setF_same [DecidableEq α] (d : Nat → α) (t : Tbl α) (i : Nat) (v : α) :
    Tbl.getF d (Tbl.setF d t i v) i = v := by
  unfold Tbl.setF
  split
  · next h => rw [Tbl.getF_drop_same, h]
  · exact Tbl.getF_insert_drop d t i v

/-- A write leaves every other index alone. -/
theorem Tbl.getF_setF_other [DecidableEq α] (d : Nat → α) (t : Tbl α) {i j : Nat} (v : α) (h : j ≠ i) :
    Tbl.getF d (Tbl.setF d t i v) j = Tbl.getF d t j := by
  unfold Tbl.setF
  split
  · exact Tbl.getF_drop_other d t h
  · rw [Tbl.getF_insert_other d _ v h, Tbl.getF_drop_other d t h]

theorem Tbl.getF_setF [DecidableEq α] (d : Nat → α) (t : Tbl α) (i j : Nat) (v : α) :
    Tbl.getF d (Tbl.setF d t i v) j = if j = i then v else Tbl.getF d t j := by
  split
  · next h => rw [h, Tbl.getF_setF_same]
  · next h => exact Tbl.getF_setF_other d t v h

@[simp] theorem Tbl.get_set_same [DecidableEq α] (d : α) (t : Tbl α) (i : Nat) (v : α) :
    Tbl.get d (Tbl.set d t i v) i = v := Tbl.getF_setF_same _ t i v

theorem Tbl.get_set_other [DecidableEq α] (d : α) (t : Tbl α) {i j : Nat} (v : α) (h : j ≠ i) :
    Tbl.get d (Tbl.set d t i v) j = Tbl.get d t j := Tbl.getF_setF_other _ t v h

theorem Tbl.get_set [DecidableEq α] (d : α) (t : Tbl α) (i j : Nat) (v : α) :
    Tbl.get d (Tbl.set d t i v) j = if j = i then v else Tbl.get d t j := Tbl.getF_setF _ t i j v

/-! ### The canonical form -/

theorem Tbl.wfFrom_mono [DecidableEq α] (d : Nat → α) {lo lo' : Nat} (h : lo' ≤ lo) (t : Tbl α)
    (w : Tbl.wfFrom d lo t = true) : Tbl.wfFrom d lo' t = true := by
  cases t with
  | nil => rfl
  | cons c t =>
    obtain ⟨k, v⟩ := c
    simp only [Tbl.wfFrom, Bool.and_eq_true, decide_eq_true_eq] at w ⊢
    exact ⟨⟨Nat.le_trans h w.1.1, w.1.2⟩, w.2⟩

theorem Tbl.wfFrom_drop [DecidableEq α] (d : Nat → α) (i : Nat) (t : Tbl α) :
    ∀ lo, Tbl.wfFrom d lo t = true → Tbl.wfFrom d lo (Tbl.drop i t) = true := by
  induction t with
  | nil => intro lo _; rfl
  | cons c t ih =>
    obtain ⟨k, v⟩ := c
    intro lo w
    simp only [Tbl.wfFrom, Bool.and_eq_true, decide_eq_true_eq] at w
    by_cases hk : i = k
    · simp only [Tbl.drop, if_pos hk]
      exact Tbl.wfFrom_mono d (by omega) _ (ih _ w.2)
    · simp only [Tbl.drop, if_neg hk, Tbl.wfFrom, Bool.and_eq_true, decide_eq_true_eq]
      exact ⟨w.1, ih _ w.2⟩

theorem Tbl.wfFrom_insert_drop [DecidableEq α] (d : Nat → α) (i : Nat) (v : α) (hv : v ≠ d i) (t : Tbl α) :
    ∀ lo, lo ≤ i → Tbl.wfFrom d lo t = true → Tbl.wfFrom d lo (Tbl.insert i v (Tbl.drop i t)) = true := by
  induction t with
  | nil => intro lo hl _; simp [Tbl.drop, Tbl.insert, Tbl.wfFrom, hl, hv]
  | cons c t ih =>
    obtain ⟨k, x⟩ := c
    intro lo hl w
    simp only [Tbl.wfFrom, Bool.and_eq_true, decide_eq_true_eq] at w
    by_cases hk : i = k
    · simp only [Tbl.drop, if_pos hk]
      exact ih lo hl (Tbl.wfFrom_mono d (by omega) _ w.2)
    · by_cases hlt : i < k
      · simp only [Tbl.drop, if_neg hk, Tbl.insert, if_pos hlt, Tbl.wfFrom, Bool.and_eq_true, decide_eq_true_eq]
        exact ⟨⟨hl, hv⟩, ⟨⟨by omega, w.1.2⟩, Tbl.wfFrom_drop d i t _ w.2⟩⟩
      · simp only [Tbl.drop, if_neg hk, Tbl.insert, if_neg hlt, Tbl.wfFrom, Bool.and_eq_true, decide_eq_true_eq]
        exact ⟨w.1, ih (k + 1) (by omega) w.2⟩

/-- A write keeps the canonical form. -/
theorem Tbl.wf_setF [DecidableEq α] (d : Nat → α) (t : Tbl α) (i : Nat) (v : α) (w : Tbl.wf d t = true) :
    Tbl.wf d (Tbl.setF d t i v) = true := by
  unfold Tbl.setF
  split
  · exact Tbl.wfFrom_drop d i t 0 w
  · next h => exact Tbl.wfFrom_insert_drop d i v h t 0 (Nat.zero_le i) w

theorem Tbl.wfFrom_filter [DecidableEq α] (d : Nat → α) (p : Nat × α → Bool) (t : Tbl α) :
    ∀ lo, Tbl.wfFrom d lo t = true → Tbl.wfFrom d lo (t.filter p) = true := by
  induction t with
  | nil => intro lo _; rfl
  | cons c t ih =>
    obtain ⟨k, v⟩ := c
    intro lo w
    simp only [Tbl.wfFrom, Bool.and_eq_true, decide_eq_true_eq] at w
    by_cases h : p (k, v) = true
    · simp only [List.filter_cons_of_pos h, Tbl.wfFrom, Bool.and_eq_true, decide_eq_true_eq]
      exact ⟨w.1, ih _ w.2⟩
    · simp only [List.filter_cons_of_neg h]
      exact Tbl.wfFrom_mono d (by omega) _ (ih _ w.2)

/-- Leaving entries out keeps the canonical form. -/
theorem Tbl.wf_filter [DecidableEq α] (d : Nat → α) (p : Nat × α → Bool) (t : Tbl α) (w : Tbl.wf d t = true) :
    Tbl.wf d (t.filter p) = true := Tbl.wfFrom_filter d p t 0 w

theorem Tbl.drop_drop (t : Tbl α) (i : Nat) : Tbl.drop i (Tbl.drop i t) = Tbl.drop i t := by
  induction t with
  | nil => rfl
  | cons c t ih =>
    obtain ⟨k, w⟩ := c
    by_cases h : i = k
    · simp only [Tbl.drop, if_pos h, ih]
    · simp only [Tbl.drop, if_neg h, ih]

theorem Tbl.drop_insert_drop (t : Tbl α) (i : Nat) (v : α) :
    Tbl.drop i (Tbl.insert i v (Tbl.drop i t)) = Tbl.drop i t := by
  induction t with
  | nil => simp [Tbl.drop, Tbl.insert]
  | cons c t ih =>
    obtain ⟨k, w⟩ := c
    by_cases h : i = k
    · simpa only [Tbl.drop, if_pos h] using ih
    · by_cases hlt : i < k
      · simp only [Tbl.drop, if_neg h, Tbl.insert, if_pos hlt, if_true, Tbl.drop_drop]
      · simp only [Tbl.drop, if_neg h, Tbl.insert, if_neg hlt, ih]

/-- The last of two writes to one index stands alone. -/
@[simp] theorem Tbl.setF_setF [DecidableEq α] (d : Nat → α) (t : Tbl α) (i : Nat) (v w : α) :
    Tbl.setF d (Tbl.setF d t i v) i w = Tbl.setF d t i w := by
  have h : Tbl.drop i (Tbl.setF d t i v) = Tbl.drop i t := by
    unfold Tbl.setF
    split
    · exact Tbl.drop_drop t i
    · exact Tbl.drop_insert_drop t i v
  show (if w = d i then _ else _) = (if w = d i then _ else _)
  rw [h]

@[simp] theorem Tbl.set_set [DecidableEq α] (d : α) (t : Tbl α) (i : Nat) (v w : α) :
    Tbl.set d (Tbl.set d t i v) i w = Tbl.set d t i w := Tbl.setF_setF _ _ _ _ _

end Sys2Proof.Machine
end

