-- ==== Sys2Proof/Laws/Ops.lean ====
section
/-!
SUPPORT. What each shared operation can do, said once: registers and fields read
back, bytes and words of memory read back, memory and the register table keep
their canonical form, and the effect of raising an event, of answering a read and
of running a command's effect.
-/
namespace Sys2Proof.Machine

/-! ### Registers -/

@[simp] theorem Engine.rd_wr_same (e : Engine) (a : Nat) (v : Word) : (e.wr a v).rd a = v :=
  Tbl.getF_setF_same resetWord e.regs a v

theorem Engine.rd_wr_other (e : Engine) {a b : Nat} (v : Word) (h : b ≠ a) : (e.wr a v).rd b = e.rd b :=
  Tbl.getF_setF_other resetWord e.regs v h

theorem Engine.rd_wr (e : Engine) (a b : Nat) (v : Word) : (e.wr a v).rd b = if b = a then v else e.rd b :=
  Tbl.getF_setF resetWord e.regs a b v

/-- A read depends on the register table alone. -/
theorem Engine.rd_congr {e f : Engine} (h : e.regs = f.regs) (a : Nat) : e.rd a = f.rd a := by
  unfold Engine.rd; rw [h]

/-! ### Fields -/

theorem bitsOf_testBit (w : Word) (lo width i : Nat) :
    (bitsOf w lo width).testBit i = (decide (i < width) && w.toNat.testBit (lo + i)) := by
  unfold bitsOf
  rw [Nat.testBit_mod_two_pow, Nat.testBit_div_two_pow, Nat.add_comm]

theorem bitsOf_lt (w : Word) (lo width : Nat) : bitsOf w lo width < 2 ^ width :=
  Nat.mod_lt _ (Nat.two_pow_pos _)

/-- The bits of a word one field of which has been replaced. -/
theorem setBits_testBit (w : Word) (lo width v i : Nat) (h : lo + width ≤ 32) :
    (setBits w lo width v).toNat.testBit i =
      if lo ≤ i ∧ i < lo + width then v.testBit (i - lo) else w.toNat.testBit i := by
  obtain ⟨x, t, hx, ht⟩ : ∃ x t, w.toNat = 2 ^ lo * x + t ∧ t < 2 ^ lo :=
    ⟨w.toNat / 2 ^ lo, w.toNat % 2 ^ lo, (Nat.div_add_mod _ _).symm, Nat.mod_lt _ (Nat.two_pow_pos _)⟩
  have hxd : w.toNat / 2 ^ lo = x := by
    rw [hx, Nat.mul_add_div (Nat.two_pow_pos _), Nat.div_eq_of_lt ht, Nat.add_zero]
  obtain ⟨q, r, hq, hr⟩ : ∃ q r, x = 2 ^ width * q + r ∧ r < 2 ^ width :=
    ⟨x / 2 ^ width, x % 2 ^ width, (Nat.div_add_mod _ _).symm, Nat.mod_lt _ (Nat.two_pow_pos _)⟩
  have hxm : x % 2 ^ width = r := by rw [hq, Nat.mul_add_mod, Nat.mod_eq_of_lt hr]
  have hv : v % 2 ^ width < 2 ^ width := Nat.mod_lt _ (Nat.two_pow_pos _)
  have hsum : w.toNat - bitsOf w lo width * 2 ^ lo + v % 2 ^ width * 2 ^ lo
      = 2 ^ lo * (2 ^ width * q + v % 2 ^ width) + t := by
    unfold bitsOf
    rw [hxd, hxm, hx, hq, Nat.mul_add, Nat.mul_add, Nat.mul_comm r, Nat.mul_comm (v % 2 ^ width)]
    omega
  have hlt : 2 ^ lo * (2 ^ width * q + v % 2 ^ width) + t < 2 ^ 32 := by
    have hw : w.toNat < 2 ^ 32 := w.isLt
    have hp : (2 : Nat) ^ 32 = 2 ^ lo * (2 ^ width * 2 ^ (32 - (lo + width))) := by
      rw [← Nat.pow_add, ← Nat.pow_add]; congr 1; omega
    have hql : q < 2 ^ (32 - (lo + width)) := by
      rcases Nat.lt_or_ge q (2 ^ (32 - (lo + width))) with h' | h'
      · exact h'
      · exfalso
        have h1 := Nat.mul_le_mul_left (2 ^ lo) (Nat.mul_le_mul_left (2 ^ width) h')
        have h2 : 2 ^ lo * (2 ^ width * q) ≤ 2 ^ lo * (2 ^ width * q + r) :=
          Nat.mul_le_mul_left _ (Nat.le_add_right _ _)
        rw [← hp] at h1
        rw [hx, hq] at hw
        omega
    have h3 : 2 ^ width * q + v % 2 ^ width + 1 ≤ 2 ^ width * 2 ^ (32 - (lo + width)) := by
      have := Nat.mul_le_mul_left (2 ^ width) (Nat.succ_le_of_lt hql)
      rw [Nat.mul_succ] at this; omega
    have h4 := Nat.mul_le_mul_left (2 ^ lo) h3
    rw [Nat.mul_add, Nat.mul_one, ← hp] at h4
    omega
  have hs : (setBits w lo width v).toNat = 2 ^ lo * (2 ^ width * q + v % 2 ^ width) + t := by
    unfold setBits
    rw [BitVec.toNat_ofNat, hsum, Nat.mod_eq_of_lt hlt]
  rw [hs, hx, hq, Nat.testBit_two_pow_mul_add _ ht, Nat.testBit_two_pow_mul_add _ ht]
  by_cases h1 : i < lo
  · rw [if_pos h1, if_pos h1, if_neg (by omega)]
  · rw [if_neg h1, if_neg h1, Nat.testBit_two_pow_mul_add _ hv, Nat.testBit_two_pow_mul_add _ hr]
    by_cases h2 : i - lo < width
    · rw [if_pos h2, if_pos (by omega), Nat.testBit_mod_two_pow, decide_eq_true h2, Bool.true_and]
    · rw [if_neg h2, if_neg h2, if_neg (by omega)]

/-- A field reads back what was put into it. -/
theorem bitsOf_setBits_same (w : Word) (lo width v : Nat) (h : lo + width ≤ 32) :
    bitsOf (setBits w lo width v) lo width = v % 2 ^ width := by
  apply Nat.eq_of_testBit_eq
  intro i
  rw [bitsOf_testBit, setBits_testBit w lo width v _ h, Nat.testBit_mod_two_pow]
  by_cases hi : i < width
  · rw [if_pos (by omega), Nat.add_sub_cancel_left]
  · simp [hi]

/-- A field that shares no bit with the one written reads as before. -/
theorem bitsOf_setBits_other (w : Word) {lo width lo' width' : Nat} (v : Nat) (h : lo + width ≤ 32)
    (hd : lo' + width' ≤ lo ∨ lo + width ≤ lo') :
    bitsOf (setBits w lo width v) lo' width' = bitsOf w lo' width' := by
  apply Nat.eq_of_testBit_eq
  intro i
  rw [bitsOf_testBit, bitsOf_testBit, setBits_testBit w lo width v _ h]
  by_cases hi : i < width'
  · rw [if_neg (by omega)]
  · simp [hi]

theorem Engine.get_lt (e : Engine) (f : Fld) : e.get f < 2 ^ f.width := bitsOf_lt _ _ _

theorem Engine.get_put_same (e : Engine) (f : Fld) (v : Nat) (h : f.lo + f.width ≤ 32) :
    (e.put f v).get f = v % 2 ^ f.width := by
  unfold Engine.get Engine.put
  rw [Engine.rd_wr_same, bitsOf_setBits_same _ _ _ _ h]

theorem Engine.get_put_other_reg (e : Engine) {f g : Fld} (v : Nat) (h : g.addr ≠ f.addr) :
    (e.put f v).get g = e.get g := by
  unfold Engine.get Engine.put
  rw [Engine.rd_wr_other _ _ h]

theorem Engine.get_put_other_field (e : Engine) {f g : Fld} (v : Nat) (ha : g.addr = f.addr)
    (h : f.lo + f.width ≤ 32) (hd : g.lo + g.width ≤ f.lo ∨ f.lo + f.width ≤ g.lo) :
    (e.put f v).get g = e.get g := by
  unfold Engine.get Engine.put
  rw [ha, Engine.rd_wr_same, bitsOf_setBits_other _ _ h hd]

theorem Engine.get_wr_same (e : Engine) (f : Fld) (v : Word) : (e.wr f.addr v).get f = bitsOf v f.lo f.width := by
  unfold Engine.get; rw [Engine.rd_wr_same]

theorem Engine.get_wr_other (e : Engine) {f : Fld} {a : Nat} (v : Word) (h : f.addr ≠ a) :
    (e.wr a v).get f = e.get f := by
  unfold Engine.get; rw [Engine.rd_wr_other _ _ h]

theorem Engine.get_congr {e f : Engine} (h : e.regs = f.regs) (g : Fld) : e.get g = f.get g := by
  unfold Engine.get; rw [Engine.rd_congr h]

theorem Engine.on_iff (e : Engine) (f : Fld) : e.on f = true ↔ e.get f ≠ 0 := by
  unfold Engine.on; exact decide_eq_true_iff

/-! ### Complement-paired registers -/

/-- A pair that has been taken is used as it was written (R11, R668). -/
theorem Engine.cpVal_wrCp_same (e : Engine) (a : Nat) (v : Word) : (e.wrCp a v).cpVal a = v := by
  have h1 : (e.wrCp a v).rd a = v := by
    show ((e.wr a v).wr (a + 4) (~~~ v)).rd a = v
    rw [Engine.rd_wr_other _ _ (by omega), Engine.rd_wr_same]
  have h2 : (e.wrCp a v).rd (a + 4) = ~~~ v := by
    show ((e.wr a v).wr (a + 4) (~~~ v)).rd (a + 4) = ~~~ v
    rw [Engine.rd_wr_same]
  unfold Engine.cpVal
  rw [h2, h1, if_pos rfl]

/-! ### Memory -/

@[simp] theorem Engine.ldB_stB_same (e : Engine) (a : Nat) (v : Byte) : (e.stB a v).ldB a = v :=
  Tbl.getF_setF_same memDefault e.mem a v

theorem Engine.ldB_stB_other (e : Engine) {a b : Nat} (v : Byte) (h : b ≠ a) : (e.stB a v).ldB b = e.ldB b :=
  Tbl.getF_setF_other memDefault e.mem v h

theorem Engine.ldB_congr {e f : Engine} (h : e.mem = f.mem) (a : Nat) : e.ldB a = f.ldB a := by
  unfold Engine.ldB; rw [h]

theorem Engine.ldW_congr {e f : Engine} (h : e.mem = f.mem) (a : Nat) : e.ldW a = f.ldW a := by
  unfold Engine.ldW; simp only [Engine.ldB_congr h]

/-- A word store changes the four bytes from its address and no other. -/
theorem Engine.ldB_stW_other (e : Engine) (a : Nat) (v : Word) {b : Nat} (h : b < a ∨ a + 4 ≤ b) :
    (e.stW a v).ldB b = e.ldB b := by
  unfold Engine.stW
  rw [Engine.ldB_stB_other _ _ (by omega), Engine.ldB_stB_other _ _ (by omega),
    Engine.ldB_stB_other _ _ (by omega), Engine.ldB_stB_other _ _ (by omega)]

/-- A word reads back as it was stored. -/
@[simp] theorem Engine.ldW_stW_same (e : Engine) (a : Nat) (v : Word) : (e.stW a v).ldW a = v := by
  have h3 : (e.stW a v).ldB (a + 3) = v.extractLsb' 24 8 := by unfold Engine.stW; rw [Engine.ldB_stB_same]
  have h2 : (e.stW a v).ldB (a + 2) = v.extractLsb' 16 8 := by
    unfold Engine.stW; rw [Engine.ldB_stB_other _ _ (by omega), Engine.ldB_stB_same]
  have h1 : (e.stW a v).ldB (a + 1) = v.extractLsb' 8 8 := by
    unfold Engine.stW
    rw [Engine.ldB_stB_other _ _ (by omega), Engine.ldB_stB_other _ _ (by omega), Engine.ldB_stB_same]
  have h0 : (e.stW a v).ldB a = v.extractLsb' 0 8 := by
    unfold Engine.stW
    rw [Engine.ldB_stB_other _ _ (by omega), Engine.ldB_stB_other _ _ (by omega),
      Engine.ldB_stB_other _ _ (by omega), Engine.ldB_stB_same]
  unfold Engine.ldW
  rw [h3, h2, h1, h0]
  apply BitVec.eq_of_getLsbD_eq
  intro i hi
  simp only [BitVec.getLsbD_append, BitVec.getLsbD_extractLsb']
  by_cases c0 : i < 8
  · simp [c0]
  · by_cases c1 : i - 8 < 8
    · simp [c0, c1, show 8 + (i - 8) = i by omega]
    · by_cases c2 : i - 8 - 8 < 8
      · simp [c0, c1, c2, show 16 + (i - 8 - 8) = i by omega]
      · have c3 : i - 8 - 8 - 8 < 8 := by omega
        simp [c0, c1, c2, c3, show 24 + (i - 8 - 8 - 8) = i by omega]

theorem Engine.ldW_stW_other (e : Engine) (a : Nat) (v : Word) {b : Nat} (h : b + 4 ≤ a ∨ a + 4 ≤ b) :
    (e.stW a v).ldW b = e.ldW b := by
  unfold Engine.ldW
  rw [Engine.ldB_stW_other _ _ _ (by omega), Engine.ldB_stW_other _ _ _ (by omega),
    Engine.ldB_stW_other _ _ _ (by omega), Engine.ldB_stW_other _ _ _ (by omega)]

/-- Every memory operation keeps the canonical form. -/
theorem Engine.memWf_stB (e : Engine) (a : Nat) (v : Byte) (w : memWf e.mem = true) : memWf (e.stB a v).mem = true :=
  Tbl.wf_setF memDefault e.mem a v w

theorem Engine.memWf_stW (e : Engine) (a : Nat) (v : Word) (w : memWf e.mem = true) : memWf (e.stW a v).mem = true := by
  unfold Engine.stW
  exact Engine.memWf_stB _ _ _ (Engine.memWf_stB _ _ _ (Engine.memWf_stB _ _ _ (Engine.memWf_stB _ _ _ w)))

theorem Engine.memWf_stWs (vs : List Word) :
    ∀ (e : Engine) (a : Nat), memWf e.mem = true → memWf (e.stWs a vs).mem = true := by
  induction vs with
  | nil => intro e a w; exact w
  | cons v vs ih => intro e a w; exact ih _ _ (Engine.memWf_stW e a v w)

theorem Engine.memWf_clearBytes (e : Engine) (a n : Nat) (w : memWf e.mem = true) :
    memWf (e.clearBytes a n).mem = true := Tbl.wf_filter memDefault _ e.mem w

theorem Engine.regsWf_wr (e : Engine) (a : Nat) (v : Word) (w : Tbl.wf resetWord e.regs = true) :
    Tbl.wf resetWord (e.wr a v).regs = true := Tbl.wf_setF resetWord e.regs a v w

theorem Engine.regsWf_put (e : Engine) (f : Fld) (v : Nat) (w : Tbl.wf resetWord e.regs = true) :
    Tbl.wf resetWord (e.put f v).regs = true := Engine.regsWf_wr _ _ _ w

/-- Memory and registers of the reset state are in the canonical form. -/
theorem State.reset_memoryWf : State.reset.memoryWf = true := rfl

theorem State.reset_regsWf : State.reset.regsWf = true := rfl

theorem State.reset_fuseWf : State.reset.fuseWf = true := rfl

/-! ### Events, answers and effects -/

/-- A record joins those of its cycle, stamped with the ESC. -/
theorem Engine.raise_evBuf (e : Engine) (v : Evt) :
    (e.raise v).evBuf = e.evBuf ++ [{ v with esc := e.tick.esc % 2 ^ 32 }] := rfl

/-- Raising an event changes one register: its block's EVT_STATUS. -/
theorem Engine.rd_raise_other (e : Engine) (v : Evt) {a : Nat} (h : a ≠ evtStatusAddr v.block) :
    (e.raise v).rd a = e.rd a := Engine.rd_wr_other e _ h

theorem Engine.rd_raise_same (e : Engine) (v : Evt) :
    (e.raise v).rd (evtStatusAddr v.block)
      = e.rd (evtStatusAddr v.block) ||| BitVec.ofNat 32 (2 ^ (v.code - 1)) :=
  Engine.rd_wr_same e _ _

@[simp] theorem Engine.answer_rdata (r : Word × Engine) : (Engine.answer r).rdata = r.1 := rfl

theorem Engine.answer_rd (r : Word × Engine) (a : Nat) : (Engine.answer r).rd a = r.2.rd a := rfl

@[simp] theorem Engine.captured_capture (e : Engine) (a hm : Nat) (ws : List Nat) :
    (e.capture a hm ws).captured a hm = ws := Tbl.get_set_same _ _ _ _

theorem Engine.fresh_free (e : Engine) : e.fresh.2.free = e.free + 1 := rfl

theorem State.eff_live (s : State) (f : Engine → Engine) (h : s.eng.live = true) :
    s.eff f = .next { s with eng := f s.eng } := by unfold State.eff; rw [if_pos h]

theorem State.eff_dead (s : State) (f : Engine → Engine) (h : s.eng.live = false) : s.eff f = .next s := by
  unfold State.eff; rw [h]; rfl

theorem State.ao_next (s : State) (f : Engine → Engine) : s.ao f = .next { s with eng := f s.eng } := rfl

/-- A command's effect on the engine answers a next state and leaves the queue and the fuses. -/
theorem State.eff_frame {s t : State} {f : Engine → Engine} (h : s.eff f = .next t) :
    t.pending = s.pending ∧ t.fuse = s.fuse ∧ (t.eng = f s.eng ∨ t.eng = s.eng) := by
  unfold State.eff at h
  injection h with h
  subst h
  split <;> simp

end Sys2Proof.Machine
end

