-- ==== Sys2Proof/Laws/Core.lean ====
section
/-!
SUPPORT. The laws of a core's context, and what issuing an instruction does: under
`Engine.runs` it is the instruction's effect.
-/
namespace Sys2Proof.Machine

/-! ### Registers of a context -/

@[simp] theorem CoreCtx.rdG_zero (x : CoreCtx) : x.rdG 0 = 0#32 := rfl

@[simp] theorem CoreCtx.wrG_zero (x : CoreCtx) (v : Word) : x.wrG 0 v = x := rfl

theorem CoreCtx.rdG_wrG_same (x : CoreCtx) {i : Nat} (v : Word) (h : i ≠ 0) : (x.wrG i v).rdG i = v := by
  unfold CoreCtx.rdG CoreCtx.wrG
  rw [if_neg h, if_neg h]
  exact Tbl.get_set_same _ _ _ _

theorem CoreCtx.rdG_wrG_other (x : CoreCtx) {i j : Nat} (v : Word) (h : j ≠ i) : (x.wrG i v).rdG j = x.rdG j := by
  by_cases hj : j = 0
  · subst hj; rfl
  · by_cases hi : i = 0
    · subst hi; rfl
    · unfold CoreCtx.rdG CoreCtx.wrG
      rw [if_neg hj, if_neg hi, if_neg hj]
      exact Tbl.get_set_other _ _ _ h

@[simp] theorem CoreCtx.rdQ_zero (x : CoreCtx) : x.rdQ 0 = true := rfl

@[simp] theorem CoreCtx.wrQ_zero (x : CoreCtx) (v : Bool) : x.wrQ 0 v = x := rfl

theorem CoreCtx.rdQ_wrQ_same (x : CoreCtx) {i : Nat} (v : Bool) (h : i ≠ 0) : (x.wrQ i v).rdQ i = v := by
  unfold CoreCtx.rdQ CoreCtx.wrQ
  rw [if_neg h, if_neg h]
  exact Tbl.get_set_same _ _ _ _

@[simp] theorem CoreCtx.rdA_wrA_same (x : CoreCtx) (i : Nat) (v : Int) : (x.wrA i v).rdA i = v :=
  Tbl.get_set_same _ _ _ _

theorem CoreCtx.rdA_wrA_other (x : CoreCtx) {i j : Nat} (v : Int) (h : j ≠ i) : (x.wrA i v).rdA j = x.rdA j :=
  Tbl.get_set_other _ _ _ h

/-- A result is one register and the flags named with it. -/
theorem CoreCtx.putRes_eq (x : CoreCtx) (rd : Nat) (r : AluRes) :
    x.putRes rd r = { x with
      g := if rd = 0 then x.g else Tbl.set 0#32 x.g rd r.val
      z := if r.zn then r.val == 0#32 else x.z, n := if r.zn then r.val.getLsbD 31 else x.n
      c := r.c.getD x.c, v := r.v.getD x.v, sat := x.sat || r.sat } := by
  unfold CoreCtx.putRes CoreCtx.wrG
  split <;> rfl

/-! ### Contexts in the engine -/

@[simp] theorem Engine.coreOf_setCore_same (e : Engine) (c : Nat) (k : CoreSt) : (e.setCore c k).coreOf c = k :=
  Tbl.get_set_same _ _ _ _

theorem Engine.coreOf_setCore_other (e : Engine) {c d : Nat} (k : CoreSt) (h : d ≠ c) :
    (e.setCore c k).coreOf d = e.coreOf d := Tbl.get_set_other _ _ _ h

@[simp] theorem Engine.coreOf_updCore_same (e : Engine) (c : Nat) (f : CoreSt → CoreSt) :
    (e.updCore c f).coreOf c = f (e.coreOf c) := Engine.coreOf_setCore_same _ _ _

theorem Engine.coreOf_updCore_other (e : Engine) {c d : Nat} (f : CoreSt → CoreSt) (h : d ≠ c) :
    (e.updCore c f).coreOf d = e.coreOf d := Engine.coreOf_setCore_other _ _ h

theorem Engine.coreOf_setCtx (e : Engine) (c : Nat) (x : CoreCtx) :
    (e.setCtx c x).coreOf c =
      { e.coreOf c with ctx := Tbl.set {} (e.coreOf c).ctx (e.coreOf c).bank x } :=
  Engine.coreOf_updCore_same e c _

@[simp] theorem Engine.ctxOf_setCtx_same (e : Engine) (c : Nat) (x : CoreCtx) : (e.setCtx c x).ctxOf c = x := by
  unfold Engine.ctxOf Engine.ctxAt
  rw [Engine.coreOf_setCtx]
  exact Tbl.get_set_same _ _ _ _

/-- A context's update leaves every other core. -/
theorem Engine.ctxOf_setCtx_other (e : Engine) {c d : Nat} (x : CoreCtx) (h : d ≠ c) :
    (e.setCtx c x).ctxOf d = e.ctxOf d := by
  unfold Engine.ctxOf Engine.ctxAt
  have : (e.setCtx c x).coreOf d = e.coreOf d := Engine.coreOf_updCore_other e _ h
  rw [this]

/-! ### Issuing -/

theorem Engine.runs_live {e : Engine} {i : Issue} {m : Nat} {x l : Bool} (h : e.runs i m x l = true) :
    e.live = true := by
  unfold Engine.runs at h
  simp only [Bool.and_eq_true] at h
  exact h.1.1.1.1.1.1.1.1

theorem Engine.runs_step {e : Engine} {i : Issue} {m : Nat} {x l : Bool} (h : e.runs i m x l = true) :
    (e.coreOf i.core).step = false := by
  unfold Engine.runs at h
  simp only [Bool.and_eq_true] at h
  simpa using h.1.1.1.1.1.1.2

/-- Without a debug step in progress an instruction's end adds nothing. -/
theorem Engine.stepEnd_off (e : Engine) (c : Nat) (h : (e.coreOf c).step = false) : e.stepEnd c = e := by
  unfold Engine.stepEnd
  simp [h]

/-- What issue is under `runs`: the instruction's effect. -/
theorem Engine.issue_runs {e : Engine} {i : Issue} {n : Need} (f : Engine → Engine)
    (h : e.runs i n.mode n.ext (!n.unlock) = true) (hi : n.illegal = false) :
    e.issue i n f = (f e).stepEnd i.core := by
  unfold Engine.runs at h
  simp only [Bool.and_eq_true, Bool.or_eq_true, Bool.not_eq_true', decide_eq_true_eq] at h
  obtain ⟨⟨⟨⟨⟨⟨⟨⟨-, h1⟩, -⟩, h2⟩, h3⟩, h4⟩, h5⟩, h6⟩, h7⟩ := h
  unfold Engine.issue
  have h4' : ((e.ctxOf i.core).ext.isSome && !n.ext) = false := by
    rcases h4 with h4 | h4
    · cases hx : (e.ctxOf i.core).ext <;> simp_all
    · simp [h4]
  have h7' : ((e.ctxOf i.core).lk && (n.unlock || decide (16 ≤ (e.ctxOf i.core).lockN))) = false := by
    rcases h7 with h7 | ⟨h7, h8⟩
    · simp [h7]
    · simp [h7]; intro _; omega
  simp [h1, h2, h3, h5, hi, h4', h7', Nat.not_lt.mpr h6]

/-- An instruction whose effect is on its context alone changes that context and nothing else. -/
theorem Engine.issueCtx_runs {e : Engine} {i : Issue} {n : Need} (f : CoreCtx → CoreCtx)
    (h : e.runs i n.mode n.ext (!n.unlock) = true) (hi : n.illegal = false) :
    e.issueCtx i n f = e.setCtx i.core (f (e.ctxOf i.core)).advance := by
  unfold Engine.issueCtx
  rw [Engine.issue_runs _ h hi, Engine.stepEnd_off]
  rw [Engine.coreOf_setCtx]
  exact Engine.runs_step h

/-- The same for a whole command. -/
theorem State.eff_issueCtx {s : State} {i : Issue} {n : Need} (f : CoreCtx → CoreCtx)
    (h : s.eng.runs i n.mode n.ext (!n.unlock) = true) (hi : n.illegal = false) :
    s.eff (fun e => e.issueCtx i n f) = .next (s.withCtx i.core (f (s.ctx i.core)).advance) := by
  rw [State.eff_live _ _ (Engine.runs_live h), Engine.issueCtx_runs f h hi]; rfl

/-- A register form writes its result and flags. -/
theorem State.eff_aluR {s : State} {i : Issue} (rd ra rb : Nat) (f : Word → Word → AluRes)
    (h : s.eng.runs i 0 false true = true) :
    s.eff (fun e => e.aluR i rd ra rb f) = .next (s.withCtx i.core
      ((s.ctx i.core).putRes rd (f ((s.ctx i.core).rdG ra) ((s.ctx i.core).rdG rb))).advance) :=
  State.eff_issueCtx (n := {}) _ h rfl

/-- A unary form writes its result and flags. -/
theorem State.eff_aluU {s : State} {i : Issue} (rd ra : Nat) (f : Word → AluRes)
    (h : s.eng.runs i 0 false true = true) :
    s.eff (fun e => e.aluU i rd ra f) = .next (s.withCtx i.core
      ((s.ctx i.core).putRes rd (f ((s.ctx i.core).rdG ra))).advance) :=
  State.eff_issueCtx (n := {}) _ h rfl

/-- An immediate form writes its result and flags. -/
theorem State.eff_aluI {s : State} {i : Issue} (rd ra imm : Nat) (sgn : Bool) (f : Word → Word → AluRes)
    (h : s.eng.runs i 0 true true = true) :
    s.eff (fun e => e.aluI i rd ra imm sgn f) = .next (s.withCtx i.core
      ((s.ctx i.core).putRes rd (f ((s.ctx i.core).rdG ra) ((s.ctx i.core).imm sgn imm))).advance) :=
  State.eff_issueCtx (n := { ext := true }) _ h rfl

theorem CoreCtx.putRes_result (x : CoreCtx) (rd : Nat) (r : AluRes) :
    x.putRes rd r = x.result rd r.val r.zn (r.c.getD x.c) (r.v.getD x.v) (x.sat || r.sat) := by
  rw [CoreCtx.putRes_eq]; rfl

theorem not_fits32 (v : Int) : (!fits32 v) = decide (v < -2147483648 ∨ 2147483647 < v) := by
  unfold fits32; rw [← decide_not]; apply decide_eq_decide.mpr; omega

theorem sat32_eq (v : Int) : sat32 v =
    if v < -2147483648 then 0x80000000#32 else if 2147483647 < v then 0x7FFFFFFF#32 else BitVec.ofInt 32 v := by
  unfold sat32 clampInt wordOfInt
  split
  · rfl
  · split <;> rfl

/-- A core that is not issuing does nothing. -/
theorem Engine.issue_idle {e : Engine} {i : Issue} {n : Need} (f : Engine → Engine)
    (h : e.issuing i.core = false) : e.issue i n f = e := by
  unfold Engine.issue; rw [if_pos h]

/-- The last of two contexts written stands alone. -/
@[simp] theorem Engine.setCtx_setCtx (e : Engine) (c : Nat) (x y : CoreCtx) : (e.setCtx c x).setCtx c y = e.setCtx c y := by
  have h : ∀ z, (e.setCtx c z) =
      { e with core := Tbl.set {} e.core c { e.coreOf c with ctx := Tbl.set {} (e.coreOf c).ctx (e.coreOf c).bank z } } :=
    fun _ => rfl
  rw [h y, h x]
  unfold Engine.setCtx Engine.setCtxAt Engine.updCore Engine.setCore
  have hc : Engine.coreOf { e with core := Tbl.set {} e.core c { e.coreOf c with ctx := Tbl.set {} (e.coreOf c).ctx (e.coreOf c).bank x } } c
      = { e.coreOf c with ctx := Tbl.set {} (e.coreOf c).ctx (e.coreOf c).bank x } := Tbl.get_set_same _ _ _ _
  rw [hc]
  simp only [Tbl.set_set]

@[simp] theorem Engine.rd_setCtx (e : Engine) (c a : Nat) (x : CoreCtx) : (e.setCtx c x).rd a = e.rd a := rfl

@[simp] theorem Engine.get_setCtx (e : Engine) (c : Nat) (f : Fld) (x : CoreCtx) : (e.setCtx c x).get f = e.get f := rfl

@[simp] theorem Engine.rd_updCore (e : Engine) (c a : Nat) (f : CoreSt → CoreSt) : (e.updCore c f).rd a = e.rd a := rfl

@[simp] theorem Engine.get_updCore (e : Engine) (c : Nat) (g : Fld) (f : CoreSt → CoreSt) : (e.updCore c f).get g = e.get g := rfl

end Sys2Proof.Machine
end

