-- ==== Sys2Proof/Laws/Dispatch.lean ====
section
/-!
SUPPORT. What `exec` calls for each command, one lemma a constructor, so that no proof unfolds `exec`.
-/
namespace Sys2Proof.Machine

@[simp] theorem exec_registerWrite (by_ : Sender) (a : Nat) (v : Word) (s : State) : exec (.registerWrite by_ a v) s = execRegisterWrite by_ a v s := rfl
@[simp] theorem exec_cpEvenWrite (by_ : Sender) (a : Nat) (v : Word) (s : State) : exec (.cpEvenWrite by_ a v) s = execCpEvenWrite by_ a v s := rfl
@[simp] theorem exec_cpOddWrite (by_ : Sender) (a : Nat) (v : Word) (s : State) : exec (.cpOddWrite by_ a v) s = execCpOddWrite by_ a v s := rfl
@[simp] theorem exec_cpPairTimeout (a : Nat) (s : State) : exec (.cpPairTimeout a) s = execCpPairTimeout a s := rfl
@[simp] theorem exec_unmappedAccess (by_ : Sender) (a : Nat) (write : Bool) (s : State) : exec (.unmappedAccess by_ a write) s = execUnmappedAccess by_ a write s := rfl
@[simp] theorem exec_tickCfgWrite (by_ : Sender) (v : Word) (s : State) : exec (.tickCfgWrite by_ v) s = execTickCfgWrite by_ v s := rfl
@[simp] theorem exec_tickRunStart (by_ : Sender) (s : State) : exec (.tickRunStart by_) s = execTickRunStart by_ s := rfl
@[simp] theorem exec_deferredTickStart  (s : State) : exec (.deferredTickStart) s = execDeferredTickStart s := rfl
@[simp] theorem exec_tickStopRequest  (s : State) : exec (.tickStopRequest) s = execTickStopRequest s := rfl
@[simp] theorem exec_tickStopHold  (s : State) : exec (.tickStopHold) s = execTickStopHold s := rfl
@[simp] theorem exec_tickStart  (s : State) : exec (.tickStart) s = execTickStart s := rfl
@[simp] theorem exec_guardStart  (s : State) : exec (.guardStart) s = execGuardStart s := rfl
@[simp] theorem exec_sysEscLoRead (by_ : Sender) (s : State) : exec (.sysEscLoRead by_) s = execSysEscLoRead by_ s := rfl
@[simp] theorem exec_evrOverflow  (s : State) : exec (.evrOverflow) s = execEvrOverflow s := rfl
@[simp] theorem exec_sysEvrCfgWrite (len : Bool) (v : Word) (s : State) : exec (.sysEvrCfgWrite len v) s = execSysEvrCfgWrite len v s := rfl
@[simp] theorem exec_sysKeyWrite (by_ : Sender) (v : Word) (s : State) : exec (.sysKeyWrite by_ v) s = execSysKeyWrite by_ v s := rfl
@[simp] theorem exec_sysResetWrite (by_ : Sender) (v : Word) (s : State) : exec (.sysResetWrite by_ v) s = execSysResetWrite by_ v s := rfl
@[simp] theorem exec_clkTgtCommit (by_ : Sender) (v : Word) (s : State) : exec (.clkTgtCommit by_ v) s = execClkTgtCommit by_ v s := rfl
@[simp] theorem exec_smallStepApply  (s : State) : exec (.smallStepApply) s = execSmallStepApply s := rfl
@[simp] theorem exec_pllLockDeclared  (s : State) : exec (.pllLockDeclared) s = execPllLockDeclared s := rfl
@[simp] theorem exec_relockDone  (s : State) : exec (.relockDone) s = execRelockDone s := rfl
@[simp] theorem exec_relockTimeout  (s : State) : exec (.relockTimeout) s = execRelockTimeout s := rfl
@[simp] theorem exec_pllAcquireStart (v : Word) (s : State) : exec (.pllAcquireStart v) s = execPllAcquireStart v s := rfl
@[simp] theorem exec_calMeasureStart (by_ : Sender) (v : Word) (s : State) : exec (.calMeasureStart by_ v) s = execCalMeasureStart by_ v s := rfl
@[simp] theorem exec_calMeasureDone (count : Nat) (s : State) : exec (.calMeasureDone count) s = execCalMeasureDone count s := rfl
@[simp] theorem exec_lpoCalUpdate (count : Nat) (s : State) : exec (.lpoCalUpdate count) s = execLpoCalUpdate count s := rfl
@[simp] theorem exec_lockLost  (s : State) : exec (.lockLost) s = execLockLost s := rfl
@[simp] theorem exec_lockRegained  (s : State) : exec (.lockRegained) s = execLockRegained s := rfl
@[simp] theorem exec_lockLossTimeout  (s : State) : exec (.lockLossTimeout) s = execLockLossTimeout s := rfl
@[simp] theorem exec_freqMonitorWindow (count : Nat) (s : State) : exec (.freqMonitorWindow count) s = execFreqMonitorWindow count s := rfl
@[simp] theorem exec_xtalFail  (s : State) : exec (.xtalFail) s = execXtalFail s := rfl
@[simp] theorem exec_clkGateWrite (v : Word) (s : State) : exec (.clkGateWrite v) s = execClkGateWrite v s := rfl
@[simp] theorem exec_clkGateClose (unit : Nat) (s : State) : exec (.clkGateClose unit) s = execClkGateClose unit s := rfl
@[simp] theorem exec_refGateEnd (n : Nat) (present : Bool) (ppt : Int) (s : State) : exec (.refGateEnd n present ppt) s = execRefGateEnd n present ppt s := rfl
@[simp] theorem exec_refLos (n : Nat) (s : State) : exec (.refLos n) s = execRefLos n s := rfl
@[simp] theorem exec_refEvent (n : Nat) (ph : Int) (s : State) : exec (.refEvent n ph) s = execRefEvent n ph s := rfl
@[simp] theorem exec_vrefFrameStart (off : Int) (ph : Int) (s : State) : exec (.vrefFrameStart off ph) s = execVrefFrameStart off ph s := rfl
@[simp] theorem exec_refUpdate  (s : State) : exec (.refUpdate) s = execRefUpdate s := rfl
@[simp] theorem exec_refHistorySample  (s : State) : exec (.refHistorySample) s = execRefHistorySample s := rfl
@[simp] theorem exec_refPtpQualWrite (v : Word) (s : State) : exec (.refPtpQualWrite v) s = execRefPtpQualWrite v s := rfl
@[simp] theorem exec_refFreqWrite (by_ : Sender) (v : Word) (s : State) : exec (.refFreqWrite by_ v) s = execRefFreqWrite by_ v s := rfl
@[simp] theorem exec_refPhaseStepWrite (by_ : Sender) (v : Word) (s : State) : exec (.refPhaseStepWrite by_ v) s = execRefPhaseStepWrite by_ v s := rfl
@[simp] theorem exec_realignCommand (v : Word) (s : State) : exec (.realignCommand v) s = execRealignCommand v s := rfl
@[simp] theorem exec_realignApply  (s : State) : exec (.realignApply) s = execRealignApply s := rfl
@[simp] theorem exec_timeIncrCommit (by_ : Sender) (v : Word) (s : State) : exec (.timeIncrCommit by_ v) s = execTimeIncrCommit by_ v s := rfl
@[simp] theorem exec_timeStep (by_ : Sender) (v : Word) (s : State) : exec (.timeStep by_ v) s = execTimeStep by_ v s := rfl
@[simp] theorem exec_timeNowCapture (by_ : Sender) (s : State) : exec (.timeNowCapture by_) s = execTimeNowCapture by_ s := rfl
@[simp] theorem exec_timeLatchCapture (by_ : Sender) (s : State) : exec (.timeLatchCapture by_) s = execTimeLatchCapture by_ s := rfl
@[simp] theorem exec_txtsPop  (s : State) : exec (.txtsPop) s = execTxtsPop s := rfl
@[simp] theorem exec_taqArm (by_ : Sender) (ix : Nat) (v : Word) (s : State) : exec (.taqArm by_ ix v) s = execTaqArm by_ ix v s := rfl
@[simp] theorem exec_taqCancel (by_ : Sender) (ix : Nat) (v : Word) (s : State) : exec (.taqCancel by_ ix v) s = execTaqCancel by_ ix v s := rfl
@[simp] theorem exec_taqCutoff  (s : State) : exec (.taqCutoff) s = execTaqCutoff s := rfl
@[simp] theorem exec_timedPatchApply  (s : State) : exec (.timedPatchApply) s = execTimedPatchApply s := rfl
@[simp] theorem exec_timedMuteStart  (s : State) : exec (.timedMuteStart) s = execTimedMuteStart s := rfl
@[simp] theorem exec_timedGpioChange  (s : State) : exec (.timedGpioChange) s = execTimedGpioChange s := rfl
@[simp] theorem exec_add (ix : Issue) (rd : Nat) (ra : Nat) (rb : Nat) (s : State) : exec (.add ix rd ra rb) s = execAdd ix rd ra rb s := rfl
@[simp] theorem exec_sub (ix : Issue) (rd : Nat) (ra : Nat) (rb : Nat) (s : State) : exec (.sub ix rd ra rb) s = execSub ix rd ra rb s := rfl
@[simp] theorem exec_adds (ix : Issue) (rd : Nat) (ra : Nat) (rb : Nat) (s : State) : exec (.adds ix rd ra rb) s = execAdds ix rd ra rb s := rfl
@[simp] theorem exec_subs (ix : Issue) (rd : Nat) (ra : Nat) (rb : Nat) (s : State) : exec (.subs ix rd ra rb) s = execSubs ix rd ra rb s := rfl
@[simp] theorem exec_and (ix : Issue) (rd : Nat) (ra : Nat) (rb : Nat) (s : State) : exec (.and ix rd ra rb) s = execAnd ix rd ra rb s := rfl
@[simp] theorem exec_or (ix : Issue) (rd : Nat) (ra : Nat) (rb : Nat) (s : State) : exec (.or ix rd ra rb) s = execOr ix rd ra rb s := rfl
@[simp] theorem exec_xor (ix : Issue) (rd : Nat) (ra : Nat) (rb : Nat) (s : State) : exec (.xor ix rd ra rb) s = execXor ix rd ra rb s := rfl
@[simp] theorem exec_andn (ix : Issue) (rd : Nat) (ra : Nat) (rb : Nat) (s : State) : exec (.andn ix rd ra rb) s = execAndn ix rd ra rb s := rfl
@[simp] theorem exec_shl (ix : Issue) (rd : Nat) (ra : Nat) (rb : Nat) (s : State) : exec (.shl ix rd ra rb) s = execShl ix rd ra rb s := rfl
@[simp] theorem exec_shr (ix : Issue) (rd : Nat) (ra : Nat) (rb : Nat) (s : State) : exec (.shr ix rd ra rb) s = execShr ix rd ra rb s := rfl
@[simp] theorem exec_sra (ix : Issue) (rd : Nat) (ra : Nat) (rb : Nat) (s : State) : exec (.sra ix rd ra rb) s = execSra ix rd ra rb s := rfl
@[simp] theorem exec_min (ix : Issue) (rd : Nat) (ra : Nat) (rb : Nat) (s : State) : exec (.min ix rd ra rb) s = execMin ix rd ra rb s := rfl
@[simp] theorem exec_max (ix : Issue) (rd : Nat) (ra : Nat) (rb : Nat) (s : State) : exec (.max ix rd ra rb) s = execMax ix rd ra rb s := rfl
@[simp] theorem exec_minu (ix : Issue) (rd : Nat) (ra : Nat) (rb : Nat) (s : State) : exec (.minu ix rd ra rb) s = execMinu ix rd ra rb s := rfl
@[simp] theorem exec_maxu (ix : Issue) (rd : Nat) (ra : Nat) (rb : Nat) (s : State) : exec (.maxu ix rd ra rb) s = execMaxu ix rd ra rb s := rfl
@[simp] theorem exec_peak (ix : Issue) (rd : Nat) (ra : Nat) (rb : Nat) (s : State) : exec (.peak ix rd ra rb) s = execPeak ix rd ra rb s := rfl
@[simp] theorem exec_mov (ix : Issue) (rd : Nat) (ra : Nat) (s : State) : exec (.mov ix rd ra) s = execMov ix rd ra s := rfl
@[simp] theorem exec_neg (ix : Issue) (rd : Nat) (ra : Nat) (s : State) : exec (.neg ix rd ra) s = execNeg ix rd ra s := rfl
@[simp] theorem exec_not (ix : Issue) (rd : Nat) (ra : Nat) (s : State) : exec (.not ix rd ra) s = execNot ix rd ra s := rfl
@[simp] theorem exec_abs (ix : Issue) (rd : Nat) (ra : Nat) (s : State) : exec (.abs ix rd ra) s = execAbs ix rd ra s := rfl
@[simp] theorem exec_clz (ix : Issue) (rd : Nat) (ra : Nat) (s : State) : exec (.clz ix rd ra) s = execClz ix rd ra s := rfl
@[simp] theorem exec_cls (ix : Issue) (rd : Nat) (ra : Nat) (s : State) : exec (.cls ix rd ra) s = execCls ix rd ra s := rfl
@[simp] theorem exec_log2 (ix : Issue) (rd : Nat) (ra : Nat) (s : State) : exec (.log2 ix rd ra) s = execLog2 ix rd ra s := rfl
@[simp] theorem exec_exp2 (ix : Issue) (rd : Nat) (ra : Nat) (s : State) : exec (.exp2 ix rd ra) s = execExp2 ix rd ra s := rfl
@[simp] theorem exec_exp2g (ix : Issue) (rd : Nat) (ra : Nat) (s : State) : exec (.exp2g ix rd ra) s = execExp2g ix rd ra s := rfl
@[simp] theorem exec_addi (ix : Issue) (rd : Nat) (ra : Nat) (imm : Nat) (s : State) : exec (.addi ix rd ra imm) s = execAddi ix rd ra imm s := rfl
@[simp] theorem exec_andi (ix : Issue) (rd : Nat) (ra : Nat) (imm : Nat) (s : State) : exec (.andi ix rd ra imm) s = execAndi ix rd ra imm s := rfl
@[simp] theorem exec_ori (ix : Issue) (rd : Nat) (ra : Nat) (imm : Nat) (s : State) : exec (.ori ix rd ra imm) s = execOri ix rd ra imm s := rfl
@[simp] theorem exec_xori (ix : Issue) (rd : Nat) (ra : Nat) (imm : Nat) (s : State) : exec (.xori ix rd ra imm) s = execXori ix rd ra imm s := rfl
@[simp] theorem exec_shli (ix : Issue) (rd : Nat) (ra : Nat) (k : Nat) (s : State) : exec (.shli ix rd ra k) s = execShli ix rd ra k s := rfl
@[simp] theorem exec_shri (ix : Issue) (rd : Nat) (ra : Nat) (k : Nat) (s : State) : exec (.shri ix rd ra k) s = execShri ix rd ra k s := rfl
@[simp] theorem exec_srai (ix : Issue) (rd : Nat) (ra : Nat) (k : Nat) (s : State) : exec (.srai ix rd ra k) s = execSrai ix rd ra k s := rfl
@[simp] theorem exec_movi (ix : Issue) (rd : Nat) (imm : Nat) (s : State) : exec (.movi ix rd imm) s = execMovi ix rd imm s := rfl
@[simp] theorem exec_cmp (ix : Issue) (qd : Nat) (cond : Nat) (ra : Nat) (rb : Nat) (s : State) : exec (.cmp ix qd cond ra rb) s = execCmp ix qd cond ra rb s := rfl
@[simp] theorem exec_cmpi (ix : Issue) (qd : Nat) (cond : Nat) (ra : Nat) (imm : Nat) (s : State) : exec (.cmpi ix qd cond ra imm) s = execCmpi ix qd cond ra imm s := rfl
@[simp] theorem exec_divs (ix : Issue) (rd : Nat) (rb : Nat) (s : State) : exec (.divs ix rd rb) s = execDivs ix rd rb s := rfl
@[simp] theorem exec_sqrs (ix : Issue) (rd : Nat) (s : State) : exec (.sqrs ix rd) s = execSqrs ix rd s := rfl
@[simp] theorem exec_mac (ix : Issue) (fmt : Nat) (an : Nat) (ga : Nat) (gb : Nat) (clr : Bool) (s : State) : exec (.mac ix fmt an ga gb clr) s = execMac ix fmt an ga gb clr s := rfl
@[simp] theorem exec_msu (ix : Issue) (fmt : Nat) (an : Nat) (ga : Nat) (gb : Nat) (clr : Bool) (s : State) : exec (.msu ix fmt an ga gb clr) s = execMsu ix fmt an ga gb clr s := rfl
@[simp] theorem exec_dot2 (ix : Issue) (fmt : Nat) (an : Nat) (ga : Nat) (gb : Nat) (sub : Bool) (clr : Bool) (s : State) : exec (.dot2 ix fmt an ga gb sub clr) s = execDot2 ix fmt an ga gb sub clr s := rfl
@[simp] theorem exec_macp (ix : Issue) (fmt : Nat) (an : Nat) (ga : Nat) (gb : Nat) (sub : Bool) (clr : Bool) (s : State) : exec (.macp ix fmt an ga gb sub clr) s = execMacp ix fmt an ga gb sub clr s := rfl
@[simp] theorem exec_bq (ix : Issue) (an : Nat) (gx : Nat) (gc : Nat) (pp : Nat) (s : State) : exec (.bq ix an gx gc pp) s = execBq ix an gx gc pp s := rfl
@[simp] theorem exec_aclr (ix : Issue) (an : Nat) (s : State) : exec (.aclr ix an) s = execAclr ix an s := rfl
@[simp] theorem exec_amov (ix : Issue) (an : Nat) (am : Nat) (s : State) : exec (.amov ix an am) s = execAmov ix an am s := rfl
@[simp] theorem exec_ald (ix : Issue) (an : Nat) (ga : Nat) (s : State) : exec (.ald ix an ga) s = execAld ix an ga s := rfl
@[simp] theorem exec_aadd (ix : Issue) (an : Nat) (am : Nat) (s : State) : exec (.aadd ix an am) s = execAadd ix an am s := rfl
@[simp] theorem exec_asub (ix : Issue) (an : Nat) (am : Nat) (s : State) : exec (.asub ix an am) s = execAsub ix an am s := rfl
@[simp] theorem exec_ashl (ix : Issue) (an : Nat) (k : Nat) (s : State) : exec (.ashl ix an k) s = execAshl ix an k s := rfl
@[simp] theorem exec_asra (ix : Issue) (an : Nat) (k : Nat) (s : State) : exec (.asra ix an k) s = execAsra ix an k s := rfl
@[simp] theorem exec_aneg (ix : Issue) (an : Nat) (s : State) : exec (.aneg ix an) s = execAneg ix an s := rfl
@[simp] theorem exec_rda (ix : Issue) (gd : Nat) (an : Nat) (sh : Nat) (rm : Nat) (sm : Nat) (s : State) : exec (.rda ix gd an sh rm sm) s = execRda ix gd an sh rm sm s := rfl
@[simp] theorem exec_sta (ix : Issue) (an : Nat) (pn : Nat) (pm : Bool) (sh : Nat) (rm : Nat) (sm : Nat) (s : State) : exec (.sta ix an pn pm sh rm sm) s = execSta ix an pn pm sh rm sm s := rfl
@[simp] theorem exec_ext (ix : Issue) (x20 : Nat) (s : State) : exec (.ext ix x20) s = execExt ix x20 s := rfl
@[simp] theorem exec_ldw (ix : Issue) (g : Nat) (ad : LsAddr) (s : State) : exec (.ldw ix g ad) s = execLdw ix g ad s := rfl
@[simp] theorem exec_ldd (ix : Issue) (g : Nat) (ad : LsAddr) (s : State) : exec (.ldd ix g ad) s = execLdd ix g ad s := rfl
@[simp] theorem exec_stw (ix : Issue) (g : Nat) (ad : LsAddr) (s : State) : exec (.stw ix g ad) s = execStw ix g ad s := rfl
@[simp] theorem exec_std (ix : Issue) (g : Nat) (ad : LsAddr) (s : State) : exec (.std ix g ad) s = execStd ix g ad s := rfl
@[simp] theorem exec_ld2 (ix : Issue) (gd : Nat) (ge : Nat) (pn : Nat) (pmn : Bool) (pm : Nat) (pmm : Bool) (wide : Bool) (s : State) : exec (.ld2 ix gd ge pn pmn pm pmm wide) s = execLd2 ix gd ge pn pmn pm pmm wide s := rfl
@[simp] theorem exec_mtp (ix : Issue) (k : PKind) (n : Nat) (g : Nat) (s : State) : exec (.mtp ix k n g) s = execMtp ix k n g s := rfl
@[simp] theorem exec_mfp (ix : Issue) (k : PKind) (n : Nat) (g : Nat) (s : State) : exec (.mfp ix k n g) s = execMfp ix k n g s := rfl
@[simp] theorem exec_pstep (ix : Issue) (n : Nat) (imm : Nat) (s : State) : exec (.pstep ix n imm) s = execPstep ix n imm s := rfl
@[simp] theorem exec_ldl (ix : Issue) (gd : Nat) (ga : Nat) (s : State) : exec (.ldl ix gd ga) s = execLdl ix gd ga s := rfl
@[simp] theorem exec_stc (ix : Issue) (gd : Nat) (gs : Nat) (ga : Nat) (s : State) : exec (.stc ix gd gs ga) s = execStc ix gd gs ga s := rfl
@[simp] theorem exec_br (ix : Issue) (off : Nat) (s : State) : exec (.br ix off) s = execBr ix off s := rfl
@[simp] theorem exec_brl (ix : Issue) (off : Nat) (s : State) : exec (.brl ix off) s = execBrl ix off s := rfl
@[simp] theorem exec_jr (ix : Issue) (gd : Nat) (ga : Nat) (s : State) : exec (.jr ix gd ga) s = execJr ix gd ga s := rfl
@[simp] theorem exec_loop (ix : Issue) (n : LoopCount) (body : Nat) (s : State) : exec (.loop ix n body) s = execLoop ix n body s := rfl
@[simp] theorem exec_loops (ix : Issue) (s : State) : exec (.loops ix) s = execLoops ix s := rfl
@[simp] theorem exec_predAnd (ix : Issue) (qd : Nat) (qa : Nat) (ia : Bool) (qb : Nat) (ib : Bool) (s : State) : exec (.predAnd ix qd qa ia qb ib) s = execPredAnd ix qd qa ia qb ib s := rfl
@[simp] theorem exec_predOr (ix : Issue) (qd : Nat) (qa : Nat) (ia : Bool) (qb : Nat) (ib : Bool) (s : State) : exec (.predOr ix qd qa ia qb ib) s = execPredOr ix qd qa ia qb ib s := rfl
@[simp] theorem exec_predXor (ix : Issue) (qd : Nat) (qa : Nat) (ia : Bool) (qb : Nat) (ib : Bool) (s : State) : exec (.predXor ix qd qa ia qb ib) s = execPredXor ix qd qa ia qb ib s := rfl
@[simp] theorem exec_pflag (ix : Issue) (qd : Nat) (fc : Nat) (s : State) : exec (.pflag ix qd fc) s = execPflag ix qd fc s := rfl
@[simp] theorem exec_mfs (ix : Issue) (g : Nat) (sr : Nat) (s : State) : exec (.mfs ix g sr) s = execMfs ix g sr s := rfl
@[simp] theorem exec_mts (ix : Issue) (g : Nat) (sr : Nat) (s : State) : exec (.mts ix g sr) s = execMts ix g sr s := rfl
@[simp] theorem exec_lock (ix : Issue) (s : State) : exec (.lock ix) s = execLock ix s := rfl
@[simp] theorem exec_unlock (ix : Issue) (s : State) : exec (.unlock ix) s = execUnlock ix s := rfl
@[simp] theorem exec_fence (ix : Issue) (s : State) : exec (.fence ix) s = execFence ix s := rfl
@[simp] theorem exec_gap (ix : Issue) (k : Nat) (s : State) : exec (.gap ix k) s = execGap ix k s := rfl
@[simp] theorem exec_wft (ix : Issue) (s : State) : exec (.wft ix) s = execWft ix s := rfl
@[simp] theorem exec_wftWake (c : Nat) (s : State) : exec (.wftWake c) s = execWftWake c s := rfl
@[simp] theorem exec_split (ix : Issue) (g : Nat) (s : State) : exec (.split ix g) s = execSplit ix g s := rfl
@[simp] theorem exec_trap (ix : Issue) (code : Nat) (s : State) : exec (.trap ix code) s = execTrap ix code s := rfl
@[simp] theorem exec_brk (ix : Issue) (s : State) : exec (.brk ix) s = execBrk ix s := rfl
@[simp] theorem exec_rte (ix : Issue) (s : State) : exec (.rte ix) s = execRte ix s := rfl
@[simp] theorem exec_tready (ix : Issue) (ga : Nat) (s : State) : exec (.tready ix ga) s = execTready ix ga s := rfl
@[simp] theorem exec_tcancel (ix : Issue) (ga : Nat) (s : State) : exec (.tcancel ix ga) s = execTcancel ix ga s := rfl
@[simp] theorem exec_tyield (ix : Issue) (s : State) : exec (.tyield ix) s = execTyield ix s := rfl
@[simp] theorem exec_tdone (ix : Issue) (status : Nat) (s : State) : exec (.tdone ix status) s = execTdone ix status s := rfl
@[simp] theorem exec_taskComplete (c : Nat) (s : State) : exec (.taskComplete c) s = execTaskComplete c s := rfl
@[simp] theorem exec_waiti (ix : Issue) (s : State) : exec (.waiti ix) s = execWaiti ix s := rfl
@[simp] theorem exec_waitiWake  (s : State) : exec (.waitiWake) s = execWaitiWake s := rfl
@[simp] theorem exec_ieset (ix : Issue) (gd : Nat) (b : Bool) (s : State) : exec (.ieset ix gd b) s = execIeset ix gd b s := rfl
@[simp] theorem exec_moncall (ix : Issue) (service : Nat) (s : State) : exec (.moncall ix service) s = execMoncall ix service s := rfl
@[simp] theorem exec_isync (ix : Issue) (s : State) : exec (.isync ix) s = execIsync ix s := rfl
@[simp] theorem exec_irqEntry  (s : State) : exec (.irqEntry) s = execIrqEntry s := rfl
@[simp] theorem exec_preemption (c : Nat) (d : Nat) (s : State) : exec (.preemption c d) s = execPreemption c d s := rfl
@[simp] theorem exec_lockBreak (c : Nat) (s : State) : exec (.lockBreak c) s = execLockBreak c s := rfl
@[simp] theorem exec_remoteLoadComplete (c : Nat) (slot : Nat) (s : State) : exec (.remoteLoadComplete c slot) s = execRemoteLoadComplete c slot s := rfl
@[simp] theorem exec_coreDmaStarve (c : Nat) (k : Nat) (s : State) : exec (.coreDmaStarve c k) s = execCoreDmaStarve c k s := rfl
@[simp] theorem exec_coreTenantWrite (by_ : Sender) (c : Nat) (v : Word) (s : State) : exec (.coreTenantWrite by_ c v) s = execCoreTenantWrite by_ c v s := rfl
@[simp] theorem exec_scrubDone (c : Nat) (s : State) : exec (.scrubDone c) s = execScrubDone c s := rfl
@[simp] theorem exec_schedSubmit (by_ : Sender) (d : Nat) (s : State) : exec (.schedSubmit by_ d) s = execSchedSubmit by_ d s := rfl
@[simp] theorem exec_schedReady (by_ : Sender) (v : Word) (s : State) : exec (.schedReady by_ v) s = execSchedReady by_ v s := rfl
@[simp] theorem exec_schedCancel (by_ : Sender) (d : Nat) (s : State) : exec (.schedCancel by_ d) s = execSchedCancel by_ d s := rfl
@[simp] theorem exec_schedFree (by_ : Sender) (d : Nat) (s : State) : exec (.schedFree by_ d) s = execSchedFree by_ d s := rfl
@[simp] theorem exec_schedRangeCommit (by_ : Sender) (t : Nat) (v : Word) (s : State) : exec (.schedRangeCommit by_ t v) s = execSchedRangeCommit by_ t v s := rfl
@[simp] theorem exec_taskDispatch (u : Nat) (s : State) : exec (.taskDispatch u) s = execTaskDispatch u s := rfl
@[simp] theorem exec_taskMigrate (d : Nat) (c : Nat) (s : State) : exec (.taskMigrate d c) s = execTaskMigrate d c s := rfl
@[simp] theorem exec_taskAbort (c : Nat) (s : State) : exec (.taskAbort c) s = execTaskAbort c s := rfl
@[simp] theorem exec_schedCqPop (by_ : Sender) (t : Nat) (s : State) : exec (.schedCqPop by_ t) s = execSchedCqPop by_ t s := rfl
@[simp] theorem exec_accelJobComplete (kind : Nat) (s : State) : exec (.accelJobComplete kind) s = execAccelJobComplete kind s := rfl
@[simp] theorem exec_ingotHandover (by_ : Sender) (n : Nat) (v : Word) (s : State) : exec (.ingotHandover by_ n v) s = execIngotHandover by_ n v s := rfl
@[simp] theorem exec_drainComplete (n : Nat) (s : State) : exec (.drainComplete n) s = execDrainComplete n s := rfl
@[simp] theorem exec_ingotScrubDone (n : Nat) (s : State) : exec (.ingotScrubDone n) s = execIngotScrubDone n s := rfl
@[simp] theorem exec_retentionRequest (by_ : Sender) (g : Nat) (v : Word) (s : State) : exec (.retentionRequest by_ g v) s = execRetentionRequest by_ g v s := rfl
@[simp] theorem exec_retEntered (g : Nat) (s : State) : exec (.retEntered g) s = execRetEntered g s := rfl
@[simp] theorem exec_retWoken (g : Nat) (s : State) : exec (.retWoken g) s = execRetWoken g s := rfl
@[simp] theorem exec_ingotStarve (k : Nat) (n : Nat) (s : State) : exec (.ingotStarve k n) s = execIngotStarve k n s := rfl
@[simp] theorem exec_windowCommit (by_ : Sender) (t : Nat) (w : Nat) (v : Word) (s : State) : exec (.windowCommit by_ t w v) s = execWindowCommit by_ t w v s := rfl
@[simp] theorem exec_faultRecordClear (t : Nat) (v : Word) (s : State) : exec (.faultRecordClear t v) s = execFaultRecordClear t v s := rfl
@[simp] theorem exec_hostReadCompletion (hx : HostReader) (data : Option (List Word)) (s : State) : exec (.hostReadCompletion hx data) s = execHostReadCompletion hx data s := rfl
@[simp] theorem exec_hostReadTimeout (hx : HostReader) (s : State) : exec (.hostReadTimeout hx) s = execHostReadTimeout hx s := rfl
@[simp] theorem exec_dmaStart (by_ : Sender) (k : Nat) (s : State) : exec (.dmaStart by_ k) s = execDmaStart by_ k s := rfl
@[simp] theorem exec_dmaResume (by_ : Sender) (k : Nat) (s : State) : exec (.dmaResume by_ k) s = execDmaResume by_ k s := rfl
@[simp] theorem exec_dmaAbort (by_ : Sender) (k : Nat) (s : State) : exec (.dmaAbort by_ k) s = execDmaAbort by_ k s := rfl
@[simp] theorem exec_dmaDescFetch (k : Nat) (s : State) : exec (.dmaDescFetch k) s = execDmaDescFetch k s := rfl
@[simp] theorem exec_dmaBurst (k : Nat) (s : State) : exec (.dmaBurst k) s = execDmaBurst k s := rfl
@[simp] theorem exec_dmaDescComplete (k : Nat) (s : State) : exec (.dmaDescComplete k) s = execDmaDescComplete k s := rfl
@[simp] theorem exec_mbxHdrWrite (by_ : Sender) (t : Nat) (d : Nat) (v : Word) (s : State) : exec (.mbxHdrWrite by_ t d v) s = execMbxHdrWrite by_ t d v s := rfl
@[simp] theorem exec_mbxHdrcWrite (by_ : Sender) (t : Nat) (d : Nat) (v : Word) (s : State) : exec (.mbxHdrcWrite by_ t d v) s = execMbxHdrcWrite by_ t d v s := rfl
@[simp] theorem exec_mbxHdrTimeout (t : Nat) (d : Nat) (s : State) : exec (.mbxHdrTimeout t d) s = execMbxHdrTimeout t d s := rfl
@[simp] theorem exec_mbxDataWrite (by_ : Sender) (t : Nat) (d : Nat) (v : Word) (s : State) : exec (.mbxDataWrite by_ t d v) s = execMbxDataWrite by_ t d v s := rfl
@[simp] theorem exec_mbxPop (by_ : Sender) (t : Nat) (d : Nat) (s : State) : exec (.mbxPop by_ t d) s = execMbxPop by_ t d s := rfl
@[simp] theorem exec_mbxGo (by_ : Sender) (t : Nat) (d : Nat) (s : State) : exec (.mbxGo by_ t d) s = execMbxGo by_ t d s := rfl
@[simp] theorem exec_mbxHdrRead (by_ : Sender) (t : Nat) (d : Nat) (s : State) : exec (.mbxHdrRead by_ t d) s = execMbxHdrRead by_ t d s := rfl
@[simp] theorem exec_mbxFlush (by_ : Sender) (t : Nat) (v : Word) (s : State) : exec (.mbxFlush by_ t v) s = execMbxFlush by_ t v s := rfl
@[simp] theorem exec_evqPop (by_ : Sender) (t : Nat) (s : State) : exec (.evqPop by_ t) s = execEvqPop by_ t s := rfl
@[simp] theorem exec_evqOverflow (t : Nat) (s : State) : exec (.evqOverflow t) s = execEvqOverflow t s := rfl
@[simp] theorem exec_doorbellRing (by_ : Sender) (t : Nat) (v : Word) (s : State) : exec (.doorbellRing by_ t v) s = execDoorbellRing by_ t v s := rfl
@[simp] theorem exec_doorbellWake (by_ : Sender) (t : Nat) (s : State) : exec (.doorbellWake by_ t) s = execDoorbellWake by_ t s := rfl
@[simp] theorem exec_patchEntryWrite (by_ : Sender) (k : Nat) (d : Nat) (v : Word) (s : State) : exec (.patchEntryWrite by_ k d v) s = execPatchEntryWrite by_ k d v s := rfl
@[simp] theorem exec_routeMuteCmd (by_ : Sender) (v : Word) (s : State) : exec (.routeMuteCmd by_ v) s = execRouteMuteCmd by_ v s := rfl
@[simp] theorem exec_contributionWrite (by_ : Sender) (k : Nat) (c : Nat) (w0 : Option Word) (w1 : Option Word) (s : State) : exec (.contributionWrite by_ k c w0 w1) s = execContributionWrite by_ k c w0 w1 s := rfl
@[simp] theorem exec_sumxListWrite (by_ : Sender) (k : Nat) (n : Nat) (v : Word) (s : State) : exec (.sumxListWrite by_ k n v) s = execSumxListWrite by_ k n v s := rfl
@[simp] theorem exec_sumxSumJob  (s : State) : exec (.sumxSumJob) s = execSumxSumJob s := rfl
@[simp] theorem exec_sumxFinishJob  (s : State) : exec (.sumxFinishJob) s = execSumxFinishJob s := rfl
@[simp] theorem exec_tapPeakCapture (by_ : Sender) (k : Nat) (s : State) : exec (.tapPeakCapture by_ k) s = execTapPeakCapture by_ k s := rfl
@[simp] theorem exec_loudBlock (m : Nat) (s : State) : exec (.loudBlock m) s = execLoudBlock m s := rfl
@[simp] theorem exec_chainWrite (by_ : Sender) (c : Nat) (ix : Nat) (v : Word) (s : State) : exec (.chainWrite by_ c ix v) s = execChainWrite by_ c ix v s := rfl
@[simp] theorem exec_coefWrite (by_ : Sender) (k : Nat) (w : Nat) (v : Word) (s : State) : exec (.coefWrite by_ k w v) s = execCoefWrite by_ k w v s := rfl
@[simp] theorem exec_eqaClear (by_ : Sender) (v : Word) (s : State) : exec (.eqaClear by_ v) s = execEqaClear by_ v s := rfl
@[simp] theorem exec_eqaChainJob  (s : State) : exec (.eqaChainJob) s = execEqaChainJob s := rfl
@[simp] theorem exec_safeArm (by_ : Sender) (g : Nat) (s : State) : exec (.safeArm by_ g) s = execSafeArm by_ g s := rfl
@[simp] theorem exec_safeArmCheckDone (g : Nat) (s : State) : exec (.safeArmCheckDone g) s = execSafeArmCheckDone g s := rfl
@[simp] theorem exec_safeDisarm (by_ : Sender) (g : Nat) (s : State) : exec (.safeDisarm by_ g) s = execSafeDisarm by_ g s := rfl
@[simp] theorem exec_safeClrinc (by_ : Sender) (g : Nat) (s : State) : exec (.safeClrinc by_ g) s = execSafeClrinc by_ g s := rfl
@[simp] theorem exec_safeSwap (g : Nat) (s : State) : exec (.safeSwap g) s = execSafeSwap g s := rfl
@[simp] theorem exec_syncDone (g : Nat) (s : State) : exec (.syncDone g) s = execSyncDone g s := rfl
@[simp] theorem exec_sapInputFrame (g : Nat) (bits : Nat) (phase : Nat) (lines : List (List Nat)) (margin : List (List Nat)) (s : State) : exec (.sapInputFrame g bits phase lines margin) s = execSapInputFrame g bits phase lines margin s := rfl
@[simp] theorem exec_sapOutputFrame (g : Nat) (bad : List (List Nat)) (s : State) : exec (.sapOutputFrame g bad) s = execSapOutputFrame g bad s := rfl
@[simp] theorem exec_sapClockLoss (g : Nat) (s : State) : exec (.sapClockLoss g) s = execSapClockLoss g s := rfl
@[simp] theorem exec_madiRxFrame (p : Nat) (f : MadiFrame) (s : State) : exec (.madiRxFrame p f) s = execMadiRxFrame p f s := rfl
@[simp] theorem exec_madiRxNosig (p : Nat) (s : State) : exec (.madiRxNosig p) s = execMadiRxNosig p s := rfl
@[simp] theorem exec_madiTxFrame (p : Nat) (s : State) : exec (.madiTxFrame p) s = execMadiTxFrame p s := rfl
@[simp] theorem exec_netFrameReceive (p : Nat) (fr : List Byte) (fcsOk : Bool) (hb : Option NetHb) (s : State) : exec (.netFrameReceive p fr fcsOk hb) s = execNetFrameReceive p fr fcsOk hb s := rfl
@[simp] theorem exec_legLoss (f : Nat) (p : Nat) (s : State) : exec (.legLoss f p) s = execLegLoss f p s := rfl
@[simp] theorem exec_flowLoss (f : Nat) (s : State) : exec (.flowLoss f) s = execFlowLoss f s := rfl
@[simp] theorem exec_mediaPacketLaunch (f : Nat) (s : State) : exec (.mediaPacketLaunch f) s = execMediaPacketLaunch f s := rfl
@[simp] theorem exec_controlFrameTransmit (p : Nat) (s : State) : exec (.controlFrameTransmit p) s = execControlFrameTransmit p s := rfl
@[simp] theorem exec_flowEnable (by_ : Sender) (tx : Bool) (f : Nat) (s : State) : exec (.flowEnable by_ tx f) s = execFlowEnable by_ tx f s := rfl
@[simp] theorem exec_flowDisable (by_ : Sender) (tx : Bool) (f : Nat) (s : State) : exec (.flowDisable by_ tx f) s = execFlowDisable by_ tx f s := rfl
@[simp] theorem exec_linkUp (p : Nat) (s : State) : exec (.linkUp p) s = execLinkUp p s := rfl
@[simp] theorem exec_linkDown (p : Nat) (s : State) : exec (.linkDown p) s = execLinkDown p s := rfl
@[simp] theorem exec_heartbeat (m : SvlRx) (esc : Nat) (state : Nat) (role : Nat) (prop : Nat) (count : Nat) (phase : Int) (mcc : Int) (s : State) : exec (.heartbeat m esc state role prop count phase mcc) s = execHeartbeat m esc state role prop count phase mcc s := rfl
@[simp] theorem exec_digest (m : SvlRx) (esc : Nat) (ds : List Nat) (s : State) : exec (.digest m esc ds) s = execDigest m esc ds s := rfl
@[simp] theorem exec_fwdWrite (m : SvlRx) (a : Nat) (v : Word) (esc : Nat) (s : State) : exec (.fwdWrite m a v esc) s = execFwdWrite m a v esc s := rfl
@[simp] theorem exec_fwdTaq (m : SvlRx) (ix : Nat) (esc : Nat) (s : State) : exec (.fwdTaq m ix esc) s = execFwdTaq m ix esc s := rfl
@[simp] theorem exec_fwdMsg (m : SvlRx) (t : Nat) (ws : List Word) (esc : Nat) (s : State) : exec (.fwdMsg m t ws esc) s = execFwdMsg m t ws esc s := rfl
@[simp] theorem exec_mirror (m : SvlRx) (port : Nat) (first : Nat) (esc : Nat) (ws : List Word) (s : State) : exec (.mirror m port first esc ws) s = execMirror m port first esc ws s := rfl
@[simp] theorem exec_hostdata (m : SvlRx) (k : Nat) (burst : Nat) (ws : List Word) (s : State) : exec (.hostdata m k burst ws) s = execHostdata m k burst ws s := rfl
@[simp] theorem exec_copy (m : SvlRx) (a : Nat) (round : Nat) (ws : List Word) (s : State) : exec (.copy m a round ws) s = execCopy m a round ws s := rfl
@[simp] theorem exec_join (m : SvlRx) (es : Nat) (s : State) : exec (.join m es) s = execJoin m es s := rfl
@[simp] theorem exec_enter (m : SvlRx) (esc : Nat) (s : State) : exec (.enter m esc) s = execEnter m esc s := rfl
@[simp] theorem exec_reclaim (m : SvlRx) (esc : Nat) (s : State) : exec (.reclaim m esc) s = execReclaim m esc s := rfl
@[simp] theorem exec_switch (m : SvlRx) (esc : Nat) (s : State) : exec (.switch m esc) s = execSwitch m esc s := rfl
@[simp] theorem exec_relinquish (m : SvlRx) (esc : Nat) (s : State) : exec (.relinquish m esc) s = execRelinquish m esc s := rfl
@[simp] theorem exec_leave (m : SvlRx) (esc : Nat) (s : State) : exec (.leave m esc) s = execLeave m esc s := rfl
@[simp] theorem exec_svlRetransmit  (s : State) : exec (.svlRetransmit) s = execSvlRetransmit s := rfl
@[simp] theorem exec_linkFail  (s : State) : exec (.linkFail) s = execLinkFail s := rfl
@[simp] theorem exec_trained (lanes : Nat) (s : State) : exec (.trained lanes) s = execTrained lanes s := rfl
@[simp] theorem exec_laneDown (l : Nat) (s : State) : exec (.laneDown l) s = execLaneDown l s := rfl
@[simp] theorem exec_laneUp (l : Nat) (s : State) : exec (.laneUp l) s = execLaneUp l s := rfl
@[simp] theorem exec_linkHeartbeatLost  (s : State) : exec (.linkHeartbeatLost) s = execLinkHeartbeatLost s := rfl
@[simp] theorem exec_netHeartbeatAbsent  (s : State) : exec (.netHeartbeatAbsent) s = execNetHeartbeatAbsent s := rfl
@[simp] theorem exec_duoJoin (by_ : Sender) (p : JoinPeer) (s : State) : exec (.duoJoin by_ p) s = execDuoJoin by_ p s := rfl
@[simp] theorem exec_copyRoundEnd  (s : State) : exec (.copyRoundEnd) s = execCopyRoundEnd s := rfl
@[simp] theorem exec_lockstepEntry  (s : State) : exec (.lockstepEntry) s = execLockstepEntry s := rfl
@[simp] theorem exec_paired  (s : State) : exec (.paired) s = execPaired s := rfl
@[simp] theorem exec_joinConvergeTimeout  (s : State) : exec (.joinConvergeTimeout) s = execJoinConvergeTimeout s := rfl
@[simp] theorem exec_forwardedApply  (s : State) : exec (.forwardedApply) s = execForwardedApply s := rfl
@[simp] theorem exec_failover  (s : State) : exec (.failover) s = execFailover s := rfl
@[simp] theorem exec_primaryGoesSolo  (s : State) : exec (.primaryGoesSolo) s = execPrimaryGoesSolo s := rfl
@[simp] theorem exec_revertHoldReached  (s : State) : exec (.revertHoldReached) s = execRevertHoldReached s := rfl
@[simp] theorem exec_duoSwitch (by_ : Sender) (s : State) : exec (.duoSwitch by_) s = execDuoSwitch by_ s := rfl
@[simp] theorem exec_roleSwap  (s : State) : exec (.roleSwap) s = execRoleSwap s := rfl
@[simp] theorem exec_duoLeave (by_ : Sender) (s : State) : exec (.duoLeave by_) s = execDuoLeave by_ s := rfl
@[simp] theorem exec_departureAtF  (s : State) : exec (.departureAtF) s = execDepartureAtF s := rfl
@[simp] theorem exec_jackDetEdge (level : Bool) (s : State) : exec (.jackDetEdge level) s = execJackDetEdge level s := rfl
@[simp] theorem exec_jackInsertConfirm  (s : State) : exec (.jackInsertConfirm) s = execJackInsertConfirm s := rfl
@[simp] theorem exec_jackRemoved  (s : State) : exec (.jackRemoved) s = execJackRemoved s := rfl
@[simp] theorem exec_jackClass (zl : Nat) (zr : Nat) (ca : Nat) (cb : Nat) (s : State) : exec (.jackClass zl zr ca cb) s = execJackClass zl zr ca cb s := rfl
@[simp] theorem exec_buttonSample (code : Nat) (s : State) : exec (.buttonSample code) s = execButtonSample code s := rfl
@[simp] theorem exec_btnPress (k : Nat) (s : State) : exec (.btnPress k) s = execBtnPress k s := rfl
@[simp] theorem exec_btnRelease  (s : State) : exec (.btnRelease) s = execBtnRelease s := rfl
@[simp] theorem exec_btnLong  (s : State) : exec (.btnLong) s = execBtnLong s := rfl
@[simp] theorem exec_spkCfgWrite (by_ : Sender) (v : Word) (s : State) : exec (.spkCfgWrite by_ v) s = execSpkCfgWrite by_ v s := rfl
@[simp] theorem exec_spkTrip  (s : State) : exec (.spkTrip) s = execSpkTrip s := rfl
@[simp] theorem exec_spkSoftstartDone  (s : State) : exec (.spkSoftstartDone) s = execSpkSoftstartDone s := rfl
@[simp] theorem exec_spkRetry  (s : State) : exec (.spkRetry) s = execSpkRetry s := rfl
@[simp] theorem exec_spkAttemptsReset  (s : State) : exec (.spkAttemptsReset) s = execSpkAttemptsReset s := rfl
@[simp] theorem exec_spkFinalClear (by_ : Sender) (s : State) : exec (.spkFinalClear by_) s = execSpkFinalClear by_ s := rfl
@[simp] theorem exec_spkThermalEnter (temp : Nat) (s : State) : exec (.spkThermalEnter temp) s = execSpkThermalEnter temp s := rfl
@[simp] theorem exec_spkThermalExit (temp : Int) (s : State) : exec (.spkThermalExit temp) s = execSpkThermalExit temp s := rfl
@[simp] theorem exec_silSleep (o : Nat) (s : State) : exec (.silSleep o) s = execSilSleep o s := rfl
@[simp] theorem exec_silWake (o : Nat) (s : State) : exec (.silWake o) s = execSilWake o s := rfl
@[simp] theorem exec_ringSampleWrite (sample : Word) (slots : Nat) (s : State) : exec (.ringSampleWrite sample slots) s = execRingSampleWrite sample slots s := rfl
@[simp] theorem exec_ringCntCapture (by_ : Sender) (s : State) : exec (.ringCntCapture by_) s = execRingCntCapture by_ s := rfl
@[simp] theorem exec_fetchGo (by_ : Sender) (v : Word) (s : State) : exec (.fetchGo by_ v) s = execFetchGo by_ v s := rfl
@[simp] theorem exec_fetchComplete  (s : State) : exec (.fetchComplete) s = execFetchComplete s := rfl
@[simp] theorem exec_pcieLinkDown (kind : Nat) (s : State) : exec (.pcieLinkDown kind) s = execPcieLinkDown kind s := rfl
@[simp] theorem exec_pcieLinkUp (speed : Nat) (s : State) : exec (.pcieLinkUp speed) s = execPcieLinkUp speed s := rfl
@[simp] theorem exec_flrStart (f : Nat) (s : State) : exec (.flrStart f) s = execFlrStart f s := rfl
@[simp] theorem exec_flrComplete (f : Nat) (s : State) : exec (.flrComplete f) s = execFlrComplete f s := rfl
@[simp] theorem exec_apertureAccess (t : Nat) (o : Nat) (write : Option Word) (s : State) : exec (.apertureAccess t o write) s = execApertureAccess t o write s := rfl
@[simp] theorem exec_apertureAbort (t : Nat) (s : State) : exec (.apertureAbort t) s = execApertureAbort t s := rfl
@[simp] theorem exec_pfMsiTrigger (by_ : Sender) (v : Word) (s : State) : exec (.pfMsiTrigger by_ v) s = execPfMsiTrigger by_ v s := rfl
@[simp] theorem exec_vfMsiTrigger (by_ : Sender) (t : Nat) (v : Word) (s : State) : exec (.vfMsiTrigger by_ t v) s = execVfMsiTrigger by_ t v s := rfl
@[simp] theorem exec_bootRomStart  (s : State) : exec (.bootRomStart) s = execBootRomStart s := rfl
@[simp] theorem exec_bootPushGo (by_ : Sender) (s : State) : exec (.bootPushGo by_) s = execBootPushGo by_ s := rfl
@[simp] theorem exec_bootImageCheck (img : Option (List Byte)) (s : State) : exec (.bootImageCheck img) s = execBootImageCheck img s := rfl
@[simp] theorem exec_qspiCommand (by_ : Sender) (v : Word) (s : State) : exec (.qspiCommand by_ v) s = execQspiCommand by_ v s := rfl
@[simp] theorem exec_cmdDone (data : List Byte) (s : State) : exec (.cmdDone data) s = execCmdDone data s := rfl
@[simp] theorem exec_twbAddressMatch (a : Nat) (read : Bool) (off : Option Nat) (part : Nat) (s : State) : exec (.twbAddressMatch a read off part) s = execTwbAddressMatch a read off part s := rfl
@[simp] theorem exec_twbWriteWord (w : Word) (s : State) : exec (.twbWriteWord w) s = execTwbWriteWord w s := rfl
@[simp] theorem exec_twbReadWord  (s : State) : exec (.twbReadWord) s = execTwbReadWord s := rfl
@[simp] theorem exec_twbStop (part : Nat) (s : State) : exec (.twbStop part) s = execTwbStop part s := rfl
@[simp] theorem exec_twStretch  (s : State) : exec (.twStretch) s = execTwStretch s := rfl
@[simp] theorem exec_twbLingerExpire  (s : State) : exec (.twbLingerExpire) s = execTwbLingerExpire s := rfl
@[simp] theorem exec_twWake  (s : State) : exec (.twWake) s = execTwWake s := rfl
@[simp] theorem exec_twbDormantMatch (a : Nat) (s : State) : exec (.twbDormantMatch a) s = execTwbDormantMatch a s := rfl
@[simp] theorem exec_pwrCmdRun (by_ : Sender) (s : State) : exec (.pwrCmdRun by_) s = execPwrCmdRun by_ s := rfl
@[simp] theorem exec_pwrCmdIdle (by_ : Sender) (s : State) : exec (.pwrCmdIdle by_) s = execPwrCmdIdle by_ s := rfl
@[simp] theorem exec_pwrCmdListen (by_ : Sender) (s : State) : exec (.pwrCmdListen by_) s = execPwrCmdListen by_ s := rfl
@[simp] theorem exec_pwrCmdDormant (by_ : Sender) (s : State) : exec (.pwrCmdDormant by_) s = execPwrCmdDormant by_ s := rfl
@[simp] theorem exec_pwrKeyWrite (by_ : Sender) (v : Word) (s : State) : exec (.pwrKeyWrite by_ v) s = execPwrKeyWrite by_ v s := rfl
@[simp] theorem exec_pwrReqRun (by_ : Sender) (s : State) : exec (.pwrReqRun by_) s = execPwrReqRun by_ s := rfl
@[simp] theorem exec_idleEntry  (s : State) : exec (.idleEntry) s = execIdleEntry s := rfl
@[simp] theorem exec_idleExit  (s : State) : exec (.idleExit) s = execIdleExit s := rfl
@[simp] theorem exec_listenEntry  (s : State) : exec (.listenEntry) s = execListenEntry s := rfl
@[simp] theorem exec_listenExit  (s : State) : exec (.listenExit) s = execListenExit s := rfl
@[simp] theorem exec_dormantEntry  (s : State) : exec (.dormantEntry) s = execDormantEntry s := rfl
@[simp] theorem exec_dormantWake  (s : State) : exec (.dormantWake) s = execDormantWake s := rfl
@[simp] theorem exec_wakePinRequest (level : Bool) (s : State) : exec (.wakePinRequest level) s = execWakePinRequest level s := rfl
@[simp] theorem exec_powerOnReset (up : Bool) (s : State) : exec (.powerOnReset up) s = execPowerOnReset up s := rfl
@[simp] theorem exec_resetNReset (low : Bool) (gpio0 : Bool) (s : State) : exec (.resetNReset low gpio0) s = execResetNReset low gpio0 s := rfl
@[simp] theorem exec_supplyReset (ok : Bool) (s : State) : exec (.supplyReset ok) s = execSupplyReset ok s := rfl
@[simp] theorem exec_softwareReset  (s : State) : exec (.softwareReset) s = execSoftwareReset s := rfl
@[simp] theorem exec_fuseLoad  (s : State) : exec (.fuseLoad) s = execFuseLoad s := rfl
@[simp] theorem exec_gpioOutWrite (by_ : Sender) (v : Word) (s : State) : exec (.gpioOutWrite by_ v) s = execGpioOutWrite by_ v s := rfl
@[simp] theorem exec_gpioEdge (k : Nat) (level : Bool) (s : State) : exec (.gpioEdge k level) s = execGpioEdge k level s := rfl
@[simp] theorem exec_wdtStart (by_ : Sender) (s : State) : exec (.wdtStart by_) s = execWdtStart by_ s := rfl
@[simp] theorem exec_wdtEarly  (s : State) : exec (.wdtEarly) s = execWdtEarly s := rfl
@[simp] theorem exec_wdtServiceWrite (by_ : Sender) (v : Word) (c : Nat) (s : State) : exec (.wdtServiceWrite by_ v c) s = execWdtServiceWrite by_ v c s := rfl
@[simp] theorem exec_wdtExpiry  (s : State) : exec (.wdtExpiry) s = execWdtExpiry s := rfl
@[simp] theorem exec_watchdogReset  (s : State) : exec (.watchdogReset) s = execWatchdogReset s := rfl
@[simp] theorem exec_fuseProgGo (by_ : Sender) (s : State) : exec (.fuseProgGo by_) s = execFuseProgGo by_ s := rfl
@[simp] theorem exec_progDone  (s : State) : exec (.progDone) s = execProgDone s := rfl
@[simp] theorem exec_lcAdvanceCmd (by_ : Sender) (v : Word) (s : State) : exec (.lcAdvanceCmd by_ v) s = execLcAdvanceCmd by_ v s := rfl
@[simp] theorem exec_retireEraseDone  (s : State) : exec (.retireEraseDone) s = execRetireEraseDone s := rfl
@[simp] theorem exec_fuseBlow  (s : State) : exec (.fuseBlow) s = execFuseBlow s := rfl
@[simp] theorem exec_lcAdvance  (s : State) : exec (.lcAdvance) s = execLcAdvance s := rfl
@[simp] theorem exec_derive  (s : State) : exec (.derive) s = execDerive s := rfl
@[simp] theorem exec_extest (cells : Option (List Bool)) (s : State) : exec (.extest cells) s = execExtest cells s := rfl
@[simp] theorem exec_samplePreload (sampled : List Bool) (cells : List Bool) (s : State) : exec (.samplePreload sampled cells) s = execSamplePreload sampled cells s := rfl
@[simp] theorem exec_idcode  (s : State) : exec (.idcode) s = execIdcode s := rfl
@[simp] theorem exec_clamp  (s : State) : exec (.clamp) s = execClamp s := rfl
@[simp] theorem exec_highz  (s : State) : exec (.highz) s = execHighz s := rfl
@[simp] theorem exec_bypass  (s : State) : exec (.bypass) s = execBypass s := rfl
@[simp] theorem exec_wakereq  (s : State) : exec (.wakereq) s = execWakereq s := rfl
@[simp] theorem exec_dpacc (op : Nat) (a : Nat) (v : Word) (s : State) : exec (.dpacc op a v) s = execDpacc op a v s := rfl
@[simp] theorem exec_testLogicReset  (s : State) : exec (.testLogicReset) s = execTestLogicReset s := rfl
@[simp] theorem exec_dbgRequest (v : Word) (s : State) : exec (.dbgRequest v) s = execDbgRequest v s := rfl
@[simp] theorem exec_dbgAuthSubmit  (s : State) : exec (.dbgAuthSubmit) s = execDbgAuthSubmit s := rfl
@[simp] theorem exec_dbgChallengeExpire  (s : State) : exec (.dbgChallengeExpire) s = execDbgChallengeExpire s := rfl
@[simp] theorem exec_dbgClose  (s : State) : exec (.dbgClose) s = execDbgClose s := rfl
@[simp] theorem exec_dbgHalt (m : Nat) (s : State) : exec (.dbgHalt m) s = execDbgHalt m s := rfl
@[simp] theorem exec_dbgResume (m : Nat) (s : State) : exec (.dbgResume m) s = execDbgResume m s := rfl
@[simp] theorem exec_dbgStep (m : Nat) (s : State) : exec (.dbgStep m) s = execDbgStep m s := rfl
@[simp] theorem exec_debugReset  (s : State) : exec (.debugReset) s = execDebugReset s := rfl
@[simp] theorem exec_assayScrub  (s : State) : exec (.assayScrub) s = execAssayScrub s := rfl
@[simp] theorem exec_trackEntryExpire  (s : State) : exec (.trackEntryExpire) s = execTrackEntryExpire s := rfl
@[simp] theorem exec_quarLifted (by_ : Sender) (addr : Nat) (s : State) : exec (.quarLifted by_ addr) s = execQuarLifted by_ addr s := rfl
@[simp] theorem exec_avsMeasurement (counts : List Nat) (mv : Nat) (s : State) : exec (.avsMeasurement counts mv) s = execAvsMeasurement counts mv s := rfl
@[simp] theorem exec_thermalReading (t0 : Int) (t1 : Int) (t2 : Int) (t3 : Int) (s : State) : exec (.thermalReading t0 t1 t2 t3) s = execThermalReading t0 t1 t2 t3 s := rfl
@[simp] theorem exec_thermStop  (s : State) : exec (.thermStop) s = execThermStop s := rfl
@[simp] theorem exec_levelDwellStep  (s : State) : exec (.levelDwellStep) s = execLevelDwellStep s := rfl
@[simp] theorem exec_registerRead (by_ : Sender) (a : Nat) (s : State) : exec (.registerRead by_ a) s = execRegisterRead by_ a s := rfl
@[simp] theorem exec_storeAccepted (c : Nat) (host : Bool) (s : State) : exec (.storeAccepted c host) s = execStoreAccepted c host s := rfl
@[simp] theorem exec_samplePeriod (mic : Word) (s : State) : exec (.samplePeriod mic) s = execSamplePeriod mic s := rfl
@[simp] theorem exec_svlFrameError (k : SvlErr) (s : State) : exec (.svlFrameError k) s = execSvlFrameError k s := rfl
@[simp] theorem exec_reclaimAckTimeout  (s : State) : exec (.reclaimAckTimeout) s = execReclaimAckTimeout s := rfl
@[simp] theorem exec_hpLimit (sides : Nat) (s : State) : exec (.hpLimit sides) s = execHpLimit sides s := rfl
@[simp] theorem exec_cueSuppliesAbsent (vdd : Bool) (vdda : Bool) (s : State) : exec (.cueSuppliesAbsent vdd vdda) s = execCueSuppliesAbsent vdd vdda s := rfl
@[simp] theorem exec_dbgWaitEnd  (s : State) : exec (.dbgWaitEnd) s = execDbgWaitEnd s := rfl
@[simp] theorem exec_vfEnable (en : Bool) (num : Nat) (ari : Bool) (s : State) : exec (.vfEnable en num ari) s = execVfEnable en num ari s := rfl
@[simp] theorem exec_msixUnmask (f : Nat) (v : Option Nat) (s : State) : exec (.msixUnmask f v) s = execMsixUnmask f v s := rfl

end Sys2Proof.Machine
end

