-- ==== Sys2Proof/Laws/Rows.lean ====
section
/-!
SUPPORT. What a write from a block's own row does in a pair and to a quarantined register
(R518, R520, R672), and what it is where the block takes it at once.
-/
namespace Sys2Proof.Machine

theorem Engine.rowWrite_direct {e : Engine} {by_ : Sender} {a : Nat} {v : Word} {ws : List (Nat × Word)}
    (h : e.direct by_ a = true) (f : Engine → Engine) : e.rowWrite by_ ((a, v) :: ws) f = f e := by
  simp [Engine.rowWrite, h]

/-- The standby of a pair ignores a host's and the control core's write of paired state. -/
theorem Engine.rowWrite_standby {e : Engine} {by_ : Sender} {a : Nat} {v : Word} {ws : List (Nat × Word)}
    (hf : by_.forwards = true) (hp : pairedReg a = true) (hs : e.isStandby = true) (f : Engine → Engine) :
    e.rowWrite by_ ((a, v) :: ws) f = e.raise (duoEvt 0x0A .warn by_.hm a by_.hm) := by
  simp [Engine.rowWrite, Engine.direct, hf, hp, hs]

/-- A quarantined pair refuses what no standby ignores. -/
theorem Engine.rowWrite_frozen {e : Engine} {by_ : Sender} {a : Nat} {v : Word} {ws : List (Nat × Word)}
    (hq : e.frozen a = true) (hs : (by_.forwards && pairedReg a && e.isStandby) = false) (f : Engine → Engine) :
    e.rowWrite by_ ((a, v) :: ws) f = e.quarRefused by_ a := by
  simp_all [Engine.rowWrite, Engine.direct]

/-- The primary forwards each word. -/
theorem Engine.rowWrite_forward {e : Engine} {by_ : Sender} {a : Nat} {v : Word} {ws : List (Nat × Word)}
    (hf : by_.forwards = true) (hp : pairedReg a = true) (hq : e.frozen a = false) (hs : e.isStandby = false)
    (hw : e.forwarding = true) (f : Engine → Engine) :
    e.rowWrite by_ ((a, v) :: ws) f = ((a, v) :: ws).foldl (fun e w => e.forward by_ (.write w.1 w.2)) e := by
  simp [Engine.rowWrite, Engine.direct, hf, hp, hq, hs, hw]

theorem State.eff_row {s : State} {by_ : Sender} {a : Nat} {v : Engine → Word} {ws : List (Nat × Word)}
    (h : s.eng.direct by_ a = true) (f : Engine → Engine) :
    s.eff (fun e => e.rowWrite by_ ((a, v e) :: ws) f) = s.eff f := by
  unfold State.eff; dsimp only; rw [Engine.rowWrite_direct h]

end Sys2Proof.Machine
end

