-- ==== Sys2Proof/Tests/Slice0.lean ====
section
/-!
SUPPORT. Tests: instruction words and values of the manual's worked examples, an ill-formed
command for each check of WellFormed.lean, and for each obligation states and operands that meet
its hypotheses.
-/
namespace Sys2Proof.Tests
open Sys2Proof Sys2Proof.Machine

/-- The control core right after reset issues from the boot ROM. -/
theorem wit_control_core : State.reset.eng.runs { core := 16 } 0 true true = true := by decide

/-- AC0 with a running task. -/
def anvil : State := { State.reset with eng := State.reset.eng.setCore 0 { task := some 5 } }

theorem wit_anvil_core : anvil.eng.runs { core := 0 } 0 false true = true := by decide

/-- The control core's hallmark in MONITOR. -/
def monitor : Sender := { hm := 0xA0, agent := 16 }

/-- Tenant 0's hallmark, as its cores send it. -/
def tenant0 : Sender := { hm := 0x20, agent := 0 }

/-- The tick runs: sample `esc` of it, 16 samples a block. -/
def running (esc : Nat) (t : TickSt) : State :=
  { State.reset with eng := { State.reset.eng.put TICK_CFG_STOPPED 0 with tick := { t with esc := esc } } }

theorem wit_RegisterArithmetic : State.reset.eng.runs { core := 16 } 0 false true = true := by decide

theorem wit_RegisterShiftsAndExtremes : anvil.eng.runs { core := 0, q := 1, inv := true } 0 false true = true := by decide

theorem wit_UnaryForms : State.reset.eng.runs { core := 16 } 0 false true = true := by decide

theorem wit_ImmediateForms : State.reset.eng.runs { core := 16 } 0 true true = true ∧ (4095 : Nat) < 4096 ∧
    (State.reset.ctx 16).ext = none ∧ (31 : Nat) < 32 := by decide

theorem wit_StepAndPredicateOperations : anvil.eng.runs { core := 0 } 0 false true = true ∧
    (30 : Nat) % 2 = 0 ∧ (28 : Nat) % 4 = 0 ∧ (9 : Nat) < 10 := by decide

theorem wit_MultiplyAccumulate : anvil.eng.runs { core := 0 } 0 false true = true ∧ (0 : Nat) ≠ 16 ∧ (4 : Nat) < 5 ∧
    (30 : Nat) % 2 = 0 ∧ (6 : Nat) % 2 = 0 ∧ (15 : Nat) < 16 ∧ (2 : Nat) < 3 ∧ (1 : Nat) ≤ 64 ∧ (64 : Nat) ≤ 64 := by decide

/-- AC0 with a task and its pointers at 0x3FFF0, the last 16 bytes of its data memory. -/
def atEdge : State :=
  { State.reset with eng := State.reset.eng.setCore 0 { task := some 5, ctx := [(0, { p := [(1, 0x3FFF0#32), (2, 0x3FFF8#32)] })] } }

theorem wit_LoadsFromLocalMemory : atEdge.eng.runs { core := 0 } 0 (lsExt (.ptr 1 true)) true = true ∧
    atEdge.eng.runs { core := 0 } 0 (lsExt (.base 0 4)) true = true ∧
    atEdge.eng.access 0 ((atEdge.ctx 0).lsAddr (.ptr 1 true)) 1 false false = (.go (.mem 0x6003FFF0), atEdge.eng) ∧
    atEdge.eng.access 0 ((atEdge.ctx 0).rdP 2).toNat 2 false false = (.go (.mem 0x6003FFF8), atEdge.eng) ∧
    (atEdge.eng.coreOf 0).posted = [] := by decide

theorem wit_StoresToLocalMemory : atEdge.eng.runs { core := 0 } 0 false true = true ∧
    atEdge.eng.access 0 ((atEdge.ctx 0).lsAddr (.ptr 2 false)) 1 true false = (.go (.mem 0x6003FFF8), atEdge.eng) ∧
    atEdge.eng.access 0 ((atEdge.ctx 0).lsAddr (.ptr 2 false)) 2 true false = (.go (.mem 0x6003FFF8), atEdge.eng) := by decide

theorem wit_AccessChecks : (0x3FFFE : Nat) % (4 * 1) ≠ 0 ∧ (0x3FFFC : Nat) < 0x40000 ∧
    atEdge.eng.paramArmed (localAddr 0 0x3FFFC) = false ∧ atEdge.eng.window 0 0x40000 = none := by decide

/-- The control core waits for an LDL of the first ingot, and AC0 for its STC. -/
def atIngot : State :=
  { State.reset with eng := ((State.reset.eng.updCtx 16 fun x => x.wrG 3 0x80000000#32).put (INGOT_OWN_OWNER 0) 0x20).put (INGOT_STATE_STATE 0) 1 }

theorem wit_RemoteLoadsAndAtomics :
    atIngot.eng.runs { core := 16 } 0 false true = true ∧
    atIngot.eng.access 16 ((atIngot.ctx 16).rdG 3).toNat 1 false true = (.go (.remote 0x80000000 true), atIngot.eng) ∧
    atIngot.eng.access 16 ((atIngot.ctx 16).rdG 3).toNat 1 true true = (.go (.remote 0x80000000 true), atIngot.eng) ∧
    (atIngot.eng.coreOf 16).resv ≠ some (0x80000000 / 8 * 8) := by decide

theorem wit_BiquadStep : atEdge.eng.runs { core := 0 } 0 false true = true ∧ ((atEdge.ctx 0).rdP 1).toNat + 16 ≤ 0x40000 ∧
    ((atEdge.ctx 0).rdP 1).toNat % 8 = 0 ∧ (atEdge.ctx 0).rdL 1 = 0 ∧ atEdge.eng.bqCheck 0 0x3FFF0 = none := by decide

theorem wit_PointersAndSpecialRegisters : State.reset.eng.runs { core := 16 } 0 false true = true ∧
    State.reset.eng.runs { core := 16 } 0 true true = true ∧ State.reset.eng.runs { core := 16 } 1 false true = true ∧
    (State.reset.ctx 16).depth = 0 ∧ (14 : Nat) < 15 ∧ (12 : Nat) < 13 ∧ (0#32).toNat % 4 ≤ (State.reset.ctx 16).mode := by decide

theorem wit_CircularAddressing : 0 < ({ l := [(1, 4)] } : CoreCtx).rdL 1 ∧
    (({ l := [(1, 4)] } : CoreCtx).rdB 1).toNat + 4 * ({ l := [(1, 4)] } : CoreCtx).rdL 1 ≤ 2 ^ 32 ∧
    ({} : CoreCtx).rdL 1 = 0 := by decide

theorem wit_BranchesLoopsAndLocks : State.reset.eng.runs { core := 16 } 0 false false = true ∧
    (State.reset.eng.coreOf 16).deferred = none ∧ (State.reset.ctx 16).depth < 2 ∧ (State.reset.ctx 16).ext = none := by decide

/-- The control core with a loop level ready to be opened by LOOPS. -/
def preset : State := { State.reset with eng := State.reset.eng.updCtx 16 fun x => { x with lcnt := [(0, 3#32)], lbeg := [(0, 4#32)], lend := [(0, 4#32)] } }

theorem wit_LoopsPreset : preset.eng.runs { core := 16 } 0 false false = true ∧ (preset.ctx 16).depth < 2 ∧
    Tbl.get 0#32 (preset.ctx 16).lcnt 0 ≠ 0#32 ∧
    (Tbl.get 0#32 (preset.ctx 16).lbeg 0).toNat ≤ (Tbl.get 0#32 (preset.ctx 16).lend 0).toNat := by decide

theorem wit_LoopBack : ({ depth := 2, pc := 8, lend := [(0, 8#32), (1, 8#32)], lcnt := [(0, 2#32), (1, 1#32)] } : CoreCtx).advance.depth = 1 ∧
    ({ depth := 1, pc := 8, lend := [(0, 8#32)], lcnt := [(0, 2#32)] } : CoreCtx).advance.pc = 0 ∧
    ({ depth := 1, pc := 4, lend := [(0, 8#32)] } : CoreCtx).advance.pc = 8 := by decide

/-- AC0 waits in WFT for block 0 while the tick runs. -/
def waitingAnvil : State := { anvil with eng := (anvil.eng.put TICK_CFG_STOPPED 0).setCore 0 { task := some 5, wait := .wft, ctx := [(0, { awaited := some 0 })] } }

theorem wit_WaitingInstructions : State.reset.eng.runs { core := 16 } 0 false false = true ∧
    State.reset.eng.runs { core := 16 } 1 false true = true ∧ (State.reset.ctx 16).awaited = none ∧
    State.reset.eng.stopped = true ∧ State.reset.eng.irqPending = false ∧ (State.reset.eng.coreOf 16).posted = [] ∧
    waitingAnvil.eng.stopped = false ∧ waitingAnvil.eng.live = true ∧ (waitingAnvil.eng.coreOf 0).wait = .wft ∧
    (waitingAnvil.eng.coreOf 0).step = false ∧ (waitingAnvil.ctx 0).awaited = some 0 ∧ 0 ≤ waitingAnvil.eng.block := by decide

/-- The control core waits in WAITI with an enabled event pending. -/
def waitingControl : State := { State.reset with eng := (((State.reset.eng.wr CC_IRQ_EN 1#32).wr SYS_EVT_STATUS 1#32).setCore 16 { wait := .waiti, ctx := [(0, { mode := 2 })] }) }

theorem wit_WaitiWake : waitingControl.eng.live = true ∧ (waitingControl.eng.coreOf 16).wait = .waiti ∧
    waitingControl.eng.irqPending = true ∧ (waitingControl.eng.coreOf 16).step = false ∧
    ((waitingControl.ctx 16).ie && !(waitingControl.ctx 16).te && !(waitingControl.ctx 16).lk) = false := by decide

/-- AC0 runs task 0 of tenant 0, PENDING on its counter 0, with descriptors 0 to 7 the tenant's. -/
def taskAnvil : State := { State.reset with eng :=
  ((((State.reset.eng.wrCp (SCHED_RANGE 0) 0x00080000#32).put (dState 0) tPending).put (dDep 0 0) 1).setCore 0 { task := some 0 }) }

theorem wit_TaskInstructions : taskAnvil.eng.runs { core := 0 } 0 false false = true ∧ taskAnvil.eng.runs { core := 0 } 0 false true = true ∧
    taskAnvil.eng.schedMay (taskAnvil.eng.coreSender 0) 0 = true ∧ taskAnvil.eng.get (dState 0) = tPending ∧
    taskAnvil.eng.get (dDep 0 0) ≠ 0 ∧ (taskAnvil.eng.coreOf 0).posted = [] ∧ (taskAnvil.eng.coreOf 0).task = some 0 ∧
    (taskAnvil.withCtx 0 (taskAnvil.ctx 0).advance).eng.yieldTo 0 0 = none ∧ (taskAnvil.eng.desc 0).ending ≠ some rMissed := by decide

theorem wit_TrapEntry : (State.reset.eng.coreOf 16).step = false ∧ (State.reset.eng.coreOf 16).deferred = none ∧
    (State.reset.ctx 16).te = false ∧ (State.reset.ctx 16).mode = 2 ∧ (anvil.eng.coreOf 0).step = false ∧
    (anvil.eng.coreOf 0).deferred = none ∧ (anvil.ctx 0).te = false ∧ (anvil.eng.coreOf 0).task.isSome = true ∧
    (anvil.eng.rd (CORE_TRAP_HANDLE 0)).getLsbD 3 = false := by decide

/-- The control core in SUPER. -/
def superControl (te : Bool) : State :=
  { State.reset with eng := State.reset.eng.setCore 16 { ctx := [(0, { mode := 1, te := te })] } }

theorem wit_TrapEntrySuper : ((superControl false).ctx 16).mode ≠ 2 ∧ ((superControl false).ctx 16).te = false ∧
    ((superControl true).ctx 16).te = true ∧ ((superControl true).eng.coreOf 16).step = false := by decide

theorem wit_TrapEntryHandled : ((anvil.eng.wr (CORE_TRAP_HANDLE 0) 8#32).rd (CORE_TRAP_HANDLE 0)).getLsbD 3 = true ∧
    ((anvil.eng.updCtx 0 fun x => { x with te := true }).ctxOf 0).te = true := by decide

theorem wit_TrapInstructions : anvil.eng.runs { core := 0 } 0 false false = true ∧ anvil.eng.attached 0 = false ∧
    (superControl true).eng.runs { core := 16 } 1 false true = true ∧ ((superControl true).ctx 16).mode = 1 ∧
    ((superControl true).ctx 16).te = true ∧
    (((anvil.eng.put DBG_STATUS_LEVEL 2).wr DBG_SCOPE 1#32).attached 0) = true := by decide

theorem wit_IssueOrder : State.reset.eng.issuing 16 = true ∧ State.reset.eng.fetchable 16 0 = true ∧
    State.reset.eng.fetchable 16 0x20000000 = false ∧ State.reset.eng.issuing 0 = false ∧
    (State.reset.ctx 16).rdQ 0 ≠ false ∧ (State.reset.ctx 16).rdQ 1 = false ∧ 1 ≤ (State.reset.ctx 16).mode ∧
    (anvil.ctx 0).mode < 1 := by decide

/-- The control core in SUPER with IE set and an enabled event pending. -/
def irqControl (lk : Bool) : State := { State.reset with eng :=
  (((State.reset.eng.wr CC_IRQ_EN 1#32).wr SYS_EVT_STATUS 1#32).setCore 16 { ctx := [(0, { mode := 1, ie := true, lk := lk })] }) }

theorem wit_CoreEventsIrq : (irqControl false).awake = true ∧ (irqControl false).eng.irqPending = true ∧
    ((irqControl false).eng.coreOf 16).halted = false ∧ ((irqControl false).eng.coreOf 16).wait = .run ∧
    ((irqControl false).ctx 16).ie = true ∧ ((irqControl false).ctx 16).lk = false ∧ ((irqControl true).ctx 16).lk = true ∧
    ((irqControl true).eng.coreOf 16).deferred = none := by decide

/-- AC0 runs task 1 at priority 1; task 0, priority 0, is READY; both are tenant 0's. -/
def preemptAnvil (lk : Bool) : State := { State.reset with eng :=
  (((((((State.reset.eng.wrCp (SCHED_RANGE 0) 0x00080000#32).put SCHED_CTRL_EN 1).put (CORE_CTRL_EN 0) 1).put (dState 0) tReady).put
    (dState 1) tRunning).updDesc 0 fun x => { x with img := [0#32, 0#32, 1#32] }).updDesc 1 fun x =>
      { x with img := [0#32, 0#32, 0x01000001#32] }).setCore 0 { task := some 1, ctx := [(0, { lk := lk })] } }

theorem wit_CoreEventsPreempt : (preemptAnvil false).awake = true ∧ ((preemptAnvil false).eng.coreOf 0).task = some 1 ∧
    (preemptAnvil false).eng.on SCHED_CTRL_EN = true ∧ (preemptAnvil false).eng.get (dState 0) = tReady ∧
    imgKind ((preemptAnvil false).eng.img 0) = 0 ∧ (preemptAnvil false).eng.shedHold ((preemptAnvil false).eng.img 0) = false ∧
    (preemptAnvil false).eng.preemptCore 0 = some 0 ∧ (preemptAnvil true).eng.preemptCore 0 = some 0 ∧
    ((preemptAnvil true).ctx 0).lk = true ∧ ((preemptAnvil true).eng.coreOf 0).deferred = none := by decide

/-- The control core in a locked sequence that has deferred an interrupt since cycle 0. -/
def lockedControl (now : Nat) : State := { State.reset with eng :=
  { (State.reset.eng.setCore 16 { ctx := [(0, { mode := 1, lk := true })], deferred := some (.irq, 0) }) with now := now } }

theorem wit_CoreEventsLock : (lockedControl 32).awake = true ∧ ((lockedControl 32).eng.coreOf 16).deferred = some (.irq, 0) ∧
    ((lockedControl 32).ctx 16).lk = true ∧ 0 + 32 ≤ (lockedControl 32).eng.now ∧ (lockedControl 31).eng.now < 0 + 32 := by decide

theorem wit_CoreEventsTenant : State.reset.awake = true ∧ monitor.isCC = true ∧ (5#32).toNat % 16 ≠ State.reset.eng.coreTenant 0 ∧
    (State.reset.eng.coreOf 0).task = none ∧ (State.reset.eng.coreOf 0).pre = [] ∧ (State.reset.eng.coreOf 0).scrub = none ∧
    ((State.reset.eng.setCore 0 { scrub := some 0 }).coreOf 0).scrub = some 0 ∧ (State.reset.eng.dmaCh 0).starved = false ∧
    ((State.reset.eng.updDmaCh 0 fun x => { x with starved := true }).dmaCh 0).starved = true ∧
    State.reset.eng.direct monitor (CORE_TENANT 0) = true := by decide

theorem wit_FieldAccess : (rowAt REF_VIDEO_CFG).isSome = true ∧ (rowAt SYS_EVT_STATUS).isSome = true := by decide

theorem wit_BusAccesses : State.reset.awake = true ∧ monitor.isCC = true ∧ monitor.isDebug = false ∧
    State.reset.eng.isStandby = false ∧ State.reset.eng.forwarding = false ∧ (15 : Nat) < 16 ∧ 0xFFFF < 0x10000 ∧
    0x61100000 ≤ 0x7FFFFFFC ∧ 0x7FFFFFFC < 0x80000000 := by decide

/-- The reset engine with an even word of INGOT_OWN[0] pending since cycle 0. -/
def pendingPair (now : Nat) : State := { State.reset with eng := { State.reset.eng with
  cpPend := [(INGOT_OWN 0, some { val := 5#32, hm := 0xA0, cyc := 0 })], now := now } }

theorem wit_ComplementPairWrites : (pendingPair 63).awake = true ∧ INGOT_OWN 0 % 8 = 0 ∧ 0x40000000 ≤ INGOT_OWN 0 ∧
    INGOT_OWN 0 < 0x50000000 ∧ isPairEven (INGOT_OWN 0) = true ∧ isPairEven (INGOT_OWN 0 + 4) = false ∧
    (pendingPair 63).eng.pairBars monitor (INGOT_OWN 0) = false ∧ (pendingPair 63).eng.isStandby = false ∧
    (pendingPair 63).eng.forwarding = false ∧ (pendingPair 63).eng.frozen (INGOT_OWN 0) = false ∧
    Tbl.get none (pendingPair 63).eng.cpPend (INGOT_OWN 0) = some { val := 5#32, hm := 0xA0, cyc := 0 } ∧
    (pendingPair 63).eng.now < 0 + 64 ∧ 0 + 64 ≤ (pendingPair 64).eng.now ∧ monitor.hm = 0xA0 ∧
    ({ monitor with hm := 0x60 } : Sender).hm ≠ 0xA0 ∧ Tbl.get none State.reset.eng.cpPend (INGOT_OWN 0) = none := by decide

/-- The reset engine in lockstep, its role 1 when `standby`, INGOT_OWN[0] and CLK_TGT quarantined when `q`. -/
def pairedState (standby q : Bool) : State := State.reset.on fun e =>
  let e := (e.put DUO_CTRL_LOCKSTEP 1).put DUO_CTRL_ROLE standby.toNat
  if q then e.updAssay fun x => { x with quar := [INGOT_OWN 0, CLK_TGT] } else e

theorem wit_PairedRows : (pairedState true false).awake = true ∧ (pairedState true false).eng.isStandby = true ∧
    (pairedState false false).eng.isStandby = false ∧ (pairedState false false).eng.forwarding = true ∧ monitor.forwards = true ∧
    pairedReg (INGOT_OWN 0) = true ∧ pairedReg (taqAddr 79 3) = true ∧ pairedReg PWR_GPIO_OUT = true ∧ pairedReg TICK_CFG = true ∧
    (pairedState false false).eng.frozen (INGOT_OWN 0) = false ∧ (pairedState false true).eng.frozen (INGOT_OWN 0) = true ∧
    (pairedState false true).eng.frozen CLK_TGT = true ∧ pairedReg CLK_TGT = false ∧
    (pairedState true false).eng.direct monitor (INGOT_OWN 0) = false ∧ State.reset.eng.direct monitor (INGOT_OWN 0) = true ∧
    State.reset.eng.direct monitor CLK_TGT = true := by decide

theorem wit_EngineSampleCount : (running 5 {}).awake = true ∧ (running 5 {}).eng.mode ≠ 2 ∧
    (running 5 {}).eng.on CLK_STATUS_XFAIL = false ∧ (running 5 {}).eng.stopped = false ∧ (running 5 {}).eng.tick.stopG = none ∧
    (running 5 {}).eng.tick.safeStop = false ∧ State.reset.eng.stopped = true ∧ State.reset.eng.tick.startReq = false := by decide

theorem wit_TickControl : State.reset.awake = true ∧ (4#32).toNat % 8 = State.reset.eng.get TICK_CFG_LEN ∧
    (4#32).toNat / 16 % 2 = State.reset.eng.get TICK_CFG_RATE ∧ 6 ≤ (6#32).toNat % 8 ∧ (5#32).toNat % 8 ≠ State.reset.eng.get TICK_CFG_LEN ∧
    State.reset.eng.stopped = true ∧ (running 0 {}).eng.stopped = false ∧ State.reset.eng.on TICK_CFG_RUN = false ∧
    State.reset.eng.lc ≠ 3 ∧ State.reset.eng.lc ≠ 7 ∧ State.reset.eng.on ADAPT_STATUS_STOPPED = false ∧
    (State.reset.eng.put SEC_STATUS_LC 7).lc = 7 ∧
    State.reset.eng.direct monitor TICK_CFG = true ∧ (running 0 {}).eng.direct monitor TICK_CFG = true := by decide

/-- A run request is held; the PLL is LOCKED. -/
def heldRun : State := { State.reset with eng := (State.reset.eng.put CLK_STATUS_STATE 2).updTick fun t => { t with heldRun := true } }

theorem wit_TickControlHeld : heldRun.awake = true ∧ heldRun.eng.tick.heldRun = true ∧ heldRun.eng.get CLK_STATUS_STATE = 2 ∧
    (running 64 { stopG := some 32 }).eng.stopped = false ∧ (running 64 { stopG := some 32 }).eng.tick.stopG = some 32 ∧
    (running 64 { stopG := some 32 }).eng.tick.safeStop = false ∧ (running 64 { safeStop := true, safeHold := 64 }).eng.stopped = false ∧
    (running 64 { safeStop := true, safeHold := 64 }).eng.tick.safeHold ≤ (running 64 { safeStop := true, safeHold := 64 }).eng.tick.esc ∧
    (32 + 2 * (running 64 { stopG := some 32 }).eng.nSamp + 31) / 32 * 32 ≤ (running 64 { stopG := some 32 }).eng.tick.esc := by decide

set_option maxRecDepth 100000 in
theorem wit_TickControlRun :
    ((State.reset.eng.put TICK_CFG_RUN 1).capacityCheck).get CLK_STATUS_STATE ≠ 2 ∧
    (((State.reset.eng.put CLK_STATUS_STATE 2).put TICK_CFG_RUN 1).capacityCheck).get CLK_STATUS_STATE = 2 := by decide

theorem wit_TickAndGuardStart : (running 16 {}).awake = true ∧ (running 16 {}).eng.stopped = false ∧
    (running 16 {}).eng.tick.esc % (running 16 {}).eng.nSamp = 0 ∧ (running 16 {}).eng.tick.started ≠ some (running 16 {}).eng.block ∧
    (running 16 { started := some 1 }).eng.tick.started = some (running 16 {}).eng.block ∧
    (running 16 { started := some 1 }).eng.tick.firstBlk ≤ 0 ∧ (running 16 { started := some 1 }).eng.tick.guardBlk ≠ some 0 := by decide

/-- A ring of 64 records in ingot 0, which the control core owns, with a record lost. -/
def ringLost (wr : Nat) : State := State.reset.on fun e =>
  ((((e.wr SYS_EVR_BASE 0x80000000#32).put SYS_EVR_LEN_LOG2 6).put SYS_EVR_WR_IDX wr).wrCp (INGOT_OWN 0) 0x20#32).updTick
    fun t => { t with evrLost := 3 }

theorem wit_EventRingAndSysReset : (ringLost 0).awake = true ∧ (ringLost 0).eng.ringSize ≠ 0 ∧ (ringLost 0).eng.tick.evrLost ≠ 0 ∧
    (ringLost 0).eng.ringFull = false ∧ (ringLost 0).eng.ringOwned = true ∧ (ringLost 63).eng.ringFull = true ∧
    (6#32).toNat % 32 = 6 ∧ (16#32).toNat % 32 = 16 := by decide

/-- The key of SYS_RESET stands at step `n` for the control core, since cycle 0. -/
def keyed (n : Nat) : State := { State.reset with eng := State.reset.eng.updTick fun t => { t with key := { hm := 0xA0, step := n, cyc := 0 } } }

theorem wit_SysReset : (keyed 2).awake = true ∧ (keyed 2).eng.tick.key.step = 2 ∧ (keyed 2).eng.tick.key.hm = monitor.hm ∧
    (keyed 2).eng.tick.key.cyc ≤ (keyed 2).eng.now ∧ (keyed 2).eng.now < (keyed 2).eng.tick.key.cyc + 64 ∧
    (keyed 2).eng.lockstep = false ∧ (keyed 1).eng.tick.key.step = 1 ∧ (1#32).getLsbD 0 = true ∧ (2#32).getLsbD 0 = false := by decide

/-- The PLL in state `st` on `w`, in band units [lo, hi), a held commit and a relock as given. -/
def clocked (st w : Nat) (lo hi : Nat) (held : Option Nat) (r : Option Relock) : State := State.reset.on fun e =>
  ((e.put CLK_STATUS_STATE st).setClkWord w).updClk fun c => { c with bandLo := lo, bandHi := hi, held := held, relock := r }

def wNomWord : Nat := 100 * 2 ^ 40

/-- A relock in step `k` onto band 0. -/
def relockAt (k : Nat) (stopped : Bool) : Relock :=
  { word := wNomWord, entry := 0, oldBand := 0, tried := [0], step := k, stopped := stopped }

/-- LOCKED at 100 with band entry 1 valid from 100 to 106, code 3. -/
def banded (st : Nat) : State := (clocked st wNomWord 102000 103000 none none).on fun e =>
  ((e.wr (CLK_BAND_LO_LO 1).addr 0#32).put (CLK_BAND_LO_LO 1) 100000).put (CLK_BAND_HI_HI 1) 104000
    |>.put (CLK_BAND_LO_VALID 1) 1 |>.put (CLK_BAND_LO_CODE 1) 3

theorem wit_ClockTargets : (clocked 2 wNomWord 102000 103000 none none).awake = true ∧
    (clocked 2 wNomWord 102000 103000 none none).eng.get CLK_STATUS_STATE = 2 ∧
    (clocked 2 wNomWord 102000 103000 none none).eng.stepHeld = false ∧
    (clocked 2 wNomWord 102000 103000 none none).eng.cpOn CLK_SEL_REFDRV = false ∧
    (0x6400#32).toNat % 2 ^ 15 * 2 ^ 32 + (clocked 2 wNomWord 102000 103000 none none).eng.get CLK_TGT_LO_FRAC
      = wNomWord ∧ (clocked 2 wNomWord 102000 103000 none none).eng.clkWord = wNomWord ∧
    (clocked 2 wNomWord 102000 103000 none none).eng.clk.bandLo * 2 ^ 40 ≤ wNomWord * 1024 ∧
    wNomWord * 1024 < (clocked 2 wNomWord 102000 103000 none none).eng.clk.bandHi * 2 ^ 40 ∧
    (State.reset.eng.wrCp CLK_SEL 3#32).cpOn CLK_SEL_REFDRV = true ∧ State.reset.eng.get CLK_STATUS_STATE = 0 ∧
    State.reset.eng.lockstep = false ∧
    (clocked 2 wNomWord 102000 103000 none none).eng.direct monitor CLK_TGT = true ∧ State.reset.eng.direct monitor CLK_TGT = true := by decide

theorem wit_ClockTargetsHeld : (clocked 2 wNomWord 102000 103000 (some wNomWord) none).eng.clk.held = some wNomWord ∧
    ((State.reset.eng.updClk fun c => { c with lastApply := some 0 }).stepHeld) = true ∧
    (clocked 1 0 0 0 none none).eng.get CLK_STATUS_STATE = 1 ∧
    (clocked 4 0 0 0 none (some (relockAt 3 false))).eng.clk.relock = some (relockAt 3 false) ∧
    (relockAt 3 false).tried.length < 2 ∧ (clocked 5 0 0 0 none (some (relockAt 7 false))).eng.clk.held = none ∧
    (clocked 6 0 0 0 none none).eng.get CLK_STATUS_STATE = 6 ∧ (clocked 6 0 0 0 none none).eng.lockstep = false ∧
    ((clocked 6 0 0 0 none none).eng.put DUO_CTRL_LOCKSTEP 1).lockstep = true := by decide

theorem wit_ClockTargetsBand : (banded 6).eng.bandFor (banded 6).eng.clkWord [] = some 1 ∧
    (banded 4).eng.bandFor (relockAt 3 false).word (relockAt 3 false).tried = some 1 ∧
    State.reset.eng.bandFor wNomWord [] = none := by decide

theorem wit_ClockMonitorsAndGates : State.reset.awake = true ∧ (clocked 2 wNomWord 0 0 none none).eng.get CLK_STATUS_STATE = 2 ∧
    (((51200 * wNomWord : Nat) : Int) - (51200 * (clocked 2 wNomWord 0 0 none none).eng.clkWord : Nat)).natAbs < 103 * wNomWord ∧
    103 * wNomWord ≤ (((51303 * wNomWord : Nat) : Int) - (51200 * (clocked 2 wNomWord 0 0 none none).eng.clkWord : Nat)).natAbs ∧
    State.reset.eng.on CLK_STATUS_XFAIL = false ∧ State.reset.eng.stopped = true ∧ (1#32).getLsbD 0 = true ∧
    (0x10000#32).getLsbD 16 = true ∧ (State.reset.eng.put CLK_CAL_CTRL_BUSY 1).on CLK_CAL_CTRL_BUSY = true ∧
    ((State.reset.eng.wr CLK_GATE 1#32).rd CLK_GATE).getLsbD 0 = true ∧ State.reset.eng.unitIdle 0 = true ∧
    (State.reset.eng.setCore 0 { task := some 1 }).unitIdle 0 = false ∧
    (State.reset.eng.put CLK_STATUS_XFAIL 1).on CLK_STATUS_XFAIL = true ∧
    (State.reset.eng.put CLK_CTRL_PLL_EN 1).bandFor (State.reset.eng.put CLK_CTRL_PLL_EN 1).clkWord [] = none ∧
    ((banded 0).eng.put CLK_CTRL_PLL_EN 1).bandFor ((banded 0).eng.put CLK_CTRL_PLL_EN 1).clkWord [] = some 1 := by decide

/-- Source 1 measuring, and selected when `sel` says so. -/
def refState (sel : Nat) : State := State.reset.on fun e => ((e.put (REF_SRC_STATE_STATE 1) 1).put (REF_SRC_STATE_STATE 2) 1).put REF_STATUS_SEL sel

theorem wit_ReferenceMeasurement : (refState 7).awake = true ∧ (refState 7).eng.get (REF_SRC_STATE_STATE 1) ≠ 0 ∧
    (((refState 7).eng.putB (REF_SRC_STATE_LOS 1) false).wr (REF_SRC_PHASE 1) 0#32).get REF_STATUS_SEL ≠ 1 ∧
    (((refState 1).eng.putB (REF_SRC_STATE_LOS 1) false).wr (REF_SRC_PHASE 1) 0#32).get REF_STATUS_SEL = 1 ∧
    (4 * (((5000000 : Int) + 13107200 / 2).fmod 13107200 - 13107200 / 2) > 13107200) ∧
    (refState 7).eng.get (REF_SRC_STATE_STATE 2) ≠ 0 ∧ (1200000000#32).toInt.natAbs ≤ 1200000000 ∧
    1200000000 < (1200000001#32).toInt.natAbs ∧ ((refState 7).eng.put (REF_SRC_STATE_STATE 5) 1).get (REF_SRC_STATE_STATE 5) ≠ 0 ∧
    ((refState 7).eng.put (REF_SRC_STATE_STATE 5) 1).get (MADI_RX_STATUS_STATE (5 - 4)) ≠ 2 ∧
    ((refState 7).eng.put (MADI_RX_STATUS_STATE 0) 2).get (MADI_RX_STATUS_STATE (4 - 4)) = 2 := by decide

/-- Source 1 qualified, AUTO as given, priority 0 for every source. -/
def selectState (auto sel : Nat) : Engine :=
  ((State.reset.eng.put (REF_SRC_STATE_STATE 1) 2).put REF_STATUS_SEL sel).wrCp REF_CTRL
    (BitVec.ofNat 32 (auto * 2 ^ REF_CTRL_AUTO.lo + 1 * 2 ^ REF_CTRL_MAN_SRC.lo))

theorem wit_ReferenceSelection : (selectState 1 1).cpOn REF_CTRL_AUTO = true ∧ (selectState 1 1).get REF_STATUS_SEL = 1 ∧
    (selectState 1 1).get (REF_SRC_STATE_STATE 1) = 2 ∧ ((selectState 1 1).cpVal REF_PRIO).toNat / 2 ^ 3 % 8 ≠ 7 ∧
    (selectState 1 1).cpOn REF_CTRL_REVERT = false ∧ (selectState 1 7).refChoice = some 1 ∧ (selectState 0 7).cpOn REF_CTRL_AUTO = false ∧
    (selectState 0 7).cp REF_CTRL_MAN_SRC = 1 ∧ (selectState 1 7).on REF_STATUS_FORCED = false ∧
    ((selectState 1 1).put (REF_SRC_STATE_STATE 1) 0).refChoice = none ∧ ((selectState 1 1).put REF_STATUS_FORCED 1).on REF_STATUS_FORCED = true := by decide

theorem wit_ReferenceSteering : State.reset.awake = true ∧ ((if (refState 7).eng.ref.resel then (refState 7).eng.refSelect else (refState 7).eng).refMoved).get REF_STATUS_SEL = 7 ∧
    ((if (refState 1).eng.ref.resel then (refState 1).eng.refSelect else (refState 1).eng).refMoved).get REF_STATUS_SEL ≠ 7 ∧ (13107200#32).toInt.natAbs ≤ (13107200 : Int) ∧
    (State.reset.eng.ref.pendSw + State.reset.eng.ref.pendStep + (13107200#32).toInt * 10 ^ 12).natAbs ≤ (2 * 13107200 * 10 ^ 12 : Int) ∧
    (13107200 : Int) < (13107201#32).toInt.natAbs ∧ (State.reset.eng.updRef fun r => { r with secCnt := 1, secPart := false }).ref.secCnt ≠ 0 ∧
    (State.reset.eng.updRef fun r => { r with secCnt := 1, secPart := false }).ref.secPart = false ∧ State.reset.eng.ref.secCnt = 0 ∧
    (State.reset.eng.updRef fun r => { r with realign := true }).ref.realign = true ∧ State.reset.eng.tick.esc % State.reset.eng.nSamp = 0 ∧
    State.reset.eng.ref.realignDue = [] ∧ State.reset.eng.ref.realigned ≠ some State.reset.eng.tick.esc ∧
    State.reset.eng.get (REF_SRC_STATE_STATE 2) ≠ 2 := by decide

theorem wit_NetworkTime : State.reset.awake = true ∧
    (((((1#32).toNat % 256 : Nat) : Int) * 2 ^ 32 + (((State.reset.eng.put TIME_INCR_FRAC_FRAC 2695562581).wrCp TIME_INCR 1#32).get TIME_INCR_FRAC_FRAC : Nat)) * 384 - 625 * 2 ^ 32).natAbs * 500 ≤ 625 * 2 ^ 32 ∧
    625 * 2 ^ 32 < (((((2#32).toNat % 256 : Nat) : Int) * 2 ^ 32 + ((State.reset.eng.wrCp TIME_INCR 2#32).get TIME_INCR_FRAC_FRAC : Nat)) * 384 - 625 * 2 ^ 32).natAbs * 500 ∧
    (2#32).getLsbD 1 = true ∧ (2#32).getLsbD 0 = false ∧ (State.reset.eng.rd TIME_ADJ_NS).toNat ≤ 999999999 ∧
    (999999999#32).toInt.natAbs ≤ 999999999 ∧ 999999999 < (1000000000#32).toInt.natAbs ∧ State.reset.eng.time.txts = [] ∧
    (State.reset.eng.updTime fun t => { t with txts := [{ port := 1, mtype := 2, seq := 3, time := 4 }] }).time.txts.length = 1 ∧
    State.reset.eng.direct monitor TIME_INCR = true ∧ State.reset.eng.direct monitor TIME_ADJ_CTRL = true := by decide

/-- Entry 0 in state `st`, its CTRL `c`. -/
def taqState (st : TaqState) (c : Word) : State := State.reset.on fun e => e.updTaqEnt 0 fun x => { x with state := st, ctrl := c }

theorem wit_TimedActions : (taqState .free 0#32).awake = true ∧ monitor.isCC = true ∧
    (∀ w, w < 4 → ((taqState .free 0#32).eng.wrCp (taqAddr 0 3) 0x55#32).rd (taqAddr 0 w + 4)
      = ~~~ (((taqState .free 0#32).eng.wrCp (taqAddr 0 3) 0x55#32).rd (taqAddr 0 w))
      ∧ (taqState .free 0#32).eng.isQuar (taqAddr 0 w) = false) ∧
    State.reset.eng.taqRefusal monitor 0 { ctrl := 0x55#32 } = none ∧ ({ ctrl := 0x55#32 } : TaqEntry).action ≠ 1 ∧
    State.reset.eng.taqRefusal monitor 0 { ctrl := 0#32 } = some 1 ∧
    (((taqState .resolved 5#32).eng.wrCp (taqAddr 0 3) 0x45#32).taqEnt 0).state = .resolved ∧
    ((taqState .pending 5#32).eng.taqEnt 0).state = .pending ∧ ((taqState .pending 5#32).eng.taqEnt 0).action ≠ 1 ∧
    (running 5 {}).eng.cutoffAt = some 0 ∧
    (taqState .free 0#32).eng.direct monitor (taqAddr 0 3) = true ∧ (taqState .pending 5#32).eng.direct monitor (taqAddr 0 3) = true := by decide

theorem wit_TimedFired : ((State.reset.eng.updTaq fun q => { q with due := [{ entry := 0, esc := 0, act := .patch 0 0#32 }] }).taq.due.length = 1) ∧
    ((State.reset.eng.updTaq fun q => { q with due := [{ entry := 0, esc := 0, act := .mute 0 true 1 }] }).taq.due.length = 1) := by decide

/-- The tick runs in block 1, latched at time 0; entry 0 aims at `t` ns. -/
def aimed (lo : Nat) : Engine := ((running 16 { cutNext := 1 }).eng.updTime fun x => { x with latch := 0, latchBlk := some 1 }).updTaqEnt 0 fun x =>
  { x with state := .pending, tgtLo := BitVec.ofNat 32 lo }

theorem wit_EntryResolution : (aimed 0).isPrimary = false ∧ (aimed 0).isStandby = false ∧ (aimed 0).lockstep = false ∧ (aimed 0).stopped = false ∧
    (∀ w, w < 4 → (aimed 0).rd (taqAddr 0 w + 4) = ~~~ ((aimed 0).rd (taqAddr 0 w)) ∧ (aimed 0).isQuar (taqAddr 0 w) = false) ∧
    (aimed 0).time.latchBlk = some (aimed 0).bStar ∧ ((aimed 0).taqEnt 0).target ≤ (aimed 0).nominal (aimed 0).time.latch 15 ∧
    (aimed 999999999).nominal (aimed 999999999).time.latch 15 < ((aimed 999999999).taqEnt 0).target ∧
    ((aimed 0).updTime fun x => { x with latchBlk := none }).time.latchBlk ≠ some (aimed 0).bStar ∧
    (1000000000 * 2 ^ 32 : Int) ≤ ((aimed 0).nominal (1000000 * 2 ^ 32) 0 - ((aimed 0).taqEnt 0).target) * (aimed 0).fs := by decide

/-- Descriptors 0 to 7 are tenant 0's; descriptor 0 is in state `st` with image word CFG `cfg`; its staged words too. -/
def descState (st : Nat) (cfg : Word) : State := State.reset.on fun e =>
  ((((e.wrCp (SCHED_RANGE 0) 0x00080000#32).put SCHED_CTRL_EN 1).put (dState 0) st).wr (poolAddr 0 2) cfg).updDesc 0 fun x =>
    { x with img := [0x100#32, 0#32, cfg] }

theorem wit_DescriptorOperations : (descState 1 1#32).awake = true ∧ (descState 1 1#32).eng.schedMay tenant0 0 = true ∧
    State.reset.eng.schedMay { hm := 0x21 } 0 = false ∧ (descState 0 1#32).eng.descTenant 0 ≠ none ∧
    (descState 0 1#32).eng.submitRefusal 0 ((descState 0 1#32).eng.staged 0) = none ∧ imgStanding ((descState 0 1#32).eng.staged 0) = false ∧
    imgStanding ((descState 0 0x00800001#32).eng.staged 0) = true ∧
    (descState 5 0x00800001#32).eng.submitRefusal 0 ((descState 5 0x00800001#32).eng.staged 0) = none ∧
    (descState 0 0#32).eng.submitRefusal 0 ((descState 0 0#32).eng.staged 0) = some 3 ∧
    ((descState 1 1#32).eng.put (dDep 0 3) 1).get (dDep 0 3) ≠ 0 ∧ (descState 1 1#32).eng.get (dState 0) = tPending ∧
    (0x3000#32).toNat / 4096 % 8 = 3 ∧ tDone ≤ (descState 5 1#32).eng.get (dState 0) ∧ imgStanding ((descState 5 1#32).eng.img 0) = false ∧
    imgStanding ((descState 5 0x00800001#32).eng.img 0) = true ∧ monitor.isCC = true ∧
    (descState 1 1#32).eng.direct tenant0 SCHED_SUBMIT = true ∧ (descState 1 1#32).eng.direct tenant0 SCHED_READY = true ∧ (descState 1 1#32).eng.direct tenant0 SCHED_CANCEL = true ∧ (descState 1 1#32).eng.direct tenant0 SCHED_FREE = true := by decide

theorem wit_SchedRange : (∀ u, u < 16 → u ≠ 1 → (0x00080008#32).toNat / 2 ^ 16 % 8192 ≠ 0 → (descState 0 1#32).eng.cp (SCHED_RANGE_COUNT u) ≠ 0 →
      (0x00080008#32).toNat % 4096 + (0x00080008#32).toNat / 2 ^ 16 % 8192 ≤ (descState 0 1#32).eng.cp (SCHED_RANGE_BASE u) ∨
      (descState 0 1#32).eng.cp (SCHED_RANGE_BASE u) + (descState 0 1#32).eng.cp (SCHED_RANGE_COUNT u) ≤ (0x00080008#32).toNat % 4096) ∧
    (∀ x, x ∈ (descState 0 1#32).eng.liveDescs → (descState 0 1#32).eng.descTenant x ≠ some 1) ∧
    4096 < (0x00010FFF#32).toNat % 4096 + (0x00020FFF#32).toNat / 2 ^ 16 % 8192 ∧ Tbl.get [] State.reset.eng.sched.cq 0 = [] ∧
    (Tbl.get [] ((State.reset.eng.updSched fun x => { x with cq := [(0, [{ idx := 1, reason := 0, late := false, status := 0, bound := 0 }])] }).sched.cq) 0).length = 1 ∧
    (descState 0 1#32).eng.direct monitor (SCHED_RANGE 1) = true := by decide

/-- Descriptor 0 READY, placed on core `p`; AC0 may run tenant 0's tasks; core 1 runs task 1. -/
def readyState (p : Nat) : State := (descState 2 3#32).on fun e =>
  ((((e.put (CORE_CTRL_EN 0) 1).put SCHED_CTRL_MIGRATE 1).updDesc 0 fun x => { x with placed := some p }).setCore 1 { task := some 1 })

theorem wit_Dispatching : (readyState 0).awake = true ∧ (readyState 0).eng.on SCHED_CTRL_EN = true ∧ ((readyState 0).eng.coreOf 0).task = none ∧
    ((readyState 0).eng.coreOf 0).pre = [] ∧ (readyState 0).eng.firstTask ((readyState 0).eng.coreWork 0) = some 0 ∧
    ((readyState 0).eng.coreOf 0).freeBank = some 0 ∧ State.reset.eng.on SCHED_CTRL_EN = false ∧
    (readyState 1).eng.on SCHED_CTRL_MIGRATE = true ∧ (readyState 1).eng.lockstep = false ∧ (readyState 1).eng.get (dState 0) = tReady ∧
    imgKind ((readyState 1).eng.img 0) = 0 ∧ imgPin ((readyState 1).eng.img 0) = false ∧ ((readyState 1).eng.desc 0).placed = some 1 ∧
    ((readyState 1).eng.coreOf 1).task.isSome = true ∧ (readyState 1).eng.eligible 0 0 = true := by decide

theorem wit_DispatchingAccel : Tbl.get none (descState 2 0x00400000#32).eng.sched.accel 2 = none ∧
    ((descState 2 0x00400000#32).eng.rd CLK_GATE).getLsbD 17 = false ∧
    (descState 2 0x00400000#32).eng.firstTask ((descState 2 0x00400000#32).eng.liveDescs.filter fun d =>
      (descState 2 0x00400000#32).eng.get (dState d) == tReady && imgKind ((descState 2 0x00400000#32).eng.img d) == 2
        && !(descState 2 0x00400000#32).eng.shedHold ((descState 2 0x00400000#32).eng.img d)) = some 0 ∧
    (anvil.eng.updDesc 5 fun x => { x with ending := some 2 }).desc 5 = { ending := some 2 } ∧
    (anvil.eng.coreOf 0).task = some 5 ∧ (anvil.eng.ctxOf 0).lk = false ∧ (anvil.eng.ctxOf 0).ext = none ∧
    (eqaSteps 0#32).length ≤ 1000 ∧
    Tbl.get none ((State.reset.eng.updSched fun x => { x with accel := [(1, some 5)], step := [(1, 1000)] }).sched.accel) 1 = some 5 := by decide

/-- Ingot 0 in state `st`, its group in state `r`. -/
def ingotAt (st r : Nat) : State := State.reset.on fun e => (e.put (INGOT_STATE_STATE 0) st).put (retState 0) r

theorem wit_IngotOwnership : (ingotAt 1 0).awake = true ∧ tenant0.isCC = false ∧ monitor.isCC = true ∧ (ingotAt 2 0).eng.get (INGOT_STATE_STATE 0) = 2 ∧
    (ingotAt 1 0).eng.get (INGOT_STATE_STATE 0) ≠ 2 ∧ ownerCode ((1#32).toNat % 256) = false ∧ ownerCode ((0x30#32).toNat % 256) = true ∧
    (0x30#32).toNat % 256 ≠ (ingotAt 1 0).eng.ingotOwner 0 ∧ (ingotAt 1 0).eng.lockstep = false ∧
    (ingotAt 2 0).eng.outstanding 0 = 0 ∧ (ingotAt 2 0).eng.get (retState (0 / 8)) = 0 ∧ (ingotAt 2 0).eng.cpOn (INGOT_OWN_SCRUB 0) = false ∧
    ((ingotAt 2 0).eng.wrCp (INGOT_OWN 0) 0x10000#32).cpOn (INGOT_OWN_SCRUB 0) = true ∧ (ingotAt 3 0).eng.get (INGOT_STATE_STATE 0) = 3 ∧
    (((ingotAt 1 0).eng.put (INGOT_RET_RETAIN 0) 1).put (INGOT_RET_POLICY 0) 0).get (retState 0) = (ingotAt 1 0).eng.get (retState 0) ∧
    (((ingotAt 1 2).eng.put (INGOT_RET_RETAIN 0) 0).put (INGOT_RET_POLICY 0) 0).get (retState 0) = 2 ∧
    ((ingotAt 1 1).eng.put (INGOT_RET_RETAIN 0) 1).on (INGOT_RET_RETAIN 0) = true ∧ (∀ i, i < 8 → (ingotAt 1 1).eng.outstanding (8 * 0 + i) = 0) ∧
    (ingotAt 1 3).eng.get (retState 0) = 3 ∧ (ingotAt 1 3).eng.on (INGOT_RET_RETAIN 0) = false ∧
    (ingotAt 1 0).eng.direct monitor (INGOT_OWN 0) = true ∧ (ingotAt 1 0).eng.direct monitor (INGOT_RET 0) = true ∧ (ingotAt 1 0).eng.direct tenant0 (INGOT_OWN 0) = true := by decide

/-- Window 0 of tenant 0 staged onto ingot 0. -/
def windowState : State := State.reset.on fun e => e.wrCp (XLAT_WIN_OFF_LO 0 0) 0x80000000#32

theorem wit_Windows : windowState.awake = true ∧ windowState.eng.winRefusal 0 0 (7#32 &&& 0x13F#32) = none ∧
    State.reset.eng.winRefusal 0 0 (7#32 &&& 0x13F#32) = some 2 ∧ (7#32).getLsbD 0 = true ∧ (0x80000000#32).getLsbD 31 = true ∧
    windowState.eng.direct monitor (XLAT_WIN_CTRL 0 0) = true := by decide

/-- Window 1 of tenant 0 holds the first page, for reads. -/
def windowed : Engine := State.reset.eng.updXlat fun x => { x with act := [(1, { en := true, r := true, base := 0, limit := 0, off := 0x80000 })] }

theorem wit_Translation : (1 < 32 ∧ (Tbl.get {} windowed.xlat.act 1).en = true ∧ windowed.winQuar 0 1 = false ∧
    (Tbl.get {} windowed.xlat.act 1).base * 4096 ≤ 4095 ∧ 4095 < ((Tbl.get {} windowed.xlat.act 1).limit + 1) * 4096) ∧
    (Tbl.get {} windowed.xlat.act 1).r = true ∧ (Tbl.get {} windowed.xlat.act 1).w = false ∧ (Tbl.get {} windowed.xlat.act 0).en = false ∧
    ¬ (4096 < ((Tbl.get {} windowed.xlat.act 1).limit + 1) * 4096) := by decide

/-- Channel 0 in state `st` with hidden state `x`; window 0 of tenant 0 maps the bottom of its space onto ingot 0, which it owns. -/
def dmaState (st : Nat) (x : DmaCh) : State := State.reset.on fun e =>
  ((((e.put (DMA_CH_STATUS_STATE 0 0) st).setDmaCh 0 x).updXlat fun y => { y with
    act := [(0, { en := true, r := true, w := true, base := 0, limit := 7, off := 0x80000 })] }).put (INGOT_STATE_STATE 0) 1).wrCp
      (INGOT_OWN 0) 0x10#32 |>.put (retState 0) 0

/-- A descriptor that moves 4 bytes from 0 to 64. -/
def dmaDesc1 : List Word := [0#32, 64#32, 0x00010004#32, 0#32, 0#32, 0#32, 0#32, 0#32]

/-- A burst of one word to ingot 0 with its data. -/
def dmaBurst1 : DmaRd := { src := 0, dst := 64, spa := 0x80000000, dpa := 0x80000040, shost := false, dhost := false, bytes := 4, rows := 1, words := 1, idx := 0, data := some [1#32] }

theorem wit_DmaCommands : (dmaState 0 {}).awake = true ∧ dmaAdmits 0 tenant0 = true ∧ dmaAdmits 2 tenant0 = false ∧
    (dmaState 0 {}).eng.get (DMA_CH_STATUS_STATE 0 0) = 0 ∧ (dmaState 4 {}).eng.get (DMA_CH_STATUS_STATE 0 0) = 4 ∧
    ((dmaState 4 { desc := dmaDesc1 }).eng.dmaCh 0).desc ≠ [] ∧ ((dmaState 2 { queue := [dmaBurst1] }).eng.dmaCh 0).queue ≠ [] ∧
    ((dmaState 2 {}).eng.dmaCh 0).queue = [] ∧
    (dmaState 0 {}).eng.direct tenant0 (DMA_CH_CMD 0 0) = true ∧ (dmaState 0 {}).eng.direct tenant0 (DMA_CH_CMD 1 0) = true := by decide

set_option maxRecDepth 100000 in
theorem wit_DmaFetch : (dmaState 1 {}).eng.dmaEnd 0 ((dmaState 1 {}).eng.rd (DMA_CH_CUR 0 0)).toNat 8 false = (.go 0x80000000 false false, (dmaState 1 {}).eng) ∧
    isMemAddr 0x80000000 = true ∧ ({ desc := dmaDesc1 } : DmaCh).descOk = true ∧ ({ desc := dmaDesc1 } : DmaCh).f 5 4 1 = 0 ∧
    ({ desc := [] } : DmaCh).descOk = false ∧ 3 < ({ desc := dmaDesc1 } : DmaCh).xlen ∧ ({ desc := dmaDesc1 } : DmaCh).clen < 2 ^ 24 := by decide

set_option maxRecDepth 100000 in
theorem wit_DmaBurst : (dmaState 2 { desc := dmaDesc1, row := 1, queue := [dmaBurst1] }).eng.dmaMayIssue 0 = false ∧
    (dmaState 2 {}).eng.isStandby = false ∧ ({ desc := dmaDesc1 } : DmaCh).paired = false ∧ isMemAddr dmaBurst1.dpa = true ∧
    (dmaState 2 { desc := dmaDesc1, row := 1, queue := [dmaBurst1] }).eng.dmaPhys 0 0x80000040 1 true =
      (.go 0x80000040 false false, (dmaState 2 { desc := dmaDesc1, row := 1, queue := [dmaBurst1] }).eng) ∧
    (dmaState 2 {}).eng.bankOf 0x80000040 = none ∧ (dmaState 2 {}).eng.forwarding = false ∧
    ({ desc := dmaDesc1 } : DmaCh).ycnt ≤ 1 ∧ ({ desc := [0#32, 0#32, 0#32, 0#32, 0#32, 1#32] } : DmaCh).f 5 0 1 = 1 := by decide

/-- Tenant 0's mailbox enabled with mode bits `cfg`, direction `d` being `x`, in power mode `m`. -/
def mbxState (cfg : Word) (d : Nat) (x : MbxDir) (m : Nat) : State := State.reset.on fun e =>
  ((e.wr (MBX_CFG 0) cfg).setMdir 0 d x).put PWR_STATUS_MODE m

/-- Tenant 0's host side. -/
def host0 : Sender := { hm := 0x00, agent := 0x40 }

theorem wit_Mailboxes : (mbxState 1#32 0 {} 0).awake = true ∧ (mbxState 1#32 0 {} 0).eng.lockstep = false ∧
    (mbxState 0#32 0 {} 0).eng.on (MBX_CFG_EN 0) = false ∧ (mbxState 1#32 0 {} 0).eng.on (MBX_CFG_EN 0) = true ∧
    (mbxState 1#32 0 {} 0).eng.mSender 0 0 host0 = true ∧ (mbxState 1#32 0 {} 0).eng.mSender 0 1 host0 = false ∧
    (mbxState 1#32 0 {} 0).eng.mSender 0 1 monitor = true ∧ (mbxState 1#32 0 {} 0).eng.mReceiver 0 0 monitor = true ∧
    (mbxState 3#32 0 { full := true } 0).eng.mBlock 0 0 = true ∧ (mbxState 1#32 0 {} 0).eng.mBlock 0 0 = false ∧
    (mbxState 5#32 1 {} 0).eng.mBlock 0 1 = true ∧ (5#32 : Word).toNat / 2 ^ 16 % 256 + 2 ≤ (mbxState 5#32 1 {} 0).eng.mBlen 0 1 ∧
    (mbxState 5#32 1 {} 0).eng.mBlen 0 1 < (0x000F0000#32).toNat / 2 ^ 16 % 256 + 2 ∧
    (~~~ (~~~ 0x00010005#32)).toNat % 2 ^ 24 = (0x00010005#32).toNat % 2 ^ 24 ∧ (~~~ 5#32).toNat % 2 ^ 24 ≠ (5#32).toNat % 2 ^ 24 ∧
    (0x00010005#32).toNat / 2 ^ 16 % 256 ≠ 0 ∧ (0x00010005#32).toNat / 2 ^ 16 % 256 + 2 ≤ ({} : MbxDir).free ∧
    14 < (0x000F0005#32).toNat / 2 ^ 16 % 256 ∧ ({ fifo := List.replicate 15 0#32 } : MbxDir).free < 0 + 2 ∧
    ({ fifo := [1#32] } : MbxDir).free ≠ 0 ∧ ({ full := true } : MbxDir).blockFull = true ∧ ({} : MbxDir).blockFull = false ∧
    (mbxState 1#32 0 {} 0).eng.forwarding = false ∧ (mbxState 1#32 0 {} 0).eng.direct monitor (MBX_CTRL 0) = true ∧
    ({ fifo := List.replicate 16 0#32 } : MbxDir).free = 0 ∧ ({} : MbxDir).free ≠ 0 ∧ ({} : MbxDir).fwd < 16 ∧ (1#32).getLsbD 0 = true ∧ (1#32).getLsbD 1 = false := by decide

theorem wit_EventQueueAndDoorbells : tenant0.isTenant 0 = true ∧ tenant0.isTenant 1 = false ∧ tenant0.isCC = false ∧
    (mbxState 1#32 0 {} 0).eng.mHost 0 host0 = true ∧ (mbxState 1#32 0 {} 0).eng.direct host0 (MBX_DB_RING 0) = true ∧
    (mbxState 1#32 0 {} 0).eng.direct host0 (MBX_DB_WAKE 0) = true ∧ (mbxState 1#32 0 {} 0).eng.mHost 0 tenant0 = false ∧ hmOrigin 0x01 ≠ 2 ∧
    (mbxState 1#32 0 {} 0).eng.on (MBX_DB_MAP_V 0 15) = false ∧
    (((mbxState 1#32 0 {} 0).eng.put (MBX_DB_MAP_V 0 15) 1).put ⟨MBX_DB_PEND 0, 15, 1⟩ 1).on (MBX_DB_MAP_V 0 15) = true ∧
    (mbxState 1#32 0 {} 1).eng.get PWR_STATUS_MODE = 1 ∧ (mbxState 1#32 0 {} 0).eng.get PWR_STATUS_MODE = 0 ∧
    Tbl.get 0 (State.reset.eng.updMbx fun m => { m with evqLost := [(0, 3)] }).mbx.evqLost 0 ≠ 0 := by decide

theorem wit_MailboxesInAPair : ((pairedState true false).on fun e => e.wr (MBX_CFG 0) 1#32).eng.mSender 0 0 host0 = true ∧
    ((pairedState true false).on fun e => e.wr (MBX_CFG 0) 1#32).eng.on (MBX_CFG_EN 0) = true ∧ hmOrigin host0.hm ≠ 3 ∧ host0.forwards = true ∧
    ((pairedState false false).on fun e => (e.wr (MBX_CFG 0) 1#32).setMdir 0 0 { open_ := [1#32, 2#32], left := 1, isOpen := true }).eng.forwarding = true ∧
    (((pairedState false false).on fun e => (e.wr (MBX_CFG 0) 1#32).setMdir 0 0 { open_ := [1#32, 2#32], left := 1, isOpen := true }).eng.mdir 0 0).left = 1 := by decide

/-- Tenant 0 owns destination 0's range and chains and sections 0 to 15; the shadow is off. -/
def tabState : State := State.reset.on fun e =>
  (((e.wrCp (EQA_CRANGE 0) 0x00010000#32).wrCp (EQA_SRANGE 0) 0x00010000#32).wrCp (ROUTE_DOWN 0) 0x10#32).put SAFE_CTRL_SHADOW 0

/-- Chain 0 is enabled on section 0. -/
def chainState : State := tabState.on fun e => e.wr (chainAddr 0 0) 0x01000000#32

/-- SAFE group 0 with every scope bit, ARMED. -/
def armedState : State := chainState.on fun e => (e.wrCp (SAFE_GRP_CFG 0) 0x710#32).setGrpState 0 2 |>.updGrp 0 fun x => { x with chains := [0] }

theorem wit_AudioTableWrites : tabState.awake = true ∧ tabState.eng.destAdmits tenant0 0 = true ∧ tabState.eng.destAdmits tenant0 2047 = false ∧
    halfOk 5#32 = false ∧ halfOk 0xE0001FFF#32 = true ∧ tabState.eng.srcRefusal ((0xE0001FFF#32).toNat % 2 ^ 13) (senderTenant monitor) = none ∧
    tabState.eng.srcRefusal ((0xF0FF0F00#32).toNat % 2 ^ 13) (senderTenant monitor) = some 2 ∧ halfOk 0xF0FF0F00#32 = true ∧
    tabState.eng.get ROUTE_STATUS_BANK = 0 ∧ tabState.eng.isQuar 0x50000000 = false ∧ tabState.eng.on SAFE_CTRL_SHADOW = false ∧
    tabState.eng.armedRoute = none ∧ armedState.eng.armedRoute = some 0 ∧ (idxRange false 0).isSome = true ∧
    tabState.eng.conOwner 0 = some 0 ∧ tabState.eng.conOwner 2047 = some 0 ∧ gchkOk 0#32 = false ∧ halfOk 0x7FFF8000#32 = true ∧ (0x7FFF8000#32).getLsbD 15 = true ∧
    gchkOk 0xFF000000#32 = true ∧ tabState.eng.get SUMX_STATUS_BANK = 0 ∧ tabState.eng.armedSumx = none ∧ armedState.eng.armedSumx = some 0 ∧
    tabState.eng.listInRange 0 0x0001FFFF#32 = false ∧ tabState.eng.listInRange 0 0#32 = true ∧ tabState.eng.on (SUMX_BUS_CFG_EN 0) = false ∧
    tabState.eng.direct tenant0 (patchAddr 1 0) = true ∧ tabState.eng.direct tenant0 ROUTE_MUTE_CMD = true ∧ tabState.eng.direct tenant0 (conAddr 1 0 0) = true ∧ tabState.eng.direct tenant0 (conAddr 1 0 1) = true ∧ tabState.eng.direct tenant0 (listAddr 1 0) = true := by decide

set_option maxRecDepth 100000 in
theorem wit_ChainWrites : tabState.eng.chainOwner 0 = some 0 ∧ tabState.eng.chainOwner 2047 = some 15 ∧ tabState.eng.chainRefusal 0 0 0#32 = none ∧
    tabState.eng.chainRefusal 0 0 0x8000#32 = some 1 ∧ (tabState.eng.wrCp (listAddr 0 0) 0#32).isQuar (listAddr 0 0) = false ∧
    tabState.eng.secOwner 0 = some 0 ∧ tabState.eng.secOwner 24575 = some 15 ∧ tabState.eng.secUser 0 = none ∧ chainState.eng.secUser 0 = some 0 ∧
    chainState.eng.get (chBank 0) = 0 ∧ chainState.eng.armedChain 0 = none ∧ armedState.eng.armedChain 0 = some 0 ∧
    tabState.eng.direct tenant0 (chainAddr 0 0) = true ∧ tabState.eng.direct tenant0 (coefAddr 1 0) = true ∧ tabState.eng.direct tenant0 EQA_CLEAR = true ∧ chainState.eng.direct tenant0 (coefAddr 0 0) = true := by decide

/-- Descriptor 0 of tenant 0 is a SUMX task on bus 0 (`fin` FINISH); bus 0 is enabled and tenant 0's. -/
def sumxState (fin : Bool) (cfg : Word) : State := State.reset.on fun e =>
  (((((e.wrCp (SCHED_RANGE 0) 0x00080000#32).updDesc 0 fun x => { x with img := [if fin then 0x10000#32 else 0#32] }).updSched fun x =>
    { x with accel := [(2, some 0)] }).wr (SUMX_BUS_CFG 0) cfg))

theorem wit_SumxJobs : (sumxState false 1#32).awake = true ∧ Tbl.get none (sumxState false 1#32).eng.sched.accel 2 = some 0 ∧
    (sumxSteps (((sumxState false 1#32).eng.img 0).getD 0 0#32))[Tbl.get 0 (sumxState false 1#32).eng.sched.step 2]? = some (false, 0) ∧
    (sumxSteps (((sumxState true 1#32).eng.img 0).getD 0 0#32))[Tbl.get 0 (sumxState true 1#32).eng.sched.step 2]? = some (true, 0) ∧
    (sumxState false 1#32).eng.on (SUMX_BUS_CFG_EN 0) = true ∧ (sumxState false 0#32).eng.on (SUMX_BUS_CFG_EN 0) = false ∧
    (sumxState false 1#32).eng.descTenant 0 = some ((sumxState false 1#32).eng.busOwner 0) ∧ 0 < (sumxState false 1#32).eng.busCap ∧
    0 < State.reset.eng.nSamp := by decide

/-- Descriptor 0 of tenant 0 is an EQA task on chain 0, which is enabled when `en`, on the core of tenant 0. -/
def eqaState (en : Bool) : State := State.reset.on fun e =>
  ((((e.wrCp (SCHED_RANGE 0) 0x00080000#32).updDesc 0 fun x => { x with img := [0#32] }).updSched fun x =>
    { x with accel := [(1, some 0)] }).updChain 0 fun x => { x with cfg := if en then 0x01000000#32 else 0#32 })

theorem wit_EqaJobs : Tbl.get none (eqaState true).eng.sched.accel 1 = some 0 ∧
    (eqaSteps (((eqaState true).eng.img 0).getD 0 0#32))[Tbl.get 0 (eqaState true).eng.sched.step 1]? = some 0 ∧
    (eqaState true).eng.chainFault 0 0 ((eqaState true).eng.descTenant 0) = none ∧ (eqaState true).eng.get ADAPT_STATUS_LEVEL < 2 ∧
    (eqaState false).eng.chainFault 0 0 ((eqaState false).eng.descTenant 0) = some 2 ∧
    ({ cnt := 4800 } : LoudSt).cnt = State.reset.eng.fs / 10 ∧ (Tbl.get {} State.reset.eng.sumx.loud 0 : LoudSt).cnt = 0 := by decide

/-- Group 0 with scope `cfg` in state `st`, arming information `x`. -/
def safeState (cfg : Word) (st : Nat) (x : SafeGrp) : State := State.reset.on fun e =>
  ((e.wrCp (SAFE_GRP_CFG 0) cfg).put (SAFE_GRP_STATE_STATE 0) st).updGrp 0 fun _ => x

set_option maxRecDepth 100000 in
theorem wit_SafeLoads : (safeState 0x110#32 0 {}).awake = true ∧ (safeState 0x110#32 0 {}).eng.isStandby = false ∧
    (safeState 0x110#32 0 {}).eng.isPrimary = false ∧ (safeState 0x110#32 0 {}).eng.armEarly monitor 0 = none ∧
    (safeState 0x110#32 0 {}).eng.armEarly tenant0 0 = some 1 ∧ (safeState 0x110#32 0 {}).eng.safeMay tenant0 0 = false ∧
    (safeState 0x110#32 2 {}).eng.safeMay monitor 0 = true ∧ (safeState 0x110#32 2 {}).eng.grpState 0 = 2 ∧
    (safeState 0x110#32 1 {}).eng.armLate 0 = none ∧ ((safeState 0x110#32 1 {}).on fun e => e.updSafe fun y => { y with inc := [1] }).eng.armLate 0 = some 8 ∧
    (safeState 0x110#32 2 { at_ := some 32, fired := true }).eng.cpOn (SAFE_GRP_CFG_ROUTE 0) = true ∧
    (safeState 0x110#32 2 { at_ := some 32, fired := true }).eng.cpOn (SAFE_GRP_CFG_SUMX 0) = false ∧
    (safeState 0x110#32 2 { at_ := some 32, fired := true }).eng.scopeTenants 0 = [] ∧
    (safeState 0x410#32 3 {}).eng.cpOn (SAFE_GRP_CFG_ROUTE 0) = false ∧ (safeState 0x410#32 3 {}).eng.grpState 0 = 3 := by decide

theorem wit_SafeLoadsInAPair : (safeState 0x110#32 0 {}).eng.forwarding = false ∧ (pairedState true false).eng.isStandby = true ∧ hmOrigin monitor.hm ≠ 3 ∧
    (pairedState false false).eng.forwarding = true ∧ (pairedState false false).eng.isStandby = false ∧ monitor.forwards = true := by decide

/-- SAP is enabled, group 0 with settings `cfg` in state `st`, output line 0 with settings `ln`. -/
def sapState (cfg : Word) (st : Nat) (ln : Word) : State := State.reset.on fun e =>
  ((((e.put SAP_CTRL_EN 1).wr (SAP_GRP_CFG 0) cfg).put (SAP_GRP_STATUS_STATE 0) st).wr (lnAddr true 0) ln).updSap fun x =>
    { x with cand := [(0, some 4)] }

theorem wit_SapFrames : (sapState 1#32 2 0x11#32).awake = true ∧ (sapState 1#32 2 0x11#32).eng.grpOn 0 = true ∧ State.reset.eng.grpOn 0 = false ∧
    (sapState 1#32 2 0x11#32).eng.on (SAP_GRP_CFG_MASTER 0) = false ∧ (sapState 1#32 2 0x11#32).eng.get (SAP_GRP_STATUS_STATE 0) = 2 ∧
    (sapState 1#32 1 0x11#32).eng.get (SAP_GRP_STATUS_STATE 0) = 1 ∧ Tbl.get none (sapState 1#32 1 0x11#32).eng.sap.cand 0 = some 4 ∧
    grpBits ((sapState 1#32 2 0x11#32).eng.rd (SAP_GRP_CFG 0)) = 32 ∧ (sapState 3#32 2 0x11#32).eng.on (SAP_GRP_CFG_MASTER 0) = true ∧
    (sapState 1#32 2 0x11#32).eng.grpLines true 0 = [0] ∧ (sapState 1#32 2 0x11#32).eng.sapDrives 0 = true ∧
    (sapState 1#32 1 0x11#32).eng.sapDrives 0 = false ∧ (sapState 1#32 2 0x11#32).eng.on (SAP_OUT_STATUS_FAULT 0) = false ∧
    ((sapState 1#32 2 0x11#32).eng.put (SAP_DRV_CHECK 0) 0).on (SAP_DRV_CHECK 0) = false ∧ ([] : List (List Nat)).getD 0 [] = [] ∧ 1 < lnSlots ((sapState 1#32 2 0x11#32).eng.lnCfg true 0) := by decide

/-- MADI is enabled with both directions of port 0, the receiver in state `st` after `good` good frames. -/
def madiState (st good : Nat) : State := State.reset.on fun e =>
  ((((e.put MADI_CTRL_EN 1).wr (MADI_RX_CFG 0) 1#32).wr (MADI_TX_CFG 0) 1#32).put (MADI_RX_STATUS_STATE 0) st).updMadiRx 0 fun x =>
    { x with good := good }

theorem wit_MadiFrames : (madiState 1 1).eng.rxOn 0 = true ∧ State.reset.eng.rxOn 0 = false ∧ (madiState 1 1).eng.get (MADI_RX_STATUS_STATE 0) = 1 ∧
    ((madiState 1 1).eng.madiRx 0).good = 1 ∧ (madiState 0 0).eng.get (MADI_RX_STATUS_STATE 0) = 0 ∧ (madiState 2 0).eng.get (MADI_RX_STATUS_STATE 0) = 2 ∧
    (List.replicate 64 (none : Option Nat)).length = madiChans ((madiState 1 1).eng.get (MADI_RX_CFG_MODE 0)) ∧
    (madiState 0 0).eng.madiOn = true ∧ (madiState 0 0).eng.on (MADI_TX_CFG_EN 0) = true ∧ (madiState 0 0).eng.outEnabled = true ∧
    State.reset.eng.madiOn = false := by decide

/-- Port 0 is enabled with its link up; a ring of 16 entries in ingot 0, which CC owns; flow 0 enabled in both tables. -/
def netState (en : Word) : State := State.reset.on fun e =>
  (((((((((e.put TICK_CFG_STOPPED 0).wr (NET_CFG 0) 1#32).put (NET_STATUS_LINK 0) 1).put (INGOT_STATE_STATE 0) 1).wrCp (INGOT_OWN 0) 0x20#32).wr (NET_CTX_BASE 0) 0x80000000#32).wr
    (NET_CTX_LEN 0) 4#32).put (NET_CTX_WR_IDX 0) 1).wrCp (flowAddr true 0 14) en).wrCp (flowAddr false 0 14) en

set_option maxRecDepth 100000 in
theorem wit_NetFrames : (netState 1#32).awake = true ∧ (netState 1#32).eng.portUp 0 = true ∧ State.reset.eng.portUp 0 = false ∧
    60 ≤ (List.replicate 60 0#8).length ∧ frType (List.replicate 60 0#8) ≠ 0x8808 ∧
    (netState 1#32).eng.macOk 0 (frN (List.replicate 60 255#8) 0 6) = true ∧ (netState 1#32).eng.macOk 0 (frN (List.replicate 60 1#8) 0 6) = false ∧
    ((netState 1#32).eng.count (NET_RX_OK_COUNT 0)).mediaFlow 0 (List.replicate 60 255#8) = none ∧
    (netState 1#32).eng.on (NET_STATUS_LINK 0) = true ∧ State.reset.eng.on (NET_STATUS_LINK 0) = false ∧
    (netState 1#32).eng.ctlRingOk 0x80000000 4 = true ∧ (netState 1#32).eng.get (NET_CTX_RD_IDX 0) % 2 ^ 4 ≠ (netState 1#32).eng.get (NET_CTX_WR_IDX 0) % 2 ^ 4 ∧
    ((netState 1#32).eng.ldW 0x80000000).toNat % 2 ^ 14 < 60 ∧ (((netState 1#32).eng.stW 0x80000000 60#32).ldW 0x80000000).toNat % 2 ^ 14 = 60 ∧
    ptpEvent (List.replicate 60 0#8) = none := by decide

set_option maxRecDepth 100000 in
theorem wit_Flows : (netState 1#32).eng.flowEn true 0 = true ∧ (netState 1#32).eng.flowEn false 0 = true ∧ State.reset.eng.flowEn false 0 = false ∧
    ((netState 1#32).eng.wrCp (flowAddr false 0 14) 1#32).flowRefusal false 0 = some 1 ∧
    ((netState 1#32).eng.wr (flowAddr false 0 0) 0x00400000#32).hasLeg false 0 0 = true ∧ ((netState 1#32).eng.rxFlow 0).down0 = false ∧
    (netState 1#32).eng.fLoss 0 * (netState 1#32).eng.fs / 1000 ≤ ((netState 1#32).eng.rxFlow 0).un0 ∧ (netState 1#32).eng.get (rxState 0) ≠ 3 ∧
    (netState 1#32).eng.stopped = false ∧ (netState 1#32).eng.on ⟨flowStat true 0 0, 8, 1⟩ = false ∧
    ((netState 1#32).eng.wr (flowAddr true 0 0) 0x00400000#32).hasLeg true 0 0 = true ∧
    (let e := (netState 1#32).eng.updNet fun x => { x with txNext := Tbl.set none x.txNext 0 (some 0) }
     let e : Engine := { e with time := { e.time with t := 2 ^ 80 } }
     Tbl.get none e.net.txNext 0 = some 0 ∧ e.flowEn true 0 = true ∧ e.stopped = false ∧ e.txDue 0 0 ≤ e.time.t ∧ e.txBehind 0 0 = false) ∧
    (netState 1#32).eng.direct monitor (flowAddr true 0 14) = true ∧ (netState 1#32).eng.direct monitor (flowAddr false 0 14) = true := by decide

/-- The link is trained; the engine has role `r` in pair state `st`, in lockstep when `k`. -/
def linkState (r st : Nat) (k : Bool) : State := State.reset.on fun e =>
  ((((((((e.put SVL_STATUS_TRAINED 1).put SVL_CTRL_EN 1).put SVL_CTRL_LANE_EN 3).put DUO_CTRL_ROLE r).put DUO_CTRL_STATE st).put
    DUO_CTRL_LOCKSTEP k.toNat).put DUO_CTRL_EN 1).put TICK_CFG_STOPPED 0).updDuo fun d => { d with
      tx := [{ seq := 0, hm := 0, frame := .empty, cyc := 0, tries := 0 }] }

/-- The next frame of the pair. -/
def frame0 : SvlRx := { seq := 0 }

theorem wit_LinkFrames : (linkState 0 0 false).awake = true ∧ (linkState 0 0 false).eng.on SVL_STATUS_TRAINED = true ∧
    State.reset.eng.on SVL_STATUS_TRAINED = false ∧ frame0.pairId = (linkState 0 0 false).eng.cp DUO_CFG_PAIR_ID ∧ frame0.ack = none ∧ frame0.nak = false ∧
    frame0.seq = (linkState 0 0 false).eng.duo.rxSeq ∧ ({ seq := 1 } : SvlRx).seq ≠ (linkState 0 0 false).eng.duo.rxSeq ∧
    (linkState 0 0 false).eng.lockstep = false ∧ (linkState 0 0 false).eng.get DUO_CTRL_STATE = 0 ∧ (linkState 1 4 true).eng.lockstep = true ∧
    (linkState 1 4 true).eng.duo.digs.find? (fun x => x.1 == 0) = none ∧ (linkState 1 4 true).eng.duo.peerDigs.find? (fun x => x.1 == 0) = none ∧
    (linkState 1 1 false).eng.on DUO_CTRL_ROLE = true ∧ (linkState 1 1 false).eng.duo.plan.join = none ∧ (linkState 1 1 false).eng.get DUO_CTRL_STATE = 1 ∧
    (((linkState 1 4 true).eng.updTaqEnt 0 fun x => { x with state := .pending }).taqEnt 0).state = .pending ∧
    (List.replicate 16 0#32).length = (linkState 1 4 true).eng.nSamp ∧ ingotOf 0x80000000 = some 0 ∧ ((linkState 1 1 false).eng.wrCp (INGOT_OWN 0) 0x30#32).localIngot 0 = false ∧
    (linkState 0 0 false).eng.on DUO_CTRL_EN = true ∧ (linkState 0 0 false).eng.stopped = false ∧ (linkState 0 4 true).eng.get DUO_CTRL_STATE = 4 := by decide

theorem wit_Link : (linkState 0 0 false).eng.duo.tx.head? = some { seq := 0, hm := 0, frame := .empty, cyc := 0, tries := 0 } ∧
    (linkState 0 0 false).eng.now < 0 + 1844 ∧ 0 + 1844 ≤ ({ (linkState 0 0 false).eng with now := 5000 } : Engine).now ∧
    (linkState 0 0 false).eng.on SVL_CTRL_EN = true ∧ 1 % 4 &&& (linkState 0 0 false).eng.get SVL_CTRL_LANE_EN ≠ 0 ∧
    State.reset.eng.on SVL_CTRL_EN = false ∧ ((linkState 0 0 false).eng.put SVL_STATUS_LANE_UP 3).on ⟨SVL_STATUS, 1, 1⟩ = true ∧
    (((linkState 0 0 false).eng.put SVL_STATUS_LANE_UP 3).put ⟨SVL_STATUS, 1, 1⟩ 0).get SVL_STATUS_LANE_UP ≠ 0 ∧
    (((linkState 0 0 false).eng.put SVL_STATUS_LANE_UP 2).put ⟨SVL_STATUS, 1, 1⟩ 0).get SVL_STATUS_LANE_UP = 0 ∧
    (linkState 0 0 false).eng.on ⟨SVL_STATUS, 0, 1⟩ = false ∧ ((linkState 0 0 false).eng.get SVL_CTRL_LANE_EN).testBit 1 = true := by decide

/-- Role `r`, pair state `st`, plan `p`, heartbeats gone when `g`; block 10 is the current one. -/
def pairState (r st : Nat) (k g : Bool) (p : DuoPlan) : State := State.reset.on fun e =>
  let t := (((((e.put DUO_CTRL_ROLE r).put DUO_CTRL_STATE st).put DUO_CTRL_LOCKSTEP k.toNat).put DUO_STATUS_LINK_HB (!g).toNat).put DUO_STATUS_NET0_HB (!g).toNat)
  ({ t.updDuo fun d => { d with plan := p, convTicks := 500 } with tick := { t.tick with esc := 160 } }).snap

/-- A peer that this engine may join. -/
def peer0 : JoinPeer := { state := 0, running := true, en := true, pairId := 1, tick := (State.reset.eng.rd TICK_CFG).toNat % 256, core := (State.reset.eng.rd (CORE_MODE_INIT 0)).toNat, ref := State.reset.eng.get REF_STATUS_SEL }

theorem wit_PairHeartbeats : (pairState 0 4 true false {}).awake = true ∧ (pairState 0 1 false false {}).eng.on DUO_STATUS_LINK_HB = true ∧
    (pairState 0 1 false true {}).eng.on DUO_STATUS_LINK_HB = false ∧
    (pairState 0 4 false false {}).eng.on DUO_STATUS_LINK_HB = true ∧ (pairState 0 4 false false {}).eng.on DUO_STATUS_NET0_HB = true ∧
    (pairState 0 4 false false {}).eng.get DUO_CTRL_STATE = 4 ∧ (pairState 0 4 false false {}).eng.on DUO_STATUS_NET1_HB = false ∧
    (∀ p, p < 11 → (pairState 0 4 false false {}).eng.mirrored p = false) ∧
    (pairState 0 4 false false {}).eng.get DUO_TIMEOUT_TICKS ≤ (pairState 0 4 false false {}).eng.duo.hbAge ∧
    (pairState 0 1 false false {}).eng.get DUO_TIMEOUT_TICKS ≤ (pairState 0 1 false false {}).eng.duo.hbAge ∧
    (pairState 0 1 false false {}).eng.get DUO_TIMEOUT_TICKS ≤ (pairState 0 1 false false {}).eng.duo.nhbAge ∧
    (pairState 0 0 false false {}).eng.duo.rejoin = false ∧ (pairState 0 1 false false {}).eng.joinRefusal peer0 = some 7 ∧
    ((((pairState 0 0 false false {}).eng.put SVL_STATUS_TRAINED 1).wrCp DUO_CFG 1#32).wr DUO_NHB_ADDR 1#32).joinRefusal peer0 = none := by decide

set_option maxRecDepth 100000 in
theorem wit_PairCopy : (pairState 0 1 false false {}).eng.staticDirty = false ∧ ((pairState 0 1 false false {}).eng.stW 0x60040000 1#32).staticDirty = true ∧
    (pairState 0 1 false false {}).eng.get DUO_SYNC_ROUND < 8 ∧ 8 ≤ ((pairState 0 1 false false {}).eng.put DUO_SYNC_ROUND 8).get DUO_SYNC_ROUND ∧
    (pairState 0 2 false false { join := some 9 }).eng.duo.plan.join = some 9 ∧ 9 ≤ (pairState 0 2 false false { join := some 9 }).eng.block ∧
    (pairState 0 3 true false { paired := some 9 }).eng.duo.plan.paired = some 9 ∧ (pairState 0 3 true false {}).eng.get DUO_CTRL_STATE = 3 ∧
    (pairState 0 3 true false {}).eng.get DUO_JOIN_LIMIT * 10 ≤ 5000000 ∧ (pairState 0 4 true false {}).eng.get DUO_CTRL_STATE ≠ 2 ∧
    ((pairState 0 4 true false {}).eng.duo.items.filter (pairState 0 4 true false {}).eng.itemDue).length = 0 := by decide

theorem wit_PairRoles : (pairState 1 4 true true {}).eng.on DUO_CTRL_ROLE = true ∧ (pairState 1 4 true true {}).eng.peerGone = true ∧
    (pairState 1 4 true false {}).eng.peerGone = false ∧ (pairState 1 4 true false {}).eng.peerLeft = false ∧
    (pairState 1 3 true true {}).eng.cpOn DUO_CFG_TAKE_UNSYNCED = false ∧ (pairState 1 3 true true {}).eng.duo.lostEp = false ∧
    ((pairState 1 4 true false {}).eng.wrCp DUO_CFG 0xFFFFFFFF#32).cpOn DUO_CFG_HOME = true ∧
    ((pairState 1 4 true false {}).eng.wrCp DUO_CFG 0xFFFFFFFF#32).cpOn DUO_CFG_REVERT = true ∧
    (((pairState 1 4 true false {}).eng.put DUO_STATUS_AGREE 0xFFFF).put DUO_REVERT_HOLD_TICKS 1).get DUO_REVERT_HOLD_TICKS ≤
      (((pairState 1 4 true false {}).eng.put DUO_STATUS_AGREE 0xFFFF).put DUO_REVERT_HOLD_TICKS 1).get DUO_STATUS_AGREE ∧
    (pairState 1 4 true false { swap := some (128, true) }).eng.ownBlock 128 + 2 ≤ (pairState 1 4 true false { swap := some (128, true) }).eng.block ∧
    (pairState 1 4 true false { leave := some (8, 1) }).eng.duo.plan.leave = some (8, 1) ∧ 8 + 2 ≤ (pairState 1 4 true false {}).eng.block ∧
    (pairState 1 4 true false {}).eng.clk.departing = false := by decide

/-- The cue section is on with a headset in and its microphone biased; driver state `st`, attempts `n`. -/
def cueState (st n : Nat) (c : CueSt) : State := State.reset.on fun e =>
  { ((((((e.put CUE_CTRL_EN 1).put CUE_MIC_CFG_EN 1).put CUE_JACK_STATUS_CLASS 2).put CUE_SPK_STATUS_STATE st).put CUE_SPK_STATUS_ATTEMPTS n).put TICK_CFG_STOPPED 0) with cue := c }

theorem wit_Jack : (cueState 0 0 {}).awake = true ∧ (cueState 0 0 {}).eng.cueOn = true ∧ State.reset.eng.cueOn = false ∧
    false = (cueState 0 0 {}).eng.on CUE_JACK_CFG_POL ∧ (cueState 0 0 { deb := some true }).eng.cue.deb = some true ∧ (cueState 0 0 {}).eng.cue.deb ≠ some true ∧
    (cueState 0 0 { deb := some false }).eng.cue.deb = some false ∧ (cueState 0 0 { class_ := true }).eng.cue.class_ = true ∧ (cueState 0 0 {}).eng.cue.class_ = false ∧
    jackClassOf 32000 32000 0 0 = 1 ∧ jackClassOf 32000 32000 100 0 = 2 ∧ jackClassOf 32000 32000 0 100 = 3 ∧ jackClassOf 1000000 1000000 0 0 = 4 := by decide

theorem wit_Buttons : (cueState 0 0 {}).eng.biased = true ∧ State.reset.eng.biased = false ∧ (cueState 0 0 {}).eng.get CUE_BTN_STATUS_BTN = 0 ∧
    (cueState 0 0 {}).eng.get CUE_BTN_CFG_DEBOUNCE ≤ Tbl.get 0 (cueState 0 0 { seen := [(3, 100)] }).eng.cue.seen 3 ∧
    ((cueState 0 0 {}).eng.get CUE_LISTEN_WAKE_BTN).testBit 3 = false ∧ Tbl.get 0 (cueState 0 0 {}).eng.cue.seen 3 < (cueState 0 0 {}).eng.get CUE_BTN_CFG_DEBOUNCE ∧
    (cueState 0 0 {}).eng.get CUE_BTN_CFG_DEBOUNCE ≤ (cueState 0 0 { clear := 100 }).eng.cue.clear ∧
    ((cueState 0 0 {}).eng.put CUE_BTN_STATUS_BTN 8).get CUE_BTN_STATUS_BTN = 2 ^ 3 ∧ (cueState 0 0 {}).eng.cue.long = false ∧
    100 * (cueState 0 0 {}).eng.get CUE_BTN_CFG_LONG ≤ 100000 := by decide

theorem wit_Loudspeaker : (cueState 1 6 {}).eng.get CUE_SPK_STATUS_STATE = 1 ∧ (cueState 1 6 {}).eng.get CUE_SPK_STATUS_ATTEMPTS < 7 ∧
    7 ≤ (cueState 2 7 {}).eng.get CUE_SPK_STATUS_ATTEMPTS ∧ (cueState 4 0 {}).eng.get CUE_SPK_STATUS_STATE = 4 ∧ (cueState 4 0 {}).eng.cue.hot = false ∧
    (cueState 5 0 {}).eng.get CUE_SPK_STATUS_STATE = 5 ∧ (cueState 6 0 {}).eng.get CUE_SPK_STATUS_STATE = 6 ∧
    ((cueState 2 0 {}).eng.put CUE_HP_CFG_EN 1).hpReady = true ∧ (cueState 2 0 {}).eng.hpReady = false ∧
    (cueState 2 0 {}).eng.on CUE_OUT_STATUS_HP_LIMIT = false := by decide

theorem wit_SilenceAndRing : ((cueState 2 0 { sil := [(1, { quiet := 200000000 })] }).eng.put (CUE_SIL_CFG_EN 1) 1).on (CUE_SIL_CFG_EN 1) = true ∧
    (cueState 2 0 {}).eng.cueOutOn 1 = true ∧ (cueState 2 0 {}).eng.get (CUE_SIL_CFG_TIME 1) * (cueState 2 0 {}).eng.fs ≤ 200000000 ∧
    ((cueState 2 0 { sil := [(1, { fade := some 3, loud := some 7 })] }).eng.silOf 1).loud = some 7 ∧
    State.reset.eng.on CUE_LISTEN_RING_EN = false ∧ ((cueState 2 0 {}).eng.put CUE_LISTEN_RING_EN 1).on CUE_LISTEN_RING_EN = true ∧
    ((((cueState 2 0 {}).eng.wr CUE_RING_BASE 0x80000000#32).wrCp (INGOT_OWN 0) 0x46#32).put (INGOT_STATE_STATE 0) 1).blockAccess 0x46 0x80000000 = true ∧
    (cueState 2 0 {}).eng.pwr.dormant = false ∧ (cueState 2 0 {}).eng.listenMay monitor = true ∧ (cueState 2 0 {}).eng.listenMay { hm := 0x21 } = false ∧
    (cueState 2 0 {}).eng.fetchRefusal = none ∧ (cueState 2 0 { ringCnt := 40000 }).eng.fetchRefusal = some 4 := by decide

/-- The link is up with VFs 0 to 3 enabled; the PCIe state is `p`. -/
def linkedState (p : PcieSt) : State := State.reset.on fun e =>
  { (e.put PCIE_STATUS_LINK_UP 1).put PCIE_STATUS_VF_EN 15 with pcie := p }

theorem wit_HostLink : (linkedState {}).awake = true ∧ (linkedState {}).eng.on PCIE_STATUS_LINK_UP = true ∧ State.reset.eng.on PCIE_STATUS_LINK_UP = false ∧
    State.reset.eng.pcie.boot.lost = false ∧ ((linkedState {}).eng.get PCIE_STATUS_VF_EN).testBit 3 = true ∧
    ((linkedState {}).eng.get PCIE_STATUS_VF_EN).testBit 15 = false ∧ ((linkedState {}).eng.get PCIE_FLR_PEND_VF).testBit 3 = false ∧
    (((linkedState {}).eng.put ⟨PCIE_FLR_PEND, 3, 1⟩ 1).get PCIE_FLR_PEND_VF).testBit 3 = true ∧ (linkedState {}).eng.on PCIE_FLR_PEND_PF = false ∧
    ((linkedState {}).eng.put PCIE_FLR_PEND_PF 1).on PCIE_FLR_PEND_PF = true ∧ (linkedState {}).eng.funcUp 3 = true ∧ (linkedState {}).eng.funcUp 4 = false ∧
    monitor.isCC = true ∧ tenant0.isCC = false := by decide

set_option maxRecDepth 100000 in
theorem wit_TenantPage : pageMap 3 0x4600 = some (PCIE_VF_APERTURE 3) ∧ pageMap 3 0x3FC = some 0x400933FC ∧ (linkedState {}).eng.engineWindow 3 0 = none ∧
    ((linkedState {}).eng.updXlat fun x => { x with act := [(96, { en := true, base := 0, limit := 7, r := true, w := false })] }).engineWindow 3 0x4000
      = some { en := true, base := 0, limit := 7, r := true, w := false } ∧
    (linkedState { ap := [{ tenant := 3, off := 0x8000, va := 0, write := none, twb := false }] }).eng.pcie.ap.find?
      (fun x => x.tenant == 3 && !x.twb && x.write.isNone) = some { tenant := 3, off := 0x8000, va := 0, write := none, twb := false } := by decide

/-- The boot ROM stands in state `st`. -/
def bootState (st : Nat) (b : BootSt) : State := State.reset.on fun e =>
  { (e.put FUSE_STATUS_LOADED 1).put PCIE_BOOT_STATUS_STATE st with pcie := { boot := b } }

/-- A plain image of 16 zero bytes for the control core's instruction memory. -/
def plainImage : List Byte :=
  [0x9E, 0x1A, 0x16, 0x96, 1, 0, 0, 0, 16, 0, 0, 0, 0, 0, 4, 0x61, 0, 0, 4, 0x61] ++ List.replicate 252 0

set_option maxRecDepth 100000 in
theorem wit_BootImage : imgFormat plainImage = true ∧ (bootState 2 { rom := true }).eng.imgCheck plainImage = none ∧ 256 ≤ plainImage.length ∧
    imgLe plainImage 6 2 % 2 = 0 ∧ (bootState 2 { rom := true }).eng.imgCheck (plainImage.set 0 0) = some 1 ∧
    (bootState 2 { rom := true }).eng.imgCheck (plainImage.take 271) = some 8 := by decide

theorem wit_Boot : (bootState 0 {}).awake = true ∧ (bootState 0 {}).eng.on FUSE_STATUS_LOADED = true ∧ State.reset.eng.on FUSE_STATUS_LOADED = false ∧
    (bootState 0 {}).eng.lc = 0 ∧ ((bootState 0 {}).eng.put SEC_STATUS_LC 3).lc = 3 ∧ ((bootState 0 {}).eng.put SEC_STATUS_LC 7).lc = 7 ∧
    (bootState 0 {}).eng.get PWR_RESET_CAUSE_LAST ≠ 7 ∧ (bootState 4 { rom := true, serve := true }).eng.get PCIE_BOOT_STATUS_STATE = 4 ∧
    Sender.isPF { hm := 0x40, agent := 0x41 } = true ∧ (bootState 0 {}).eng.on QSPI_STATUS_BUSY = false ∧
    ((bootState 0 {}).eng.put QSPI_STATUS_BUSY 1).on QSPI_STATUS_BUSY = true ∧ ((bootState 0 {}).eng.put QSPI_CTRL_EN 1).on QSPI_CTRL_EN = true ∧
    ((bootState 0 {}).eng.put QSPI_CMD_WRITE 1).on QSPI_CMD_WRITE = true ∧ (bootState 0 {}).eng.on QSPI_CMD_WRITE = false := by decide

/-- The two-wire target is enabled at address 0x40 for tenant 2, in mode `m`. -/
def twbState (m : Nat) (t : TwbSt) : State := State.reset.on fun e =>
  { ((((e.put TWB_CTRL_EN 1).put TWB_CTRL_ACCEPT 1).wr (TWB_ADDR 0) 0x2140#32).put PWR_STATUS_MODE m) with twb := t }

/-- A transaction to tenant 2's page. -/
def twbTxn (read : Bool) (off : Option Nat) (held : Option (Nat × Word)) (waits : Bool) : TwbTxn :=
  { addr := 0x40, tenant := 2, win := false, read := read, off := off, held := held, waits := waits }

theorem wit_TwoWireMatch : (twbState 0 {}).awake = true ∧ (twbState 0 {}).eng.twb.txn = none ∧ State.reset.eng.on TWB_CTRL_EN = false ∧
    (twbState 0 {}).eng.on TWB_CTRL_EN = true ∧ twbFind ((twbState 0 {}).eng.on TWB_CFG_MASKED) (twbState 0 {}).eng.twbWords 0x40 = some (0x2140#32, 2) ∧
    twbFind ((twbState 0 {}).eng.on TWB_CFG_MASKED) (twbState 0 {}).eng.twbWords 0x41 = none ∧ (twbState 0 {}).eng.on TWB_CTRL_ACCEPT = true ∧
    ((twbState 0 {}).eng.put TWB_CTRL_ACCEPT 0).on TWB_CTRL_ACCEPT = false ∧ (twbState 2 {}).eng.mode = 2 ∧ (twbState 2 {}).eng.twb.awake = false ∧
    (twbState 0 {}).eng.mode ≠ 2 := by decide

theorem wit_TwoWireWords : (twbState 0 { txn := some (twbTxn false (some 0x100) none false) }).eng.twb.txn = some (twbTxn false (some 0x100) none false) ∧
    0x104 % 8 ≠ 0 ∧ twbReach false 0x2100 = false ∧ twbReach false 0x20FC = true ∧ (twbState 0 {}).eng.twbRefused 2 0x20FC = false ∧
    (twbState 0 {}).eng.twbRefused 2 0x100 = true ∧ ((twbState 0 {}).eng.twbPut (twbTxn false none none false) 0x2100 0#32).twb.hold = false := by decide

/-- A wait for tenant 2's aperture. -/
def twbWait (write : Option Word) : ApWait := { tenant := 2, off := 0x8000, va := 0, write := write, twb := true }

theorem wit_TwoWireStretch : (State.reset.eng.updPcie fun p => { p with ap := [twbWait none] }).pcie.ap.find? (fun w => w.twb && w.write.isNone) = some (twbWait none) ∧
    (State.reset.eng.updPcie fun p => { p with ap := [twbWait (some 0#32)] }).pcie.ap.any (·.twb) = true := by decide

theorem wit_TwoWireDormant : (twbState 0 {}).eng.on PWR_CFG_TWB_WAKE = false ∧ ((twbState 0 {}).eng.put PWR_CFG_TWB_WAKE 1).on PWR_CFG_TWB_WAKE = true ∧
    ((twbState 0 {}).eng.updPwr fun p => { p with dormant := true }).pwr.off = false := by decide

/-- The engine is in mode `m` with the power state `p`; the ring runs in ingot 0's group, which LISTEN keeps; STOPPED is `st`. -/
def powerState (m st : Nat) (p : PwrSt) : State := State.reset.on fun e =>
  { ((((e.put PWR_STATUS_MODE m).put TICK_CFG_STOPPED st).put CUE_LISTEN_RING_EN 1).wr CUE_RING_BASE 0x80000000#32).wr PWR_LISTEN_KEEP 1#32 with pwr := p }

/-- The key of PWR_CMD, complete. -/
def powerKey : KeySt := ((KeySt.write {} 0xD02A 0x2FD5 monitor.hm 0 0x0000D02A#32).write 0xD02A 0x2FD5 monitor.hm 0 0x00002FD5#32)

theorem wit_PowerCommands : (powerState 0 0 {}).awake = true ∧ (powerState 0 0 {}).eng.mode = 0 ∧ (powerState 1 0 {}).eng.mode = 1 ∧ (powerState 2 1 {}).eng.mode = 2 ∧
    (powerState 0 0 {}).eng.lockstep = false ∧ (State.reset.eng.put DUO_CTRL_LOCKSTEP 1).lockstep = true ∧ (powerState 0 0 {}).eng.on DBG_CTRL_PWR_HOLD = false ∧
    ((powerState 0 0 {}).eng.put DBG_CTRL_PWR_HOLD 1).on DBG_CTRL_PWR_HOLD = true ∧ State.reset.eng.on CUE_LISTEN_RING_EN = false ∧
    (powerState 0 0 {}).eng.on CUE_LISTEN_RING_EN = true ∧ ingotOf ((powerState 0 0 {}).eng.rd CUE_RING_BASE).toNat = some 0 ∧
    ((powerState 0 0 {}).eng.rd PWR_LISTEN_KEEP).getLsbD (0 / 8) = true ∧ (State.reset.eng.wr PWR_LISTEN_KEEP 2#32).rd PWR_LISTEN_KEEP ≠ 1#32 ∧
    powerKey.ok monitor.hm 0 = true ∧ KeySt.ok {} monitor.hm 0 = false ∧ (powerState 0 0 {}).eng.listenPath monitor = false := by decide

theorem wit_PowerTransitions : (powerState 0 0 {}).eng.stopped = false ∧ (powerState 0 1 {}).eng.stopped = true ∧
    ((List.range 16).any fun c => ((powerState 0 0 {}).eng.rd PWR_IDLE_CORES).getLsbD c && (powerState 0 0 {}).eng.coreBusy c) = false ∧
    ((List.range 16).any fun c => (anvil.eng.rd PWR_IDLE_CORES).getLsbD c && anvil.eng.coreBusy c) = true ∧
    (powerState 0 0 {}).eng.dbg.level = none ∧ (powerState 0 0 {}).eng.on PWR_CFG_WAKE_EN = false ∧
    ((powerState 0 0 {}).eng.put PWR_CFG_WAKE_EN 1).on PWR_CFG_WAKE_EN = true ∧ (powerState 0 0 {}).eng.on PWR_CFG_WAKE_POL = true ∧
    (((powerState 0 0 {}).eng.put PWR_CFG_IDLE_AUTO 1).put CUE_SIL_CTRL_IDLE_REQ 1).cueIdle = true ∧
    (((powerState 0 0 {}).eng.put PWR_CFG_IDLE_AUTO 1).put CUE_SIL_CTRL_IDLE_REQ 1).on PWR_CFG_IDLE_AUTO = true := by decide

/-- The power state `p`, with the watchdog's WDT_COUNT at 100. -/
def resetState (p : PwrSt) : State := State.reset.on fun e => { (e.put WDT_CTRL_RUNNING 1).put WDT_COUNT_COUNT 100 with pwr := p }

theorem wit_Resets : (resetState { off := true }).eng.pwr.off = true ∧ (resetState { off := true }).awake = false ∧ (resetState {}).awake = true ∧
    (resetState { rstLow := true }).eng.pwr.rstLow = true ∧ (resetState {}).eng.pwr.supply = true ∧ (resetState {}).eng.resetReq = none ∧
    State.awake (State.reset.on fun e => { e with resetReq := some 4 }) = true ∧ State.reset.eng.lockstep = false ∧
    State.awake (State.reset.on fun e => { e.put DUO_CTRL_LOCKSTEP 1 with resetReq := some 4 }) = true ∧
    (State.reset.on fun e => { e.put DUO_CTRL_LOCKSTEP 1 with resetReq := some 4 }).eng.lockstep = true ∧
    (resetState { wdt := { pulse := some 2 } }).eng.pwr.wdt.pulse = some 2 ∧
    ((resetState {}).eng.resetWith 7).rd WDT_COUNT = 100#32 ∧ ((resetState {}).eng.resetWith 2).rd WDT_COUNT = 0#32 := by decide

theorem wit_Watchdog : (resetState {}).eng.wdtRuns = true ∧ State.reset.eng.wdtRuns = false ∧ (resetState {}).eng.on WDT_CTRL_RUNNING = true ∧
    State.reset.eng.on WDT_FUSES_HWSTART = false ∧ (resetState {}).eng.on WDT_STATUS_KEY_PEND = false ∧
    ((resetState {}).eng.put WDT_STATUS_KEY_PEND 1).on WDT_STATUS_KEY_PEND = true ∧ max 100 ((resetState {}).eng.get WDT_COUNT_COUNT) < (resetState {}).eng.pwr.wdt.period ∧
    (resetState {}).eng.pwr.wdt.period ≤ max 65536 ((resetState {}).eng.get WDT_COUNT_COUNT) ∧ (resetState {}).eng.wdtOpen ≤ 100 ∧
    100 < ((resetState {}).eng.put WDT_FUSES_WIN 2).wdtOpen ∧ (resetState {}).eng.on DBG_CTRL_WDT_HOLD = false ∧
    ((resetState {}).eng.put DBG_CTRL_WDT_HOLD 1).on DBG_CTRL_WDT_HOLD = true ∧ (resetState {}).eng.get WDT_COUNT_COUNT ≤ (resetState {}).eng.wdtWarn ∧
    (resetState {}).eng.wdtWarn < ((resetState {}).eng.put WDT_COUNT_COUNT 60000).get WDT_COUNT_COUNT ∧
    (resetState { dormant := true }).eng.wdtRuns = true ∧ (resetState { dormant := true }).awake = false := by decide

/-- Pin 5 is tenant 0's, an output in direction `d`, with both edges named. -/
def pinEngine (d : Nat) : Engine := State.reset.eng.wr (PWR_GPIO_CFG 5) (BitVec.ofNat 32 (0x10C + d))

theorem wit_Gpio : (pinEngine 1).direct tenant0 PWR_GPIO_OUT = true ∧ (pinEngine 0).direct monitor PWR_GPIO_OUT = true ∧ (pinEngine 1).on (PWR_GPIO_CFG_DIR 5) = true ∧
    (pinEngine 0).on (PWR_GPIO_CFG_DIR 5) = false ∧ (pinEngine 1).on (PWR_GPIO_CFG_V 5) = true ∧ tenant0.isTenant ((pinEngine 1).get (PWR_GPIO_CFG_TENANT 5)) = true ∧
    (∀ j, j < 6 → (((tenant0.isCC || ((pinEngine 1).on (PWR_GPIO_CFG_V j) && tenant0.isTenant ((pinEngine 1).get (PWR_GPIO_CFG_TENANT j)))) = true) ↔ j = 5)) ∧
    ((pinEngine 0).get (PWR_GPIO_CFG_EDGE 5)).testBit 1 = true ∧ ((pinEngine 0).rd PWR_GPIO_IN).getLsbD 5 = false := by decide

/-- The lifecycle code is `lc`; the fuse controller's state is `x`. -/
def fuseState (lc : Nat) (x : SecuritySt) : State := State.reset.on fun e => { (e.put SEC_STATUS_LC lc).put FUSE_PROG_BIT_IDX 32 with sec := x }

/-- A complete key of MONITOR. -/
def fuseKey : KeySt := (KeySt.write {} 0xF05E 0x0FA1 monitor.hm 0 0x0000F05E#32).write 0xF05E 0x0FA1 monitor.hm 0 0x00000FA1#32

theorem wit_Fuses : (fuseState 0 {}).awake = true ∧ (fuseState 0 {}).eng.on FUSE_STATUS_LOADED = false ∧
    ((fuseState 0 {}).eng.put FUSE_STATUS_LOADED 1).on FUSE_STATUS_LOADED = true ∧ monitor.isMon = true ∧ tenant0.isMon = false ∧
    fuseKey.ok monitor.hm 0 = true ∧ KeySt.ok {} monitor.hm 0 = false ∧ (fuseState 0 {}).eng.fuseBusy = false ∧
    (fuseState 0 { blow := [32] }).eng.fuseBusy = true ∧ (fuseState 0 {}).eng.mode = 0 ∧ (fuseState 0 {}).eng.get FUSE_PROG_BIT_IDX = 32 ∧
    (fuseState 0 {}).eng.blowPermitted 32 = true ∧ (fuseState 2 {}).eng.blowPermitted 32 = false ∧ (fuseState 0 {}).eng.blowPermitted 2047 = false := by decide

theorem wit_Lifecycle : (0x80000003#32).getLsbD 31 = true ∧ (fuseState 0 {}).eng.lcAllowed 3 = true ∧ (fuseState 0 {}).eng.lcAllowed 1 = false ∧
    ((fuseState 0 {}).eng.put SEC_STATUS_KEY_OK 1).lcAllowed 1 = true ∧ (fuseState 3 {}).eng.lc = 3 ∧ fuseLc 0x170#32 = 0 ∧ fuseLc 0x161#32 = 1 ∧
    fuseLc 0x143#32 = 2 ∧ fuseLc 0x107#32 = 3 ∧ fuseLc 0x171#32 = 7 ∧ (fuseState 0 { erase := true, target := some 3 }).eng.sec.target = some 3 := by decide

/-- The control core in MONITOR for a MONCALL, with `a` in G4 and `b` in G5. -/
def moncallState (a b : Word) : State := (fuseState 0 {}).on fun e => e.setCore 16 { ctx := [(0, { mode := 2, te := true, trapCause := 0x0E#32, g := [(4, a), (5, b)] })] }

theorem wit_Services : (moncallState 0#32 0#32).eng.inMoncall = true ∧ State.reset.eng.inMoncall = false ∧ 2048 ≤ (((moncallState 2048#32 0#32).eng.ctxOf 16).rdG 4).toNat ∧
    (((moncallState 3#32 0#32).eng.ctxOf 16).rdG 4).toNat = 3 ∧ ccData (((moncallState 0x61000000#32 0x6103FFE0#32).eng.ctxOf 16).rdG 4).toNat = true ∧
    ccData (((moncallState 0x61000000#32 0x6103FFE0#32).eng.ctxOf 16).rdG 5).toNat = true ∧ ccData 0x6103FFE1 = false ∧
    (moncallState 0#32 0#32).eng.on SEC_STATUS_KEY_OK = false := by decide

/-- Lifecycle `lc`, session level `l` with ENGINE and tenants 0 and 1 in scope. -/
def debugState (lc l : Nat) (d : DbgSt) : State := State.reset.on fun e =>
  { ((e.put SEC_STATUS_LC lc).put DBG_STATUS_LEVEL l).wr DBG_SCOPE 0x10003#32 with dbg := d }

theorem wit_DebugRequests : (debugState 0 0 {}).awake = true ∧ (0x80000000#32).getLsbD 31 = true ∧ (0x80040000#32).toNat / 2 ^ 17 % 4 = 2 ∧
    (0x80020000#32).toNat / 2 ^ 17 % 4 = 1 ∧ (0x80050000#32).getLsbD 16 = true ∧ (debugState 0 0 {}).eng.lc = 0 ∧ (debugState 1 0 {}).eng.lc = 1 ∧
    (debugState 2 0 {}).eng.lc = 2 ∧ (debugState 3 0 {}).eng.lc = 3 ∧ ((debugState 2 0 {}).eng.rd SEC_CONSENT).getLsbD 15 = false ∧
    (debugState 1 0 {}).eng.on DBG_STATUS_WAIT = false ∧ ((debugState 1 0 {}).eng.put DBG_STATUS_WAIT 1).on DBG_STATUS_WAIT = true ∧
    (debugState 1 0 {}).eng.on DBG_STATUS_AUTH_PEND = false ∧ ((debugState 1 0 {}).eng.put DBG_STATUS_AUTH_PEND 1).on DBG_STATUS_AUTH_PEND = true ∧
    (debugState 1 0 {}).eng.dbgAnswered = false ∧ (debugState 1 0 {}).eng.dbgDenied 0x80040000#32 = none ∧
    (debugState 2 0 {}).eng.dbgDenied 0x80048000#32 = some 2 := by decide

theorem wit_DebugCommands : (debugState 0 2 {}).eng.get DBG_STATUS_LEVEL = 2 ∧ (debugState 0 0 {}).eng.get DBG_STATUS_LEVEL = 0 ∧
    (List.range 17).filter (0x10001 : Nat).testBit = [0, 16] ∧ (debugState 0 2 {}).eng.attached 0 = true ∧ (debugState 0 2 {}).eng.attached 16 = true ∧
    (debugState 0 0 {}).eng.attached 0 = false ∧ (debugState 0 2 {}).eng.lockstep = false ∧ ((debugState 0 2 {}).eng.put DUO_CTRL_LOCKSTEP 1).lockstep = true ∧
    (debugState 0 2 {}).eng.corePowered 0 = true ∧ ((debugState 0 2 {}).eng.put PWR_STATUS_MODE 1).corePowered 0 = false ∧ (debugState 0 2 {}).eng.dbg.level = none ∧
    ((debugState 0 2 {}).eng.coreOf 16).halted = false ∧ ((debugState 0 2 {}).eng.ctxOf 16).lk = false ∧
    (((debugState 0 2 {}).eng.setCore 16 { halted := true }).coreOf 16).halted = true ∧ ((debugState 0 2 {}).eng.rd DBG_SCOPE).getLsbD 16 = true ∧
    ((debugState 0 2 {}).eng.wr DBG_SCOPE 1#32).rd DBG_SCOPE = 1#32 := by decide

theorem wit_DebugPort : (debugState 0 2 { ir := 8 }).eng.pwr.off = false ∧ (debugState 0 2 {}).eng.live = true ∧ (debugState 0 2 {}).eng.pcie.boot.handed = false ∧
    (debugState 0 2 {}).eng.dbg.ir = 2 ∧ (debugState 3 2 {}).eng.lc = 3 ∧ (debugState 0 2 { ir := 8 }).eng.dbg.ir = 8 ∧ dbgAlways SEC_STATUS = true ∧
    dbgAlways ADAPT_DWELL = false ∧ blkOf ADAPT_DWELL ≠ 0x1C ∧ blkOf DBG_CTRL = 0x1C ∧ (debugState 0 2 {}).eng.dbgInScope ADAPT_DWELL = true ∧
    ((debugState 0 2 {}).eng.wr DBG_SCOPE 1#32).dbgInScope ADAPT_DWELL = false ∧ (debugState 0 2 {}).eng.dbgDown ADAPT_DWELL = false ∧
    ingotOf ADAPT_DWELL = none ∧ dbgCore ADAPT_DWELL = none ∧ (debugState 0 2 {}).eng.on DBG_CTRL_SIDEFX = false ∧
    ((debugState 0 2 {}).eng.put DBG_CTRL_SIDEFX 1).on DBG_CTRL_SIDEFX = true ∧ (State.reset.eng.updPwr fun p => { p with dormant := true }).live = false := by decide

/-- Scrubbing is on; Assay's state is `a`. -/
def assayState (a : AssaySt) : State := State.reset.on fun e => { e.put ASSAY_CTRL_SCRUB_EN 1 with assay := a }

set_option maxRecDepth 100000 in
theorem wit_Scrub : (nextCp 0).isSome = true ∧ (nextCp (ADAPT_POLICY + 1)).isSome = true ∧ nextCp 0x50000000 = none := by decide

theorem wit_Assay : (assayState {}).awake = true ∧ (assayState {}).eng.on ASSAY_CTRL_SCRUB_EN = true ∧ (State.reset.eng.put ASSAY_CTRL_SCRUB_EN 0).on ASSAY_CTRL_SCRUB_EN = false ∧
    State.reset.eng.rd (ADAPT_AVS_CFG + 4) = ~~~ (State.reset.eng.rd ADAPT_AVS_CFG) ∧
    (State.reset.eng.wr ADAPT_AVS_CFG 0#32).rd (ADAPT_AVS_CFG + 4) ≠ ~~~ ((State.reset.eng.wr ADAPT_AVS_CFG 0#32).rd ADAPT_AVS_CFG) ∧
    (assayState { badHold := [ADAPT_AVS_CFG] }).eng.assay.badHold.contains ADAPT_AVS_CFG = true ∧ isCpEven ADAPT_AVS_CFG = true ∧ ADAPT_AVS_CFG % 4 = 0 ∧
    ADAPT_AVS_CFG ∈ (assayState { quar := [ADAPT_AVS_CFG] }).eng.assay.quar ∧ ADAPT_AVS_CFG ∉ (assayState {}).eng.assay.quar ∧ isCpEven ADAPT_DWELL = false := by decide

/-- ADAPT with the loops on, in state `a`. -/
def adaptState (a : AdaptSt) : State := State.reset.on fun e => { (e.wrCp ADAPT_POLICY 0x3#32).put ADAPT_DWELL_TICKS 5 with adapt := a }

theorem wit_Voltage : (adaptState {}).eng.cpOn ADAPT_POLICY_AVS_EN = true ∧ (State.reset.eng.wrCp ADAPT_POLICY 0#32).cpOn ADAPT_POLICY_AVS_EN = false ∧
    2399 * 1000 < 2400 * (1000 + (adaptState {}).eng.get ADAPT_AVS_MARGIN_LO) ∧ 2400 * (1000 + (adaptState {}).eng.get ADAPT_AVS_MARGIN_HI) < 4095 * 1000 ∧
    (adaptState {}).eng.cp ADAPT_AVS_CFG_FLOOR < (adaptState {}).eng.get ADAPT_AVS_REQ_MV ∧
    ((adaptState {}).eng.put ADAPT_AVS_REQ_MV 700).get ADAPT_AVS_REQ_MV < (adaptState {}).eng.cp ADAPT_AVS_CFG_CEIL ∧
    (adaptState {}).eng.on ADAPT_STATUS_SAFE_UV = false := by decide

theorem wit_ThermalAndLevel : (adaptState {}).eng.cpOn ADAPT_POLICY_THERM_EN = true ∧ (State.reset.eng.wrCp ADAPT_POLICY 0#32).cpOn ADAPT_POLICY_THERM_EN = false ∧
    (adaptState {}).eng.adapt.thr = [false, false, false] ∧ (4 * (adaptState {}).eng.cp ADAPT_THERM_CFG_LIMIT : Int) + 32 ≤ 1023 ∧
    (adaptState {}).eng.on ADAPT_STATUS_SAFE_THERM = false ∧ (adaptState {}).eng.on ADAPT_STATUS_STOPPED = false ∧
    ((adaptState {}).eng.put ADAPT_STATUS_STOPPED 1).on ADAPT_STATUS_STOPPED = true ∧ (adaptState {}).eng.theta < 500 ∧
    500 ≤ ((adaptState {}).eng.put (ADAPT_TEMP_TEMP 3) 500).theta ∧ (adaptState { hotN := 1001 }).eng.adapt.hotN = 1001 ∧ (adaptState {}).eng.safetyOn = false ∧
    (adaptState {}).eng.get ADAPT_STATUS_TARGET < ((adaptState {}).eng.put ADAPT_STATUS_LEVEL 3).get ADAPT_STATUS_LEVEL ∧
    ((adaptState {}).eng.put ADAPT_STATUS_SAFE_UV 1).safetyOn = true ∧ (adaptState {}).eng.get ADAPT_DWELL_TICKS ≤ (adaptState { below := 5 }).eng.adapt.below ∧
    (adaptState {}).eng.adapt.below < (adaptState {}).eng.get ADAPT_DWELL_TICKS := by decide

theorem wit_Step : { State.reset with pending := [.idcode, .guardStart] }.pending = .idcode :: [.guardStart] ∧ State.reset.pending = [] ∧ State.reset.awake = true ∧
    (State.reset.on fun e => e.updPwr fun p => { p with dormant := true }).awake = false ∧ alwaysOn .guardStart = false ∧ alwaysOn .idcode = true ∧
    blowsFuses .guardStart = false ∧ State.reset.fuseWf = true := by decide

theorem wit_InstructionWords : (Instr.add { core := 3, q := 2, inv := true } 1 2 31).issueOf = some { core := 3, q := 2, inv := true } ∧
    (Instr.add { core := 3, q := 2, inv := true } 1 2 31).wf = true ∧ isaEncode (.add { core := 3, q := 2, inv := true } 1 2 31) = some 0x03045F00 ∧
    (Instr.ext { core := 3, q := 1 } 0).wf = true ∧ isaEncode (.ext { core := 3, q := 1 } 0) = none := by decide

/-- A ring of four records in CC's ingot 0, the write index at its end, and two records detected in this cycle. -/
def ringEngine : Engine :=
  { ((((State.reset.eng.wr SYS_EVR_BASE 0x80000000#32).put SYS_EVR_LEN_LOG2 2).put SYS_EVR_WR_IDX 3).put SYS_EVR_RD_IDX 2).wrCp (INGOT_OWN 0) 0x20#32 with
    evBuf := [{ block := 0x1E, code := 2, sev := .warn }, { block := 0x05, code := 7, sev := .note }] }

theorem wit_EventOrder : 0 < ringEngine.get SYS_EVR_LEN_LOG2 ∧ ringEngine.get SYS_EVR_LEN_LOG2 ≤ 15 ∧ ringEngine.ringOwned = true ∧ ringEngine.tick.evrLost = 0 ∧
    ringEngine.get SYS_EVR_WR_IDX < 2 ^ ringEngine.get SYS_EVR_LEN_LOG2 ∧ (sortEvts ringEngine.evBuf).length ≤ (2 % 4 + 4 - 1 - 3) % 4 ∧
    (sortEvts ringEngine.evBuf)[0]? = some { block := 0x05, code := 7, sev := .note } := by decide

theorem wit_Pair : (State.reset.on fun e => e.put DUO_CTRL_LOCKSTEP 1).awake = true ∧ (State.reset.eng.put DUO_CTRL_LOCKSTEP 1).on DUO_CTRL_LOCKSTEP = true ∧
    monitor.isCC = true ∧ State.reset.eng.pwr.want ≠ some 1 := by decide

theorem wit_Lpo : Instr.dormantEntry ∈ [Instr.idleEntry, .idleExit, .listenEntry, .listenExit, .dormantEntry, .dormantWake, .softwareReset, .watchdogReset, .debugReset] := by decide

/-! ### The manual's instruction words -/

/-- "Worked example: encoding a predicated DOT2". -/
theorem test_word_dot2 : isaDecode 0 0x46A55080 = some (.dot2 { core := 0, q := 1, inv := true } 1 2 10 20 false false) := by decide

/-- "Worked example: a 32-bit constant": EXT 0x123, MOVI G7. -/
theorem test_word_ext : isaDecode 0 0xAC000123 = some (.ext { core := 0 } 0x123) := by decide
theorem test_word_movi : isaDecode 0 0x241C0456 = some (.movi { core := 0 } 7 0x456) := by decide

/-- The canonical NOP, ADD G0, G0, G0 with Q0 inverted. -/
theorem test_word_nop : isaDecode 0 0x02000000 = some (.add { core := 0, inv := true } 0 0 0) := by decide

/-- "Worked example: a gain change at the split": LOOP, FORM 0, E = 2, ga = 8. -/
theorem test_word_loop : isaDecode 0 0x8C002400 = some (.loop { core := 0 } (.reg 8) 2) := by decide

/-- A reserved major opcode spells no instruction (R196); NEG with bit 8, a field marked zero, set says so. -/
theorem test_word_reserved : isaDecode 0 0xFC000000 = none ∧ isaDecode 0 0x04000101 = some (.neg { core := 0, bad := true } 0 0) := by decide

/-! ### Values of the manual's worked examples -/

/-- "Worked example: storing −3.5 LSB": RND gives −3, TRN −4. -/
theorem test_store_rounds : narrow (-15032385536) 0 false true = (0xFFFFFFFD#32, false) ∧ narrow (-15032385536) 0 true true = (0xFFFFFFFC#32, false) := by decide

/-- "Worked example: negative ties and the saturation edge": +1.0 saturates, −1.0 does not. -/
theorem test_store_saturates : narrow (2 ^ 63) 0 false true = (0x7FFFFFFF#32, true) ∧ narrow (-(2 ^ 63)) 0 false true = (0x80000000#32, false) := by decide

/-- "Worked example: wrapping on a buffer of 1,001 words". -/
theorem test_pointer_wraps :
    CoreCtx.postMod { p := [(2, 0x2F90#32)], b := [(2, 0x2000#32)], l := [(2, 1001)] } 2 12#32 = 0x201C#32 ∧
    CoreCtx.postMod { p := [(2, 0x2004#32)], b := [(2, 0x2000#32)], l := [(2, 1001)] } 2 (0xFFFFFFFD#32) = 0x2F9C#32 := by decide

/-- "Worked example: a square root through the log format", steps 2 and 1. -/
theorem test_srai : (aluShift .sra 0xFE570069#32 1).val = 0xFF2B8034#32 ∧ (aluShift .sra 0xFE570069#32 1).c = some true := by decide
set_option maxRecDepth 20000 in
theorem test_log2 : (aluLog2 0x60000000#32).val = 0xFE570069#32 := by decide

/-- "Worked example: a 100 ms watchdog": period 3,283 with WDT_WIN 2. -/
theorem test_watchdog_window : Engine.wdtOpen ((State.reset.eng.put WDT_FUSES_WIN 2).updPwr fun p => { p with wdt := { period := 3283 } }) = 1641 := by decide

/-! ### One step -/

/-- The state after a command that answers one. -/
def after (c : Instr) (s : State) : State :=
  match exec c s with
  | .next t => t
  | _ => s

/-- The odd word inside [E, E + 64) makes the pair due; at E + 64 it is late (R10). -/
theorem test_cp_window : (after (.cpOddWrite monitor (INGOT_OWN 0 + 4) 0xFFFFFFFA#32) (pendingPair 63)).eng.cpDue.length = 1 ∧
    (after (.cpOddWrite monitor (INGOT_OWN 0 + 4) 0xFFFFFFFA#32) (pendingPair 64)).eng.cpDue = [] := by decide

/-- ADD wraps with carry and no overflow; the sum goes to a source register. -/
theorem test_add_wraps :
    let s : State := State.reset.withCtx 16 { (State.reset.ctx 16) with g := [(1, 0xFFFFFFFF#32), (2, 2#32)] }
    let t := after (.add { core := 16 } 1 1 2) s
    (t.ctx 16).rdG 1 = 1#32 ∧ (t.ctx 16).c = true ∧ (t.ctx 16).v = false ∧ (t.ctx 16).z = false := by decide

/-- A false predicate has no effect (R195). -/
theorem test_nop : ((after (.add { core := 16, inv := true } 1 1 2) State.reset).ctx 16).g = [] := by decide

/-- RESET_N keeps the always-on registers and says its cause; power-on does not keep them. -/
theorem test_reset_scope :
    let s : State := State.reset.on fun e => (e.wr CLK_LPO_TRIM 33#32).wr PWR_IDLE_CORES 1#32
    (after (.resetNReset true false) s).eng.rd CLK_LPO_TRIM = 33#32 ∧ (after (.resetNReset true false) s).eng.rd PWR_IDLE_CORES = 0x7FFF#32 ∧
    (after (.resetNReset true false) s).eng.get PWR_RESET_CAUSE_LAST = 2 ∧ (after (.powerOnReset true) s).eng.rd CLK_LPO_TRIM = 32#32 := by decide

/-- The SVN thermometer and a blow: exactly the bit asked for. -/
theorem test_prog_done : (after .progDone (fuseState 0 { blow := [37] })).fuse = [(1, 32#32)] := by decide

/-! ### Well-formedness: an ill-formed command for each check -/

/-- A sender, an issue, a message and a frame that are well-formed. -/
def sd : Sender := { hm := 0xA0 }
def ci : Issue := { core := 0 }
def rx : SvlRx := { seq := 0 }
def mf : MadiFrame := { ok := true, f96 := false, subs := [] }

set_option maxRecDepth 20000 in
theorem test_ill_formed_0 : ([
  .registerWrite { sd with hm := 256 } 0 0#32, .registerWrite { sd with agent := 256 } 0 0#32, .registerWrite sd 4294967296 0#32,
    .cpEvenWrite { sd with hm := 256 } 0 0#32, .cpEvenWrite { sd with agent := 256 } 0 0#32, .cpEvenWrite sd 4294967296 0#32,
    .cpOddWrite { sd with hm := 256 } 0 0#32, .cpOddWrite { sd with agent := 256 } 0 0#32, .cpOddWrite sd 4294967296 0#32, .cpPairTimeout 4294967296,
    .unmappedAccess { sd with hm := 256 } 0 false, .unmappedAccess { sd with agent := 256 } 0 false, .unmappedAccess sd 4294967296 false,
    .tickCfgWrite { sd with hm := 256 } 0#32, .tickCfgWrite { sd with agent := 256 } 0#32, .tickRunStart { sd with hm := 256 },
    .tickRunStart { sd with agent := 256 }, .sysEscLoRead { sd with hm := 256 }, .sysEscLoRead { sd with agent := 256 },
    .sysKeyWrite { sd with hm := 256 } 0#32, .sysKeyWrite { sd with agent := 256 } 0#32, .sysResetWrite { sd with hm := 256 } 0#32,
    .sysResetWrite { sd with agent := 256 } 0#32, .clkTgtCommit { sd with hm := 256 } 0#32, .clkTgtCommit { sd with agent := 256 } 0#32,
    .calMeasureStart { sd with hm := 256 } 0#32, .calMeasureStart { sd with agent := 256 } 0#32, .clkGateClose 21, .refGateEnd 7 false 0, .refLos 7,
    .refEvent 7 0, .refFreqWrite { sd with hm := 256 } 0#32, .refFreqWrite { sd with agent := 256 } 0#32,
    .refPhaseStepWrite { sd with hm := 256 } 0#32, .refPhaseStepWrite { sd with agent := 256 } 0#32, .timeIncrCommit { sd with hm := 256 } 0#32,
    .timeIncrCommit { sd with agent := 256 } 0#32, .timeStep { sd with hm := 256 } 0#32, .timeStep { sd with agent := 256 } 0#32,
    .timeNowCapture { sd with hm := 256 }] : List Instr).all (fun c => !c.wf) = true := by decide

set_option maxRecDepth 20000 in
theorem test_ill_formed_1 : ([
  .timeNowCapture { sd with agent := 256 }, .timeLatchCapture { sd with hm := 256 }, .timeLatchCapture { sd with agent := 256 },
    .taqArm { sd with hm := 256 } 0 0#32, .taqArm { sd with agent := 256 } 0 0#32, .taqArm sd 1024 0#32, .taqCancel { sd with hm := 256 } 0 0#32,
    .taqCancel { sd with agent := 256 } 0 0#32, .taqCancel sd 1024 0#32, .add { ci with core := 17 } 0 0 0, .add { ci with q := 4 } 0 0 0,
    .add ci 32 0 0, .add ci 0 32 0, .add ci 0 0 32, .sub { ci with core := 17 } 0 0 0, .sub { ci with q := 4 } 0 0 0, .sub ci 32 0 0, .sub ci 0 32 0,
    .sub ci 0 0 32, .adds { ci with core := 17 } 0 0 0, .adds { ci with q := 4 } 0 0 0, .adds ci 32 0 0, .adds ci 0 32 0, .adds ci 0 0 32,
    .subs { ci with core := 17 } 0 0 0, .subs { ci with q := 4 } 0 0 0, .subs ci 32 0 0, .subs ci 0 32 0, .subs ci 0 0 32,
    .and { ci with core := 17 } 0 0 0, .and { ci with q := 4 } 0 0 0, .and ci 32 0 0, .and ci 0 32 0, .and ci 0 0 32,
    .or { ci with core := 17 } 0 0 0, .or { ci with q := 4 } 0 0 0, .or ci 32 0 0, .or ci 0 32 0, .or ci 0 0 32, .xor { ci with core := 17 } 0 0 0] : List Instr).all (fun c => !c.wf) = true := by decide

set_option maxRecDepth 20000 in
theorem test_ill_formed_2 : ([
  .xor { ci with q := 4 } 0 0 0, .xor ci 32 0 0, .xor ci 0 32 0, .xor ci 0 0 32, .andn { ci with core := 17 } 0 0 0, .andn { ci with q := 4 } 0 0 0,
    .andn ci 32 0 0, .andn ci 0 32 0, .andn ci 0 0 32, .shl { ci with core := 17 } 0 0 0, .shl { ci with q := 4 } 0 0 0, .shl ci 32 0 0,
    .shl ci 0 32 0, .shl ci 0 0 32, .shr { ci with core := 17 } 0 0 0, .shr { ci with q := 4 } 0 0 0, .shr ci 32 0 0, .shr ci 0 32 0, .shr ci 0 0 32,
    .sra { ci with core := 17 } 0 0 0, .sra { ci with q := 4 } 0 0 0, .sra ci 32 0 0, .sra ci 0 32 0, .sra ci 0 0 32,
    .min { ci with core := 17 } 0 0 0, .min { ci with q := 4 } 0 0 0, .min ci 32 0 0, .min ci 0 32 0, .min ci 0 0 32,
    .max { ci with core := 17 } 0 0 0, .max { ci with q := 4 } 0 0 0, .max ci 32 0 0, .max ci 0 32 0, .max ci 0 0 32,
    .minu { ci with core := 17 } 0 0 0, .minu { ci with q := 4 } 0 0 0, .minu ci 32 0 0, .minu ci 0 32 0, .minu ci 0 0 32,
    .maxu { ci with core := 17 } 0 0 0] : List Instr).all (fun c => !c.wf) = true := by decide

set_option maxRecDepth 20000 in
theorem test_ill_formed_3 : ([
  .maxu { ci with q := 4 } 0 0 0, .maxu ci 32 0 0, .maxu ci 0 32 0, .maxu ci 0 0 32, .peak { ci with core := 17 } 0 0 0,
    .peak { ci with q := 4 } 0 0 0, .peak ci 32 0 0, .peak ci 0 32 0, .peak ci 0 0 32, .mov { ci with core := 17 } 0 0, .mov { ci with q := 4 } 0 0,
    .mov ci 32 0, .mov ci 0 32, .neg { ci with core := 17 } 0 0, .neg { ci with q := 4 } 0 0, .neg ci 32 0, .neg ci 0 32,
    .not { ci with core := 17 } 0 0, .not { ci with q := 4 } 0 0, .not ci 32 0, .not ci 0 32, .abs { ci with core := 17 } 0 0,
    .abs { ci with q := 4 } 0 0, .abs ci 32 0, .abs ci 0 32, .clz { ci with core := 17 } 0 0, .clz { ci with q := 4 } 0 0, .clz ci 32 0,
    .clz ci 0 32, .cls { ci with core := 17 } 0 0, .cls { ci with q := 4 } 0 0, .cls ci 32 0, .cls ci 0 32, .log2 { ci with core := 17 } 0 0,
    .log2 { ci with q := 4 } 0 0, .log2 ci 32 0, .log2 ci 0 32, .exp2 { ci with core := 17 } 0 0, .exp2 { ci with q := 4 } 0 0, .exp2 ci 32 0] : List Instr).all (fun c => !c.wf) = true := by decide

set_option maxRecDepth 20000 in
theorem test_ill_formed_4 : ([
  .exp2 ci 0 32, .exp2g { ci with core := 17 } 0 0, .exp2g { ci with q := 4 } 0 0, .exp2g ci 32 0, .exp2g ci 0 32,
    .addi { ci with core := 17 } 0 0 0, .addi { ci with q := 4 } 0 0 0, .addi ci 32 0 0, .addi ci 0 32 0, .addi ci 0 0 4096,
    .andi { ci with core := 17 } 0 0 0, .andi { ci with q := 4 } 0 0 0, .andi ci 32 0 0, .andi ci 0 32 0, .andi ci 0 0 4096,
    .ori { ci with core := 17 } 0 0 0, .ori { ci with q := 4 } 0 0 0, .ori ci 32 0 0, .ori ci 0 32 0, .ori ci 0 0 4096,
    .xori { ci with core := 17 } 0 0 0, .xori { ci with q := 4 } 0 0 0, .xori ci 32 0 0, .xori ci 0 32 0, .xori ci 0 0 4096,
    .shli { ci with core := 17 } 0 0 0, .shli { ci with q := 4 } 0 0 0, .shli ci 32 0 0, .shli ci 0 32 0, .shli ci 0 0 32,
    .shri { ci with core := 17 } 0 0 0, .shri { ci with q := 4 } 0 0 0, .shri ci 32 0 0, .shri ci 0 32 0, .shri ci 0 0 32,
    .srai { ci with core := 17 } 0 0 0, .srai { ci with q := 4 } 0 0 0, .srai ci 32 0 0, .srai ci 0 32 0, .srai ci 0 0 32] : List Instr).all (fun c => !c.wf) = true := by decide

set_option maxRecDepth 20000 in
theorem test_ill_formed_5 : ([
  .movi { ci with core := 17 } 0 0, .movi { ci with q := 4 } 0 0, .movi ci 32 0, .movi ci 0 4096, .cmp { ci with core := 17 } 0 0 0 0,
    .cmp { ci with q := 4 } 0 0 0 0, .cmp ci 4 0 0 0, .cmp ci 0 8 0 0, .cmp ci 0 0 32 0, .cmp ci 0 0 0 32, .cmpi { ci with core := 17 } 0 0 0 0,
    .cmpi { ci with q := 4 } 0 0 0 0, .cmpi ci 4 0 0 0, .cmpi ci 0 8 0 0, .cmpi ci 0 0 32 0, .cmpi ci 0 0 0 4096, .divs { ci with core := 17 } 0 0,
    .divs { ci with q := 4 } 0 0, .divs ci 32 0, .divs ci 0 32, .sqrs { ci with core := 17 } 0, .sqrs { ci with q := 4 } 0, .sqrs ci 32,
    .mac { ci with core := 17 } 0 0 0 0 false, .mac { ci with q := 4 } 0 0 0 0 false, .mac ci 5 0 0 0 false, .mac ci 0 8 0 0 false,
    .mac ci 0 0 32 0 false, .mac ci 0 0 0 32 false, .msu { ci with core := 17 } 0 0 0 0 false, .msu { ci with q := 4 } 0 0 0 0 false,
    .msu ci 5 0 0 0 false, .msu ci 0 8 0 0 false, .msu ci 0 0 32 0 false, .msu ci 0 0 0 32 false, .dot2 { ci with core := 17 } 0 0 0 0 false false,
    .dot2 { ci with q := 4 } 0 0 0 0 false false, .dot2 ci 5 0 0 0 false false, .dot2 ci 0 8 0 0 false false, .dot2 ci 0 0 32 0 false false] : List Instr).all (fun c => !c.wf) = true := by decide

set_option maxRecDepth 20000 in
theorem test_ill_formed_6 : ([
  .dot2 ci 0 0 0 32 false false, .macp { ci with core := 17 } 0 0 0 0 false false, .macp { ci with q := 4 } 0 0 0 0 false false,
    .macp ci 5 0 0 0 false false, .macp ci 0 8 0 0 false false, .macp ci 0 0 32 0 false false, .macp ci 0 0 0 32 false false,
    .bq { ci with core := 17 } 0 0 0 0, .bq { ci with q := 4 } 0 0 0 0, .bq ci 8 0 0 0, .bq ci 0 32 0 0, .bq ci 0 0 32 0, .bq ci 0 0 0 8,
    .aclr { ci with core := 17 } 0, .aclr { ci with q := 4 } 0, .aclr ci 8, .amov { ci with core := 17 } 0 0, .amov { ci with q := 4 } 0 0,
    .amov ci 8 0, .amov ci 0 8, .ald { ci with core := 17 } 0 0, .ald { ci with q := 4 } 0 0, .ald ci 8 0, .ald ci 0 32,
    .aadd { ci with core := 17 } 0 0, .aadd { ci with q := 4 } 0 0, .aadd ci 8 0, .aadd ci 0 8, .asub { ci with core := 17 } 0 0,
    .asub { ci with q := 4 } 0 0, .asub ci 8 0, .asub ci 0 8, .ashl { ci with core := 17 } 0 0, .ashl { ci with q := 4 } 0 0, .ashl ci 8 0,
    .ashl ci 0 16, .asra { ci with core := 17 } 0 0, .asra { ci with q := 4 } 0 0, .asra ci 8 0, .asra ci 0 16] : List Instr).all (fun c => !c.wf) = true := by decide

set_option maxRecDepth 20000 in
theorem test_ill_formed_7 : ([
  .aneg { ci with core := 17 } 0, .aneg { ci with q := 4 } 0, .aneg ci 8, .rda { ci with core := 17 } 0 0 0 0 0, .rda { ci with q := 4 } 0 0 0 0 0,
    .rda ci 32 0 0 0 0, .rda ci 0 8 0 0 0, .rda ci 0 0 64 0 0, .rda ci 0 0 0 3 0, .rda ci 0 0 0 0 3, .sta { ci with core := 17 } 0 0 false 0 0 0,
    .sta { ci with q := 4 } 0 0 false 0 0 0, .sta ci 8 0 false 0 0 0, .sta ci 0 8 false 0 0 0, .sta ci 0 0 false 64 0 0, .sta ci 0 0 false 0 3 0,
    .sta ci 0 0 false 0 0 3, .ext { ci with core := 17 } 0, .ext { ci with q := 4 } 0, .ext ci 1048576, .ldw { ci with core := 17 } 0 (.ptr 0 false),
    .ldw { ci with q := 4 } 0 (.ptr 0 false), .ldw ci 32 (.ptr 0 false), .ldw ci 0 (.ptr 8 false), .ldw ci 0 (.base 32 0), .ldw ci 0 (.base 0 4096),
    .ldd { ci with core := 17 } 0 (.ptr 0 false), .ldd { ci with q := 4 } 0 (.ptr 0 false), .ldd ci 32 (.ptr 0 false), .ldd ci 0 (.ptr 8 false),
    .ldd ci 0 (.base 32 0), .ldd ci 0 (.base 0 4096), .stw { ci with core := 17 } 0 (.ptr 0 false), .stw { ci with q := 4 } 0 (.ptr 0 false),
    .stw ci 32 (.ptr 0 false), .stw ci 0 (.ptr 8 false), .stw ci 0 (.base 32 0), .stw ci 0 (.base 0 4096),
    .std { ci with core := 17 } 0 (.ptr 0 false), .std { ci with q := 4 } 0 (.ptr 0 false)] : List Instr).all (fun c => !c.wf) = true := by decide

set_option maxRecDepth 20000 in
theorem test_ill_formed_8 : ([
  .std ci 32 (.ptr 0 false), .std ci 0 (.ptr 8 false), .std ci 0 (.base 32 0), .std ci 0 (.base 0 4096),
    .ld2 { ci with core := 17 } 0 0 0 false 0 false false, .ld2 { ci with q := 4 } 0 0 0 false 0 false false, .ld2 ci 32 0 0 false 0 false false,
    .ld2 ci 0 32 0 false 0 false false, .ld2 ci 0 0 8 false 0 false false, .ld2 ci 0 0 0 false 8 false false, .mtp { ci with core := 17 } .p 0 0,
    .mtp { ci with q := 4 } .p 0 0, .mtp ci .p 8 0, .mtp ci .p 0 32, .mfp { ci with core := 17 } .p 0 0, .mfp { ci with q := 4 } .p 0 0,
    .mfp ci .p 8 0, .mfp ci .p 0 32, .pstep { ci with core := 17 } 0 0, .pstep { ci with q := 4 } 0 0, .pstep ci 8 0, .pstep ci 0 4096,
    .ldl { ci with core := 17 } 0 0, .ldl { ci with q := 4 } 0 0, .ldl ci 32 0, .ldl ci 0 32, .stc { ci with core := 17 } 0 0 0,
    .stc { ci with q := 4 } 0 0 0, .stc ci 32 0 0, .stc ci 0 32 0, .stc ci 0 0 32, .br { ci with core := 17 } 0, .br { ci with q := 4 } 0,
    .br ci 8388608, .brl { ci with core := 17 } 0, .brl { ci with q := 4 } 0, .brl ci 8388608, .jr { ci with core := 17 } 0 0,
    .jr { ci with q := 4 } 0 0, .jr ci 32 0] : List Instr).all (fun c => !c.wf) = true := by decide

set_option maxRecDepth 20000 in
theorem test_ill_formed_9 : ([
  .jr ci 0 32, .loop { ci with core := 17 } (.imm 0) 0, .loop { ci with q := 4 } (.imm 0) 0, .loop ci (.reg 32) 0, .loop ci (.imm 4096) 0,
    .loop ci (.imm 0) 512, .loops { ci with core := 17 }, .loops { ci with q := 4 }, .predAnd { ci with core := 17 } 0 0 false 0 false,
    .predAnd { ci with q := 4 } 0 0 false 0 false, .predAnd ci 4 0 false 0 false, .predAnd ci 0 4 false 0 false, .predAnd ci 0 0 false 4 false,
    .predOr { ci with core := 17 } 0 0 false 0 false, .predOr { ci with q := 4 } 0 0 false 0 false, .predOr ci 4 0 false 0 false,
    .predOr ci 0 4 false 0 false, .predOr ci 0 0 false 4 false, .predXor { ci with core := 17 } 0 0 false 0 false,
    .predXor { ci with q := 4 } 0 0 false 0 false, .predXor ci 4 0 false 0 false, .predXor ci 0 4 false 0 false, .predXor ci 0 0 false 4 false,
    .pflag { ci with core := 17 } 0 0, .pflag { ci with q := 4 } 0 0, .pflag ci 4 0, .pflag ci 0 10, .mfs { ci with core := 17 } 0 0,
    .mfs { ci with q := 4 } 0 0, .mfs ci 32 0, .mfs ci 0 32, .mts { ci with core := 17 } 0 0, .mts { ci with q := 4 } 0 0, .mts ci 32 0,
    .mts ci 0 32, .lock { ci with core := 17 }, .lock { ci with q := 4 }, .unlock { ci with core := 17 }, .unlock { ci with q := 4 },
    .fence { ci with core := 17 }] : List Instr).all (fun c => !c.wf) = true := by decide

set_option maxRecDepth 20000 in
theorem test_ill_formed_10 : ([
  .fence { ci with q := 4 }, .gap { ci with core := 17 } 0, .gap { ci with q := 4 } 0, .gap ci 32, .wft { ci with core := 17 },
    .wft { ci with q := 4 }, .wftWake 17, .split { ci with core := 17 } 0, .split { ci with q := 4 } 0, .split ci 32, .trap { ci with core := 17 } 0,
    .trap { ci with q := 4 } 0, .trap ci 1024, .brk { ci with core := 17 }, .brk { ci with q := 4 }, .rte { ci with core := 17 },
    .rte { ci with q := 4 }, .tready { ci with core := 17 } 0, .tready { ci with q := 4 } 0, .tready ci 32, .tcancel { ci with core := 17 } 0,
    .tcancel { ci with q := 4 } 0, .tcancel ci 32, .tyield { ci with core := 17 }, .tyield { ci with q := 4 }, .tdone { ci with core := 17 } 0,
    .tdone { ci with q := 4 } 0, .tdone ci 256, .taskComplete 16, .waiti { ci with core := 17 }, .waiti { ci with q := 4 },
    .ieset { ci with core := 17 } 0 false, .ieset { ci with q := 4 } 0 false, .ieset ci 32 false, .moncall { ci with core := 17 } 0,
    .moncall { ci with q := 4 } 0, .moncall ci 4096, .isync { ci with core := 17 }, .isync { ci with q := 4 }, .preemption 16 0] : List Instr).all (fun c => !c.wf) = true := by decide

set_option maxRecDepth 20000 in
theorem test_ill_formed_11 : ([
  .preemption 0 4096, .lockBreak 17, .remoteLoadComplete 17 0, .remoteLoadComplete 0 2, .coreDmaStarve 16 0, .coreDmaStarve 0 32,
    .coreTenantWrite { sd with hm := 256 } 0 0#32, .coreTenantWrite { sd with agent := 256 } 0 0#32, .coreTenantWrite sd 16 0#32, .scrubDone 16,
    .schedSubmit { sd with hm := 256 } 0, .schedSubmit { sd with agent := 256 } 0, .schedSubmit sd 4096, .schedReady { sd with hm := 256 } 0#32,
    .schedReady { sd with agent := 256 } 0#32, .schedCancel { sd with hm := 256 } 0, .schedCancel { sd with agent := 256 } 0, .schedCancel sd 4096,
    .schedFree { sd with hm := 256 } 0, .schedFree { sd with agent := 256 } 0, .schedFree sd 4096, .schedRangeCommit { sd with hm := 256 } 0 0#32,
    .schedRangeCommit { sd with agent := 256 } 0 0#32, .schedRangeCommit sd 16 0#32, .taskDispatch 19, .taskMigrate 4096 0, .taskMigrate 0 16,
    .taskAbort 16, .schedCqPop { sd with hm := 256 } 0, .schedCqPop { sd with agent := 256 } 0, .schedCqPop sd 16, .accelJobComplete 3,
    .ingotHandover { sd with hm := 256 } 0 0#32, .ingotHandover { sd with agent := 256 } 0 0#32, .ingotHandover sd 80 0#32, .drainComplete 80,
    .ingotScrubDone 80, .retentionRequest { sd with hm := 256 } 0 0#32, .retentionRequest { sd with agent := 256 } 0 0#32,
    .retentionRequest sd 10 0#32] : List Instr).all (fun c => !c.wf) = true := by decide

set_option maxRecDepth 20000 in
theorem test_ill_formed_12 : ([
  .retEntered 10, .retWoken 10, .ingotStarve 32 0, .ingotStarve 0 80, .windowCommit { sd with hm := 256 } 0 0 0#32,
    .windowCommit { sd with agent := 256 } 0 0 0#32, .windowCommit sd 16 0 0#32, .windowCommit sd 0 32 0#32, .faultRecordClear 16 0#32,
    .hostReadCompletion (.core 17 0) none, .hostReadCompletion (.core 0 2) none, .hostReadCompletion (.dma 32 0) none,
    .hostReadCompletion (.fetch 32) none, .hostReadTimeout (.core 17 0), .hostReadTimeout (.core 0 2), .hostReadTimeout (.dma 32 0),
    .hostReadTimeout (.fetch 32), .dmaStart { sd with hm := 256 } 0, .dmaStart { sd with agent := 256 } 0, .dmaStart sd 32,
    .dmaResume { sd with hm := 256 } 0, .dmaResume { sd with agent := 256 } 0, .dmaResume sd 32, .dmaAbort { sd with hm := 256 } 0,
    .dmaAbort { sd with agent := 256 } 0, .dmaAbort sd 32, .dmaDescFetch 32, .dmaBurst 32, .dmaDescComplete 32,
    .mbxHdrWrite { sd with hm := 256 } 0 0 0#32, .mbxHdrWrite { sd with agent := 256 } 0 0 0#32, .mbxHdrWrite sd 16 0 0#32, .mbxHdrWrite sd 0 2 0#32,
    .mbxHdrcWrite { sd with hm := 256 } 0 0 0#32, .mbxHdrcWrite { sd with agent := 256 } 0 0 0#32, .mbxHdrcWrite sd 16 0 0#32,
    .mbxHdrcWrite sd 0 2 0#32, .mbxHdrTimeout 16 0, .mbxHdrTimeout 0 2, .mbxDataWrite { sd with hm := 256 } 0 0 0#32] : List Instr).all (fun c => !c.wf) = true := by decide

set_option maxRecDepth 20000 in
theorem test_ill_formed_13 : ([
  .mbxDataWrite { sd with agent := 256 } 0 0 0#32, .mbxDataWrite sd 16 0 0#32, .mbxDataWrite sd 0 2 0#32, .mbxPop { sd with hm := 256 } 0 0,
    .mbxPop { sd with agent := 256 } 0 0, .mbxPop sd 16 0, .mbxPop sd 0 2, .mbxGo { sd with hm := 256 } 0 0, .mbxGo { sd with agent := 256 } 0 0,
    .mbxGo sd 16 0, .mbxGo sd 0 2, .mbxHdrRead { sd with hm := 256 } 0 0, .mbxHdrRead { sd with agent := 256 } 0 0, .mbxHdrRead sd 16 0,
    .mbxHdrRead sd 0 2, .mbxFlush { sd with hm := 256 } 0 0#32, .mbxFlush { sd with agent := 256 } 0 0#32, .mbxFlush sd 16 0#32,
    .evqPop { sd with hm := 256 } 0, .evqPop { sd with agent := 256 } 0, .evqPop sd 16, .evqOverflow 16, .doorbellRing { sd with hm := 256 } 0 0#32,
    .doorbellRing { sd with agent := 256 } 0 0#32, .doorbellRing sd 16 0#32, .doorbellWake { sd with hm := 256 } 0,
    .doorbellWake { sd with agent := 256 } 0, .doorbellWake sd 16, .patchEntryWrite { sd with hm := 256 } 0 0 0#32,
    .patchEntryWrite { sd with agent := 256 } 0 0 0#32, .patchEntryWrite sd 2 0 0#32, .patchEntryWrite sd 0 8192 0#32,
    .routeMuteCmd { sd with hm := 256 } 0#32, .routeMuteCmd { sd with agent := 256 } 0#32, .contributionWrite { sd with hm := 256 } 0 0 none none,
    .contributionWrite { sd with agent := 256 } 0 0 none none, .contributionWrite sd 2 0 none none, .contributionWrite sd 0 65536 none none,
    .sumxListWrite { sd with hm := 256 } 0 0 0#32, .sumxListWrite { sd with agent := 256 } 0 0 0#32] : List Instr).all (fun c => !c.wf) = true := by decide

set_option maxRecDepth 20000 in
theorem test_ill_formed_14 : ([
  .sumxListWrite sd 2 0 0#32, .sumxListWrite sd 0 256 0#32, .tapPeakCapture { sd with hm := 256 } 0, .tapPeakCapture { sd with agent := 256 } 0,
    .tapPeakCapture sd 4096, .loudBlock 16, .chainWrite { sd with hm := 256 } 0 0 0#32, .chainWrite { sd with agent := 256 } 0 0 0#32,
    .chainWrite sd 2048 0 0#32, .chainWrite sd 0 8 0#32, .coefWrite { sd with hm := 256 } 0 0 0#32, .coefWrite { sd with agent := 256 } 0 0 0#32,
    .coefWrite sd 2 0 0#32, .coefWrite sd 0 122880 0#32, .eqaClear { sd with hm := 256 } 0#32, .eqaClear { sd with agent := 256 } 0#32,
    .safeArm { sd with hm := 256 } 0, .safeArm { sd with agent := 256 } 0, .safeArm sd 16, .safeArmCheckDone 16, .safeDisarm { sd with hm := 256 } 0,
    .safeDisarm { sd with agent := 256 } 0, .safeDisarm sd 16, .safeClrinc { sd with hm := 256 } 0, .safeClrinc { sd with agent := 256 } 0,
    .safeClrinc sd 16, .safeSwap 16, .syncDone 16, .sapInputFrame 4 0 0 [] [], .sapOutputFrame 4 [], .sapClockLoss 4, .madiRxFrame 2 mf,
    .madiRxNosig 2, .madiTxFrame 2, .netFrameReceive 2 [] false none, .legLoss 1024 0, .legLoss 0 2, .flowLoss 1024, .mediaPacketLaunch 1024,
    .controlFrameTransmit 2] : List Instr).all (fun c => !c.wf) = true := by decide

set_option maxRecDepth 20000 in
theorem test_ill_formed_15 : ([
  .flowEnable { sd with hm := 256 } false 0, .flowEnable { sd with agent := 256 } false 0, .flowEnable sd false 1024,
    .flowDisable { sd with hm := 256 } false 0, .flowDisable { sd with agent := 256 } false 0, .flowDisable sd false 1024, .linkUp 2, .linkDown 2,
    .heartbeat { rx with seq := 4096 } 0 0 0 0 0 0 0, .heartbeat { rx with ack := some 4096 } 0 0 0 0 0 0 0,
    .heartbeat { rx with pairId := 65536 } 0 0 0 0 0 0 0, .heartbeat { rx with hm := 256 } 0 0 0 0 0 0 0,
    .heartbeat rx 18446744073709551616 0 0 0 0 0 0, .heartbeat rx 0 7 0 0 0 0 0, .heartbeat rx 0 0 2 0 0 0 0, .heartbeat rx 0 0 0 4 0 0 0,
    .heartbeat rx 0 0 0 0 4294967296 0 0, .digest { rx with seq := 4096 } 0 [], .digest { rx with ack := some 4096 } 0 [],
    .digest { rx with pairId := 65536 } 0 [], .digest { rx with hm := 256 } 0 [], .digest rx 18446744073709551616 [],
    .fwdWrite { rx with seq := 4096 } 0 0#32 0, .fwdWrite { rx with ack := some 4096 } 0 0#32 0, .fwdWrite { rx with pairId := 65536 } 0 0#32 0,
    .fwdWrite { rx with hm := 256 } 0 0#32 0, .fwdWrite rx 4294967296 0#32 0, .fwdWrite rx 0 0#32 18446744073709551616,
    .fwdTaq { rx with seq := 4096 } 0 0, .fwdTaq { rx with ack := some 4096 } 0 0, .fwdTaq { rx with pairId := 65536 } 0 0,
    .fwdTaq { rx with hm := 256 } 0 0, .fwdTaq rx 1024 0, .fwdTaq rx 0 18446744073709551616, .fwdMsg { rx with seq := 4096 } 0 [] 0,
    .fwdMsg { rx with ack := some 4096 } 0 [] 0, .fwdMsg { rx with pairId := 65536 } 0 [] 0, .fwdMsg { rx with hm := 256 } 0 [] 0,
    .fwdMsg rx 16 [] 0, .fwdMsg rx 0 [] 18446744073709551616] : List Instr).all (fun c => !c.wf) = true := by decide

set_option maxRecDepth 20000 in
theorem test_ill_formed_16 : ([
  .mirror { rx with seq := 4096 } 0 0 0 [], .mirror { rx with ack := some 4096 } 0 0 0 [], .mirror { rx with pairId := 65536 } 0 0 0 [],
    .mirror { rx with hm := 256 } 0 0 0 [], .mirror rx 11 0 0 [], .mirror rx 0 64 0 [], .mirror rx 0 0 18446744073709551616 [],
    .hostdata { rx with seq := 4096 } 0 0 [], .hostdata { rx with ack := some 4096 } 0 0 [], .hostdata { rx with pairId := 65536 } 0 0 [],
    .hostdata { rx with hm := 256 } 0 0 [], .hostdata rx 32 0 [], .hostdata rx 0 4294967296 [], .copy { rx with seq := 4096 } 0 0 [],
    .copy { rx with ack := some 4096 } 0 0 [], .copy { rx with pairId := 65536 } 0 0 [], .copy { rx with hm := 256 } 0 0 [],
    .copy rx 4294967296 0 [], .copy rx 0 9 [], .join { rx with seq := 4096 } 0, .join { rx with ack := some 4096 } 0,
    .join { rx with pairId := 65536 } 0, .join { rx with hm := 256 } 0, .join rx 18446744073709551616, .enter { rx with seq := 4096 } 0,
    .enter { rx with ack := some 4096 } 0, .enter { rx with pairId := 65536 } 0, .enter { rx with hm := 256 } 0, .enter rx 18446744073709551616,
    .reclaim { rx with seq := 4096 } 0, .reclaim { rx with ack := some 4096 } 0, .reclaim { rx with pairId := 65536 } 0,
    .reclaim { rx with hm := 256 } 0, .reclaim rx 18446744073709551616, .switch { rx with seq := 4096 } 0, .switch { rx with ack := some 4096 } 0,
    .switch { rx with pairId := 65536 } 0, .switch { rx with hm := 256 } 0, .switch rx 18446744073709551616, .relinquish { rx with seq := 4096 } 0] : List Instr).all (fun c => !c.wf) = true := by decide

set_option maxRecDepth 20000 in
theorem test_ill_formed_17 : ([
  .relinquish { rx with ack := some 4096 } 0, .relinquish { rx with pairId := 65536 } 0, .relinquish { rx with hm := 256 } 0,
    .relinquish rx 18446744073709551616, .leave { rx with seq := 4096 } 0, .leave { rx with ack := some 4096 } 0,
    .leave { rx with pairId := 65536 } 0, .leave { rx with hm := 256 } 0, .leave rx 18446744073709551616, .trained 4, .laneDown 2, .laneUp 2,
    .duoJoin { sd with hm := 256 } {}, .duoJoin { sd with agent := 256 } {}, .duoSwitch { sd with hm := 256 }, .duoSwitch { sd with agent := 256 },
    .duoLeave { sd with hm := 256 }, .duoLeave { sd with agent := 256 }, .jackClass 0 0 256 0, .jackClass 0 0 0 256, .buttonSample 256, .btnPress 4,
    .spkCfgWrite { sd with hm := 256 } 0#32, .spkCfgWrite { sd with agent := 256 } 0#32, .spkFinalClear { sd with hm := 256 },
    .spkFinalClear { sd with agent := 256 }, .silSleep 2, .silWake 2, .ringCntCapture { sd with hm := 256 },
    .ringCntCapture { sd with agent := 256 }, .fetchGo { sd with hm := 256 } 0#32, .fetchGo { sd with agent := 256 } 0#32, .pcieLinkDown 4,
    .pcieLinkUp 4, .flrStart 17, .flrComplete 17, .apertureAccess 16 0 none, .apertureAccess 0 65536 none, .apertureAbort 16,
    .pfMsiTrigger { sd with hm := 256 } 0#32] : List Instr).all (fun c => !c.wf) = true := by decide

set_option maxRecDepth 20000 in
theorem test_ill_formed_18 : ([
  .pfMsiTrigger { sd with agent := 256 } 0#32, .vfMsiTrigger { sd with hm := 256 } 0 0#32, .vfMsiTrigger { sd with agent := 256 } 0 0#32,
    .vfMsiTrigger sd 16 0#32, .bootPushGo { sd with hm := 256 }, .bootPushGo { sd with agent := 256 }, .qspiCommand { sd with hm := 256 } 0#32,
    .qspiCommand { sd with agent := 256 } 0#32, .twbAddressMatch 128 false none 0, .twbAddressMatch 0 false none 4, .twbStop 4, .twbDormantMatch 128,
    .pwrCmdRun { sd with hm := 256 }, .pwrCmdRun { sd with agent := 256 }, .pwrCmdIdle { sd with hm := 256 }, .pwrCmdIdle { sd with agent := 256 },
    .pwrCmdListen { sd with hm := 256 }, .pwrCmdListen { sd with agent := 256 }, .pwrCmdDormant { sd with hm := 256 },
    .pwrCmdDormant { sd with agent := 256 }, .pwrKeyWrite { sd with hm := 256 } 0#32, .pwrKeyWrite { sd with agent := 256 } 0#32,
    .pwrReqRun { sd with hm := 256 }, .pwrReqRun { sd with agent := 256 }, .gpioOutWrite { sd with hm := 256 } 0#32,
    .gpioOutWrite { sd with agent := 256 } 0#32, .gpioEdge 6 false, .wdtStart { sd with hm := 256 }, .wdtStart { sd with agent := 256 },
    .wdtServiceWrite { sd with hm := 256 } 0#32 0, .wdtServiceWrite { sd with agent := 256 } 0#32 0, .fuseProgGo { sd with hm := 256 },
    .fuseProgGo { sd with agent := 256 }, .lcAdvanceCmd { sd with hm := 256 } 0#32, .lcAdvanceCmd { sd with agent := 256 } 0#32, .dpacc 4 0 0#32,
    .dpacc 0 4294967296 0#32, .dbgHalt 131072, .dbgResume 131072, .dbgStep 131072] : List Instr).all (fun c => !c.wf) = true := by decide

set_option maxRecDepth 20000 in
theorem test_ill_formed_19 : ([
  .quarLifted { sd with hm := 256 } 0, .quarLifted { sd with agent := 256 } 0, .quarLifted sd 4294967296, .registerRead { sd with hm := 256 } 0,
    .registerRead { sd with agent := 256 } 0, .registerRead sd 4294967296, .storeAccepted 17 false, .hpLimit 4, .vfEnable false 17 false,
    .msixUnmask 17 none] : List Instr).all (fun c => !c.wf) = true := by decide

set_option maxRecDepth 20000 in
theorem test_well_formed_0 : ([
  .registerWrite sd 0 0#32, .cpEvenWrite sd 0 0#32, .cpOddWrite sd 0 0#32, .cpPairTimeout 0, .unmappedAccess sd 0 false, .tickCfgWrite sd 0#32,
    .tickRunStart sd, .deferredTickStart, .tickStopRequest, .tickStopHold, .tickStart, .guardStart, .sysEscLoRead sd, .evrOverflow,
    .sysEvrCfgWrite false 0#32, .sysKeyWrite sd 0#32, .sysResetWrite sd 0#32, .clkTgtCommit sd 0#32, .smallStepApply, .pllLockDeclared, .relockDone,
    .relockTimeout, .pllAcquireStart 0#32, .calMeasureStart sd 0#32, .calMeasureDone 0, .lpoCalUpdate 0, .lockLost, .lockRegained, .lockLossTimeout,
    .freqMonitorWindow 0, .xtalFail, .clkGateWrite 0#32, .clkGateClose 0, .refGateEnd 0 false 0, .refLos 0, .refEvent 0 0, .vrefFrameStart 0 0,
    .refUpdate, .refHistorySample, .refPtpQualWrite 0#32, .refFreqWrite sd 0#32, .refPhaseStepWrite sd 0#32, .realignCommand 0#32, .realignApply,
    .timeIncrCommit sd 0#32, .timeStep sd 0#32, .timeNowCapture sd, .timeLatchCapture sd, .txtsPop, .taqArm sd 0 0#32, .taqCancel sd 0 0#32,
    .taqCutoff, .timedPatchApply, .timedMuteStart, .timedGpioChange, .add ci 0 0 0, .sub ci 0 0 0, .adds ci 0 0 0, .subs ci 0 0 0, .and ci 0 0 0] : List Instr).all Instr.wf = true := by decide

set_option maxRecDepth 20000 in
theorem test_well_formed_1 : ([
  .or ci 0 0 0, .xor ci 0 0 0, .andn ci 0 0 0, .shl ci 0 0 0, .shr ci 0 0 0, .sra ci 0 0 0, .min ci 0 0 0, .max ci 0 0 0, .minu ci 0 0 0,
    .maxu ci 0 0 0, .peak ci 0 0 0, .mov ci 0 0, .neg ci 0 0, .not ci 0 0, .abs ci 0 0, .clz ci 0 0, .cls ci 0 0, .log2 ci 0 0, .exp2 ci 0 0,
    .exp2g ci 0 0, .addi ci 0 0 0, .andi ci 0 0 0, .ori ci 0 0 0, .xori ci 0 0 0, .shli ci 0 0 0, .shri ci 0 0 0, .srai ci 0 0 0, .movi ci 0 0,
    .cmp ci 0 0 0 0, .cmpi ci 0 0 0 0, .divs ci 0 0, .sqrs ci 0, .mac ci 0 0 0 0 false, .msu ci 0 0 0 0 false, .dot2 ci 0 0 0 0 false false,
    .macp ci 0 0 0 0 false false, .bq ci 0 0 0 0, .aclr ci 0, .amov ci 0 0, .ald ci 0 0, .aadd ci 0 0, .asub ci 0 0, .ashl ci 0 0, .asra ci 0 0,
    .aneg ci 0, .rda ci 0 0 0 0 0, .sta ci 0 0 false 0 0 0, .ext ci 0, .ldw ci 0 (.ptr 0 false), .ldd ci 0 (.ptr 0 false), .stw ci 0 (.ptr 0 false),
    .std ci 0 (.ptr 0 false), .ld2 ci 0 0 0 false 0 false false, .mtp ci .p 0 0, .mfp ci .p 0 0, .pstep ci 0 0, .ldl ci 0 0, .stc ci 0 0 0, .br ci 0,
    .brl ci 0] : List Instr).all Instr.wf = true := by decide

set_option maxRecDepth 20000 in
theorem test_well_formed_2 : ([
  .jr ci 0 0, .loop ci (.imm 0) 0, .loops ci, .predAnd ci 0 0 false 0 false, .predOr ci 0 0 false 0 false, .predXor ci 0 0 false 0 false,
    .pflag ci 0 0, .mfs ci 0 0, .mts ci 0 0, .lock ci, .unlock ci, .fence ci, .gap ci 0, .wft ci, .wftWake 0, .split ci 0, .trap ci 0, .brk ci,
    .rte ci, .tready ci 0, .tcancel ci 0, .tyield ci, .tdone ci 0, .taskComplete 0, .waiti ci, .waitiWake, .ieset ci 0 false, .moncall ci 0,
    .isync ci, .irqEntry, .preemption 0 0, .lockBreak 0, .remoteLoadComplete 0 0, .coreDmaStarve 0 0, .coreTenantWrite sd 0 0#32, .scrubDone 0,
    .schedSubmit sd 0, .schedReady sd 0#32, .schedCancel sd 0, .schedFree sd 0, .schedRangeCommit sd 0 0#32, .taskDispatch 0, .taskMigrate 0 0,
    .taskAbort 0, .schedCqPop sd 0, .accelJobComplete 0, .ingotHandover sd 0 0#32, .drainComplete 0, .ingotScrubDone 0, .retentionRequest sd 0 0#32,
    .retEntered 0, .retWoken 0, .ingotStarve 0 0, .windowCommit sd 0 0 0#32, .faultRecordClear 0 0#32, .hostReadCompletion (.fetch 0) none,
    .hostReadTimeout (.fetch 0), .dmaStart sd 0, .dmaResume sd 0, .dmaAbort sd 0] : List Instr).all Instr.wf = true := by decide

set_option maxRecDepth 20000 in
theorem test_well_formed_3 : ([
  .dmaDescFetch 0, .dmaBurst 0, .dmaDescComplete 0, .mbxHdrWrite sd 0 0 0#32, .mbxHdrcWrite sd 0 0 0#32, .mbxHdrTimeout 0 0,
    .mbxDataWrite sd 0 0 0#32, .mbxPop sd 0 0, .mbxGo sd 0 0, .mbxHdrRead sd 0 0, .mbxFlush sd 0 0#32, .evqPop sd 0, .evqOverflow 0,
    .doorbellRing sd 0 0#32, .doorbellWake sd 0, .patchEntryWrite sd 0 0 0#32, .routeMuteCmd sd 0#32, .contributionWrite sd 0 0 none none,
    .sumxListWrite sd 0 0 0#32, .sumxSumJob, .sumxFinishJob, .tapPeakCapture sd 0, .loudBlock 0, .chainWrite sd 0 0 0#32, .coefWrite sd 0 0 0#32,
    .eqaClear sd 0#32, .eqaChainJob, .safeArm sd 0, .safeArmCheckDone 0, .safeDisarm sd 0, .safeClrinc sd 0, .safeSwap 0, .syncDone 0,
    .sapInputFrame 0 0 0 [] [], .sapOutputFrame 0 [], .sapClockLoss 0, .madiRxFrame 0 mf, .madiRxNosig 0, .madiTxFrame 0,
    .netFrameReceive 0 [] false none, .legLoss 0 0, .flowLoss 0, .mediaPacketLaunch 0, .controlFrameTransmit 0, .flowEnable sd false 0,
    .flowDisable sd false 0, .linkUp 0, .linkDown 0, .heartbeat rx 0 0 0 0 0 0 0, .digest rx 0 [], .fwdWrite rx 0 0#32 0, .fwdTaq rx 0 0,
    .fwdMsg rx 0 [] 0, .mirror rx 0 0 0 [], .hostdata rx 0 0 [], .copy rx 0 0 [], .join rx 0, .enter rx 0, .reclaim rx 0, .switch rx 0] : List Instr).all Instr.wf = true := by decide

set_option maxRecDepth 20000 in
theorem test_well_formed_4 : ([
  .relinquish rx 0, .leave rx 0, .svlRetransmit, .linkFail, .trained 0, .laneDown 0, .laneUp 0, .linkHeartbeatLost, .netHeartbeatAbsent,
    .duoJoin sd {}, .copyRoundEnd, .lockstepEntry, .paired, .joinConvergeTimeout, .forwardedApply, .failover, .primaryGoesSolo, .revertHoldReached,
    .duoSwitch sd, .roleSwap, .duoLeave sd, .departureAtF, .jackDetEdge false, .jackInsertConfirm, .jackRemoved, .jackClass 0 0 0 0, .buttonSample 0,
    .btnPress 0, .btnRelease, .btnLong, .spkCfgWrite sd 0#32, .spkTrip, .spkSoftstartDone, .spkRetry, .spkAttemptsReset, .spkFinalClear sd,
    .spkThermalEnter 0, .spkThermalExit 0, .silSleep 0, .silWake 0, .ringSampleWrite 0#32 0, .ringCntCapture sd, .fetchGo sd 0#32, .fetchComplete,
    .pcieLinkDown 0, .pcieLinkUp 0, .flrStart 0, .flrComplete 0, .apertureAccess 0 0 none, .apertureAbort 0, .pfMsiTrigger sd 0#32,
    .vfMsiTrigger sd 0 0#32, .bootRomStart, .bootPushGo sd, .bootImageCheck none, .qspiCommand sd 0#32, .cmdDone [], .twbAddressMatch 0 false none 0,
    .twbWriteWord 0#32, .twbReadWord] : List Instr).all Instr.wf = true := by decide

set_option maxRecDepth 20000 in
theorem test_well_formed_5 : ([
  .twbStop 0, .twStretch, .twbLingerExpire, .twWake, .twbDormantMatch 0, .pwrCmdRun sd, .pwrCmdIdle sd, .pwrCmdListen sd, .pwrCmdDormant sd,
    .pwrKeyWrite sd 0#32, .pwrReqRun sd, .idleEntry, .idleExit, .listenEntry, .listenExit, .dormantEntry, .dormantWake, .wakePinRequest false,
    .powerOnReset false, .resetNReset false false, .supplyReset false, .softwareReset, .fuseLoad, .gpioOutWrite sd 0#32, .gpioEdge 0 false,
    .wdtStart sd, .wdtEarly, .wdtServiceWrite sd 0#32 0, .wdtExpiry, .watchdogReset, .fuseProgGo sd, .progDone, .lcAdvanceCmd sd 0#32,
    .retireEraseDone, .fuseBlow, .lcAdvance, .derive, .extest none, .samplePreload [] [], .idcode, .clamp, .highz, .bypass, .wakereq,
    .dpacc 0 0 0#32, .testLogicReset, .dbgRequest 0#32, .dbgAuthSubmit, .dbgChallengeExpire, .dbgClose, .dbgHalt 0, .dbgResume 0, .dbgStep 0,
    .debugReset, .assayScrub, .trackEntryExpire, .quarLifted sd 0, .avsMeasurement [] 0, .thermalReading 0 0 0 0, .thermStop] : List Instr).all Instr.wf = true := by decide

set_option maxRecDepth 20000 in
theorem test_well_formed_6 : ([
  .levelDwellStep, .registerRead sd 0, .storeAccepted 0 false, .samplePeriod 0#32, .svlFrameError .crc, .reclaimAckTimeout, .hpLimit 0,
    .cueSuppliesAbsent false false, .dbgWaitEnd, .vfEnable false 0 false, .msixUnmask 0 none] : List Instr).all Instr.wf = true := by decide

end Sys2Proof.Tests
end

/-!
PROOFS. The statements about scope: the complement-paired write (R10, R11, R667) and the state
after reset. Each is settled by the lemmas above it, one a case of the model's own definition.
-/
namespace Sys2Proof.Machine

/-! ### Effects of a command on an awake engine -/

/-- A command of an awake engine does what its effect does. -/
theorem State.eff_eq_does {s : State} {f g : Engine → Engine} (hs : s.awake = true) (h : f s.eng = g s.eng) :
    s.eff f = s.does g := by
  rw [State.eff_live s f hs, h]; rfl

/-- A command whose effect leaves the engine as it is leaves the state as it is. -/
theorem State.eff_eq_self {s : State} {f : Engine → Engine} (h : f s.eng = s.eng) : s.eff f = .next s := by
  simp [State.eff, h]

/-! ### The words of a pair -/

/-- The engine with `p` as the even word pending at the pair `a`. -/
def Engine.withPend (e : Engine) (a : Nat) (p : Option CpPend) : Engine :=
  { e with cpPend := Tbl.set none e.cpPend a p }

/-- A pair's row names it by the aligned address at or below; an aligned one is its own. -/
theorem pairBase_eq {a : Nat} (h : a % 8 = 0) : a / 8 * 8 = a := by omega

/-- An engine in no pair applies every write itself (R518, R520). -/
theorem Engine.regWrite_alone {e : Engine} (hs : e.isStandby = false) (hf : e.forwarding = false)
    (by_ : Sender) (a : Nat) (v : Word) : e.regWrite by_ a v = e.writeHere by_ a v := by
  simp [Engine.regWrite, hs, hf]

theorem Engine.writeHere_even {a : Nat} (h : isPairEven a = true) (e : Engine) (by_ : Sender) (v : Word) :
    e.writeHere by_ a v = e.pairEven by_ a v := by
  simp [Engine.writeHere, h]

theorem Engine.writeHere_odd {a : Nat} (h : isPairEven a = true) (h4 : isPairEven (a + 4) = false)
    (e : Engine) (by_ : Sender) (v : Word) : e.writeHere by_ (a + 4) v = e.pairOdd by_ a v := by
  simp [Engine.writeHere, isPairOdd, h, h4]

/-- An admitted sender's even word is held (R10). -/
theorem Engine.pairEven_admitted {e : Engine} {by_ : Sender} {a : Nat} (hb : e.pairBars by_ a = false) (v : Word) :
    e.pairEven by_ a v = e.withPend a (some { val := v, hm := by_.hm, cyc := e.now }) := by
  simp [Engine.pairEven, Engine.withPend, hb]

/-- A register's refused pair raises WRITE_MISMATCH and nothing else (R667). -/
theorem Engine.pairRefused_register {a : Nat} (ha : a < 0x50000000) (e : Engine) (by_ : Sender) (reason : Nat) :
    e.pairRefused by_ a reason = e.writeMismatch (e.pairOwner a) by_.hm a reason := by
  simp [Engine.pairRefused, show ¬ 0x50300000 ≤ a by omega]

/-- Outside quarantine and outside a pair of engines a complete pair is due in the next cycle (R11). -/
theorem Engine.pairDone_alone {e : Engine} {a : Nat} (hq : e.frozen a = false) (hf : e.forwarding = false)
    (by_ : Sender) (v : Word) :
    e.pairDone by_ a v = { e with cpDue := e.cpDue ++ [{ addr := a, val := v, by_ := by_ }] } := by
  simp [Engine.pairDone, hq, hf]

/-! ### The odd word of an admitted sender, case by case (R10, R667) -/

section Odd

variable {e : Engine} {by_ : Sender} {a : Nat} {p : CpPend} {v : Word}

theorem Engine.pairOdd_withoutEven (hb : e.pairBars by_ a = false) (hp : Tbl.get none e.cpPend a = none) :
    e.pairOdd by_ a v = e.pairRefused by_ a 0 := by
  simp [Engine.pairOdd, hb, hp]

theorem Engine.pairOdd_otherSender (hb : e.pairBars by_ a = false) (hp : Tbl.get none e.cpPend a = some p)
    (hm : p.hm ≠ by_.hm) : e.pairOdd by_ a v = e.pairRefused by_ a 3 := by
  simp [Engine.pairOdd, hb, hp, hm]

theorem Engine.pairOdd_late (hb : e.pairBars by_ a = false) (hp : Tbl.get none e.cpPend a = some p)
    (hm : p.hm = by_.hm) (ht : p.cyc + 64 ≤ e.now) :
    e.pairOdd by_ a v = (e.withPend a none).pairRefused by_ a 2 := by
  simp [Engine.pairOdd, Engine.withPend, hb, hp, hm, ht]

theorem Engine.pairOdd_complement (hb : e.pairBars by_ a = false) (hp : Tbl.get none e.cpPend a = some p)
    (hm : p.hm = by_.hm) (ht : e.now < p.cyc + 64) (hv : v = ~~~ p.val) :
    e.pairOdd by_ a v = (e.withPend a none).pairDone by_ a p.val := by
  simp [Engine.pairOdd, Engine.withPend, hb, hp, hm, hv, Nat.not_le.mpr ht]

theorem Engine.pairOdd_wrong (hb : e.pairBars by_ a = false) (hp : Tbl.get none e.cpPend a = some p)
    (hm : p.hm = by_.hm) (ht : e.now < p.cyc + 64) (hv : v ≠ ~~~ p.val) :
    e.pairOdd by_ a v = (e.withPend a none).pairRefused by_ a 1 := by
  simp [Engine.pairOdd, Engine.withPend, hb, hp, hm, hv, Nat.not_le.mpr ht]

/-- An even word unanswered for 64 cycles is discarded (R10). -/
theorem Engine.pairTimeout_late (hp : Tbl.get none e.cpPend a = some p) (ht : p.cyc + 64 ≤ e.now) :
    e.pairTimeout a = (e.withPend a none).writeMismatch (e.pairOwner a) p.hm a 2 := by
  simp [Engine.pairTimeout, Engine.withPend, hp, ht]

theorem Engine.pairTimeout_early (hp : Tbl.get none e.cpPend a = some p) (ht : e.now < p.cyc + 64) :
    e.pairTimeout a = e := by
  simp [Engine.pairTimeout, hp, Nat.not_le.mpr ht]

end Odd

/-! ### The commands -/

section Commands

variable {s : State} {a : Nat}

/-- In no pair of engines CP_EVEN_WRITE is the even word's rule. -/
theorem execCpEvenWrite_alone (ha : a % 8 = 0) (he : isPairEven a = true) (hs : s.eng.isStandby = false)
    (hf : s.eng.forwarding = false) (by_ : Sender) (v : Word) :
    execCpEvenWrite by_ a v s = s.eff fun e => e.pairEven by_ a v := by
  simp [execCpEvenWrite, State.eff, pairBase_eq ha, he, Engine.regWrite_alone hs hf, Engine.writeHere_even he]

/-- In no pair of engines CP_ODD_WRITE is the odd word's rule. -/
theorem execCpOddWrite_alone (ha : a % 8 = 0) (he : isPairEven a = true) (ho : isPairEven (a + 4) = false)
    (hs : s.eng.isStandby = false) (hf : s.eng.forwarding = false) (by_ : Sender) (v : Word) :
    execCpOddWrite by_ a v s = s.eff fun e => e.pairOdd by_ a v := by
  simp [execCpOddWrite, State.eff, pairBase_eq ha, he, Engine.regWrite_alone hs hf, Engine.writeHere_odd he ho]

theorem execCpPairTimeout_base (ha : a % 8 = 0) (s : State) :
    execCpPairTimeout a s = s.eff fun e => e.pairTimeout a := by
  rw [execCpPairTimeout, pairBase_eq ha]

end Commands

/-- Settles O16: each clause is one case of the pair's even word, odd word or timeout. -/
theorem complementPairWrites : Obligations.ComplementPairWrites := by
  unfold Obligations.ComplementPairWrites
  intro s by_ a v hs ha8 _ hhi he ho hb hst hfw hq refused hold odd
  have hodd : odd = s.eff fun e => e.pairOdd by_ a v := execCpOddWrite_alone ha8 he ho hst hfw by_ v
  have htime : exec (.cpPairTimeout a) s = s.eff fun e => e.pairTimeout a := execCpPairTimeout_base ha8 s
  have hrefused (e : Engine) (r : Nat) : e.pairRefused by_ a r = refused by_.hm r e :=
    Engine.pairRefused_register hhi e by_ r
  refine ⟨?even, fun hp => ?withoutEven, fun p hp => ⟨fun hm => ?otherSender, fun hm ht hv => ?complement,
    fun hm ht hv => ?wrong, fun hm ht => ?late, fun ht => ?timeout, fun ht => ?early⟩⟩
  case even =>
    rw [exec_cpEvenWrite, execCpEvenWrite_alone ha8 he hst hfw]
    exact State.eff_eq_does hs (Engine.pairEven_admitted hb v)
  case withoutEven =>
    rw [hodd]
    exact State.eff_eq_does hs ((Engine.pairOdd_withoutEven hb hp).trans (hrefused _ 0))
  case otherSender =>
    rw [hodd]
    exact State.eff_eq_does hs ((Engine.pairOdd_otherSender hb hp hm).trans (hrefused _ 3))
  case complement =>
    rw [hodd]
    exact State.eff_eq_does hs ((Engine.pairOdd_complement hb hp hm ht hv).trans
      (Engine.pairDone_alone (e := s.eng.withPend a none) hq hfw by_ p.val))
  case wrong =>
    rw [hodd]
    exact State.eff_eq_does hs ((Engine.pairOdd_wrong hb hp hm ht hv).trans (hrefused _ 1))
  case late =>
    rw [hodd]
    exact State.eff_eq_does hs ((Engine.pairOdd_late hb hp hm ht).trans (hrefused _ 2))
  case timeout =>
    rw [htime]
    exact State.eff_eq_does hs (Engine.pairTimeout_late hp ht)
  case early =>
    rw [htime]
    exact State.eff_eq_self (Engine.pairTimeout_early hp ht)

/-! ### The state after reset -/

/-- At reset every register and table word reads its reset value. -/
theorem reset_rd (a : Nat) : State.reset.eng.rd a = resetWord a := rfl

/-- At reset memory reads as zero (log entry 4). -/
theorem reset_ldB (a : Nat) : State.reset.eng.ldB a = 0#8 := rfl

/-- No fuse of a blank array is blown. -/
theorem fuseBlown_nil (i : Nat) : fuseBlown [] i = false := by
  simp [fuseBlown, bitOf]

/-- At reset only the control core's entry is listed: every other core is as it is when idle. -/
theorem reset_coreOf_anvil {c : Nat} (h : c < 16) : State.reset.eng.coreOf c = {} := by
  simp [Engine.coreOf, State.reset, Tbl.get, Tbl.getF, Nat.ne_of_lt h]

/-- Settles O55: the tables' reset values are evaluated, the rest holds of what reset lists. -/
theorem resetState : Obligations.ResetState := by
  unfold Obligations.ResetState
  intro s
  refine ⟨rfl, rfl, State.reset_fuseWf, State.reset_memoryWf, State.reset_regsWf, reset_rd, reset_ldB, fuseBlown_nil, ?sysId,
    ?tickCfg, ?cause, ?idleCores, ?period, ?trim, ?stopped, ?mode, rfl, fun c hc => ?task, ?lockstep, rfl⟩
  case task => rw [reset_coreOf_anvil hc]
  case sysId | tickCfg | cause | idleCores | period | trim => decide
  case stopped | mode | lockstep => decide

end Sys2Proof.Machine

/-!
PROOFS. The statements about the root clock: target words, small steps and relocks (R50 to R60,
R69 to R71, R75, R76), then its monitors, acquisition, calibration and gates (R54 to R56, R66, R67,
R72, R73). Each clause of a statement is one case of the model's own definition, named here.
-/
namespace Sys2Proof.Machine

/-! ### What the clock's registers show after an update -/

section Reads

variable (e : Engine) {f : Fld}

theorem Engine.get_putB_other_reg {g : Fld} (b : Bool) (h : f.addr ≠ g.addr) : (e.putB g b).get f = e.get f :=
  e.get_put_other_reg _ h

theorem Engine.get_wrCp_other {a : Nat} (v : Word) (h : f.addr ≠ a) (h4 : f.addr ≠ a + 4) :
    (e.wrCp a v).get f = e.get f :=
  ((e.wr a v).get_wr_other (~~~ v) h4).trans (e.get_wr_other v h)

/-- The word in use is read from CLK_CUR_LO and CLK_CUR_HI alone. -/
theorem Engine.clkWord_congr {t : Engine} (lo : ∀ f : Fld, f.addr = CLK_CUR_LO → t.get f = e.get f)
    (hi : ∀ f : Fld, f.addr = CLK_CUR_HI → t.get f = e.get f) : t.clkWord = e.clkWord := by
  unfold Engine.clkWord
  rw [lo CLK_CUR_LO_FRAC rfl, hi CLK_CUR_HI_INT rfl, hi CLK_CUR_HI_FRAC_HI rfl]

theorem Engine.clkWord_clkUnhold : e.clkUnhold.clkWord = e.clkWord :=
  e.clkWord_congr (fun _ h => e.get_putB_other_reg false (by rw [h]; decide))
    fun _ h => e.get_putB_other_reg false (by rw [h]; decide)

end Reads

/-! ### A commit taken up in LOCKED (R55, R57, R59) -/

/-- Word `w` is a small step from the word in use and inside the band in use (R57). -/
def Engine.SmallTo (e : Engine) (w : Nat) : Prop :=
  max w e.clkWord - min w e.clkWord ≤ smallStep ∧
    e.clk.bandLo * 2 ^ 40 ≤ w * 1024 ∧ w * 1024 < e.clk.bandHi * 2 ^ 40

/-- The small step to `w` is applied now (R57, R58). -/
def Engine.stepTo (e : Engine) (w : Nat) : Engine :=
  ((e.setClkWord w).putB CLK_STATUS_NOBAND false).updClk fun c => { c with lastApply := some e.now }

theorem Engine.smallTo_iff {e : Engine} {w : Nat} :
    e.SmallTo w ↔ max w e.clkWord - min w e.clkWord ≤ smallStep ∧ inBand w e.clk.bandLo e.clk.bandHi = true := by
  simp [Engine.SmallTo, inBand]

/-- What is a small step depends on the word in use and the band in use alone. -/
theorem Engine.smallTo_congr {e t : Engine} {w : Nat} (hw : t.clkWord = e.clkWord)
    (hlo : t.clk.bandLo = e.clk.bandLo) (hhi : t.clk.bandHi = e.clk.bandHi) : t.SmallTo w ↔ e.SmallTo w := by
  unfold Engine.SmallTo
  rw [hw, hlo, hhi]

theorem Engine.smallTo_clkUnhold {e : Engine} {w : Nat} : e.clkUnhold.SmallTo w ↔ e.SmallTo w :=
  Engine.smallTo_congr e.clkWord_clkUnhold rfl rfl

section Eval

variable {e : Engine} {hm w : Nat}

theorem Engine.clkEval_small (h : e.SmallTo w) : e.clkEval hm w = e.stepTo w :=
  if_pos (Engine.smallTo_iff.mp h)

theorem Engine.clkEval_large (h : ¬ e.SmallTo w) (hl : e.lockstep = false) :
    e.clkEval hm w = match e.bandFor w [] with
      | none => e.noBand hm w
      | some n => e.relockStart hm w n :=
  (if_neg (mt Engine.smallTo_iff.mpr h)).trans (if_neg (ne_true_of_eq_false hl))

theorem Engine.clkEval_relock {n : Nat} (h : ¬ e.SmallTo w) (hl : e.lockstep = false)
    (hb : e.bandFor w [] = some n) : e.clkEval hm w = e.relockStart hm w n := by
  rw [Engine.clkEval_large h hl, hb]

theorem Engine.clkEval_noBand (h : ¬ e.SmallTo w) (hl : e.lockstep = false)
    (hb : e.bandFor w [] = none) : e.clkEval hm w = e.noBand hm w := by
  rw [Engine.clkEval_large h hl, hb]

end Eval

/-! ### A commit in each state of the PLL (R58, R75) -/

section Commit

variable {e : Engine} {hm w : Nat}

theorem Engine.clkCommit_bypass (h : e.get CLK_STATUS_STATE = 0) :
    e.clkCommit hm w = (e.clkUnhold.setClkWord w).putB CLK_STATUS_NOBAND false :=
  if_pos h

theorem Engine.clkCommit_held (h : (e.get CLK_STATUS_STATE ≠ 0 ∧ e.get CLK_STATUS_STATE ≠ 2) ∨
    (e.get CLK_STATUS_STATE = 2 ∧ e.stepHeld = true)) : e.clkCommit hm w = e.clkHold hm w := by
  obtain ⟨h0, h2⟩ | ⟨h2, hh⟩ := h
  · exact (if_neg h0).trans (if_neg h2)
  · simp [Engine.clkCommit, h2, hh]

theorem Engine.clkCommit_locked (h : e.get CLK_STATUS_STATE = 2) (hh : e.stepHeld = false) :
    e.clkCommit hm w = e.clkEval hm w := by
  simp [Engine.clkCommit, h, hh]

theorem Engine.clkHeldApply_none (h : e.clk.held = none) : e.clkHeldApply = e := by
  simp [Engine.clkHeldApply, h]

theorem Engine.clkHeldApply_some (hw : e.clk.held = some w) (h : e.get CLK_STATUS_STATE = 2)
    (hh : e.stepHeld = false) : e.clkHeldApply = e.clkUnhold.clkEval e.clk.heldHm w := by
  simp [Engine.clkHeldApply, hw, h, hh]

/-- A held small step whose time has come is applied (R58). -/
theorem Engine.clkHeldApply_small (hw : e.clk.held = some w) (h : e.get CLK_STATUS_STATE = 2)
    (hh : e.stepHeld = false) (hs : e.SmallTo w) : e.clkHeldApply = e.clkUnhold.stepTo w := by
  rw [Engine.clkHeldApply_some hw h hh, Engine.clkEval_small (Engine.smallTo_clkUnhold.mpr hs)]

end Commit

/-! ### A write of CLK_TGT (R50 to R52) -/

section Target

/-- The word that CLK_TGT written with `v` commits (R50). -/
def Engine.tgtWord (e : Engine) (v : Word) : Nat := v.toNat % 2 ^ 15 * 2 ^ 32 + e.get CLK_TGT_LO_FRAC

/-- The engine with `v` shown in CLK_TGT. -/
def Engine.showTgt (e : Engine) (v : Word) : Engine := e.wrCp CLK_TGT (v &&& 0x7FFF#32)

variable {e : Engine} {by_ : Sender} {v : Word}

theorem clkReach_iff {w : Nat} : clkReach w = true ↔ wNom - wReach ≤ w ∧ w ≤ wNom + wReach := by
  simp [clkReach]

/-- What a write of CLK_TGT does, with the committed word named. -/
theorem Engine.clkTgt_eq (e : Engine) (by_ : Sender) (v : Word) : e.clkTgt by_ v =
    if e.cpOn CLK_SEL_REFDRV then e.raise (clkEvt 0x09 .warn by_.hm v.toNat)
    else if clkReach (e.tgtWord v) then (e.showTgt v).clkCommit by_.hm (e.tgtWord v)
    else e.raise (clkEvt 0x0A .warn by_.hm v.toNat) := by
  have hv : bitsOf v 0 15 = v.toNat % 2 ^ 15 := by simp [bitsOf]
  unfold Engine.clkTgt Engine.tgtWord
  rw [hv]
  rfl

theorem Engine.clkTgt_refDriven (h : e.cpOn CLK_SEL_REFDRV = true) :
    e.clkTgt by_ v = e.raise (clkEvt 0x09 .warn by_.hm v.toNat) := by
  rw [Engine.clkTgt_eq, if_pos h]

theorem Engine.clkTgt_outOfReach (h : e.cpOn CLK_SEL_REFDRV = false)
    (hr : ¬ (wNom - wReach ≤ e.tgtWord v ∧ e.tgtWord v ≤ wNom + wReach)) :
    e.clkTgt by_ v = e.raise (clkEvt 0x0A .warn by_.hm v.toNat) := by
  rw [Engine.clkTgt_eq, if_neg (ne_true_of_eq_false h), if_neg (mt clkReach_iff.mp hr)]

theorem Engine.clkTgt_inReach (h : e.cpOn CLK_SEL_REFDRV = false)
    (hr : wNom - wReach ≤ e.tgtWord v ∧ e.tgtWord v ≤ wNom + wReach) :
    e.clkTgt by_ v = (e.showTgt v).clkCommit by_.hm (e.tgtWord v) := by
  rw [Engine.clkTgt_eq, if_neg (ne_true_of_eq_false h), if_pos (clkReach_iff.mpr hr)]

/-- Showing a target changes the CLK_TGT pair alone. -/
theorem Engine.get_showTgt {f : Fld} (h : f.addr ≠ CLK_TGT ∧ f.addr ≠ CLK_TGT + 4) :
    (e.showTgt v).get f = e.get f :=
  e.get_wrCp_other _ h.1 h.2

theorem Engine.state_showTgt : (e.showTgt v).get CLK_STATUS_STATE = e.get CLK_STATUS_STATE :=
  Engine.get_showTgt (by decide)

theorem Engine.lockstep_showTgt : (e.showTgt v).lockstep = e.lockstep := by
  unfold Engine.lockstep Engine.on
  rw [Engine.get_showTgt (by decide)]

theorem Engine.stepHeld_showTgt : (e.showTgt v).stepHeld = e.stepHeld := rfl

theorem Engine.clkWord_showTgt : (e.showTgt v).clkWord = e.clkWord :=
  e.clkWord_congr (fun _ h => Engine.get_showTgt (by rw [h]; decide))
    fun _ h => Engine.get_showTgt (by rw [h]; decide)

theorem Engine.smallTo_showTgt {w : Nat} : (e.showTgt v).SmallTo w ↔ e.SmallTo w :=
  Engine.smallTo_congr Engine.clkWord_showTgt rfl rfl

end Target

/-! ### The relock sequence and lock loss (R60, R69 to R71, R76) -/

section Relock

variable {e : Engine}

/-- The relock in progress becomes `r`. -/
def Engine.setRelock (e : Engine) (r : Option Relock) : Engine := e.updClk fun c => { c with relock := r }

/-- An acquisition locks (note to CLK_CTRL.PLL_EN). -/
theorem Engine.pllLocked_acquired (h : e.get CLK_STATUS_STATE = 1) :
    e.pllLocked = ((e.put CLK_STATUS_STATE 2).putB CLK_STATUS_LOCK true).clkHeldApply :=
  if_pos h

/-- A relock's lock waits for the block boundary while the tick runs (R60 step 4). -/
theorem Engine.pllLocked_relocking {r : Relock} (h : e.get CLK_STATUS_STATE = 4) (hr : e.clk.relock = some r)
    (hs : r.stopped = false) :
    e.pllLocked = ((e.putB CLK_STATUS_LOCK true).put CLK_STATUS_STATE 5).setRelock (some { r with step := 4 }) := by
  simp [Engine.pllLocked, Engine.setRelock, Engine.updClk, h, hr, hs]

/-- A first failed band gives way to the next best (R76). -/
theorem Engine.relockTimeout_nextBand {r : Relock} {n : Nat} (h : e.get CLK_STATUS_STATE = 4)
    (hr : e.clk.relock = some r) (ht : r.tried.length < 2) (hb : e.bandFor r.word r.tried = some n) :
    e.relockTimeout = (e.useBand n).setRelock
      (some { r with entry := n, tried := r.tried ++ [(e.useBand n).get (CLK_BAND_LO_CODE n)] }) := by
  simp [Engine.relockTimeout, Engine.setRelock, Engine.updClk, h, hr, ht, hb]

/-- CLK_STATUS shows LOCKED and no relock. -/
def Engine.showRelocked (e : Engine) : Engine := (e.put CLK_STATUS_STATE 2).putB CLK_STATUS_RELOCK false

theorem Engine.band_showRelocked (e : Engine) : e.showRelocked.get CLK_STATUS_BAND = e.get CLK_STATUS_BAND := by
  unfold Engine.showRelocked Engine.putB
  rw [Engine.get_put_other_field (g := CLK_STATUS_BAND) (f := CLK_STATUS_RELOCK) _ _ rfl (by decide) (by decide),
    Engine.get_put_other_field (g := CLK_STATUS_BAND) (f := CLK_STATUS_STATE) _ _ rfl (by decide) (by decide)]

/-- The relock is over: LOCKED, RELOCK_DONE with the band in use, and no block discarded (R60 step 8). -/
def Engine.relockOver (e : Engine) : Engine :=
  ((e.showRelocked.raise (clkEvt 0x02 .note 0xFF (e.showRelocked.get CLK_STATUS_BAND))).setRelock none).updTick
    fun t => { t with discard := [] }

/-- Once the faded-in block is out the relock is over and a held commit is taken up. -/
theorem Engine.relockDone_step {r : Relock} (hr : e.clk.relock = some r) (h7 : r.step = 7) :
    e.relockDone = e.relockOver.clkHeldApply := by
  unfold Engine.relockDone Engine.relockOver
  rw [Engine.band_showRelocked, hr]
  simp only [h7, if_true, Engine.showRelocked, Engine.setRelock, Engine.updClk, Engine.updTick]

theorem Engine.relockDone_unheld {r : Relock} (hr : e.clk.relock = some r) (h7 : r.step = 7)
    (hh : e.clk.held = none) : e.relockDone = e.relockOver :=
  (Engine.relockDone_step hr h7).trans (Engine.clkHeldApply_none hh)

theorem Engine.lockLost_locked (h : e.get CLK_STATUS_STATE = 2) :
    e.lockLost = (((e.putB CLK_STATUS_LOCK false).put CLK_STATUS_STATE 6).raise (clkEvt 0x04 .warn 0xFF 0)).refForced :=
  if_pos h

theorem Engine.lockRegained_lost (h : e.get CLK_STATUS_STATE = 6) :
    e.lockRegained = ((((e.putB CLK_STATUS_LOCK true).put CLK_STATUS_STATE 2).raise
      (clkEvt 0x05 .note 0xFF 0)).refUnforced).clkHeldApply :=
  if_pos h

theorem Engine.relockApplied_band {n : Nat} (hb : e.bandFor e.clkWord [] = some n) :
    e.relockApplied = e.relockStart 0xFF e.clkWord n := by
  simp [Engine.relockApplied, hb]

end Relock

/-! ### The commands of CLK_TGT and the relock -/

section Commands

variable {s : State}

/-- A command whose effect REF watches does what its effect does (R102). -/
theorem State.eff_watch {f g : Engine → Engine} (hs : s.awake = true) (h : f s.eng = g s.eng) :
    s.eff (fun e => e.refWatch (f e)) = s.does fun e => e.refWatch (g e) :=
  State.eff_eq_does hs (congrArg s.eng.refWatch h)

theorem exec_clkTgtCommit_direct {by_ : Sender} (h : s.eng.direct by_ CLK_TGT = true) (v : Word) :
    exec (.clkTgtCommit by_ v) s = s.eff fun e => e.refWatch (e.clkTgt by_ v) :=
  State.eff_row (v := fun _ => v) h fun e => e.refWatch (e.clkTgt by_ v)

/-- A commit within reach, while REF does not drive, is the PLL's to take (R50, R51). -/
theorem exec_clkTgtCommit_inReach {by_ : Sender} {v : Word} {g : Engine → Engine} (hs : s.awake = true)
    (hd : s.eng.direct by_ CLK_TGT = true) (hf : s.eng.cpOn CLK_SEL_REFDRV = false)
    (hr : wNom - wReach ≤ s.eng.tgtWord v ∧ s.eng.tgtWord v ≤ wNom + wReach)
    (h : (s.eng.showTgt v).clkCommit by_.hm (s.eng.tgtWord v) = g s.eng) :
    exec (.clkTgtCommit by_ v) s = s.does fun e => e.refWatch (g e) := by
  rw [exec_clkTgtCommit_direct hd]
  exact State.eff_watch hs ((Engine.clkTgt_inReach hf hr).trans h)

theorem execLockLossTimeout_lockstep (hs : s.awake = true) (h : s.eng.get CLK_STATUS_STATE = 6)
    (hl : s.eng.lockstep = true) :
    execLockLossTimeout s = s.does fun e => e.duoAnnounce.updClk fun c => { c with departing := true } :=
  State.eff_eq_does hs (by simp [h, hl])

theorem execLockLossTimeout_alone {g : Engine → Engine} (hs : s.awake = true)
    (h : s.eng.get CLK_STATUS_STATE = 6) (hl : s.eng.lockstep = false) (hg : s.eng.relockApplied = g s.eng) :
    execLockLossTimeout s = s.does fun e => e.refWatch (g e) :=
  State.eff_eq_does hs (by simp [h, hl, hg])

end Commands

/-- Settles O21: a commit goes by the state of the PLL, every other command by its own case. -/
theorem clockTargets : Obligations.ClockTargets := by
  unfold Obligations.ClockTargets
  intro s by_ hs e state watch note small apply unheld
  refine ⟨fun v => ⟨fun hd href => ?refDriven, fun hd href => ⟨fun hr => ?outOfReach, fun hr h0 => ?bypass,
    fun hr hh => ?held, fun hr h2 hh hw => ?small, fun hr h2 hh hw hl => ⟨fun n hb => ?relock, fun hb => ?noBand⟩⟩⟩,
    fun w hw h2 hh hsm => ?apply, fun h1 => ?acquired, fun r h4 hr hst => ?relocking, fun r n h4 hr ht hb => ?nextBand,
    fun r hr h7 hh => ?done, fun h2 => ?lost, fun h6 => ?regained, fun h6 hl => ?departs, fun n h6 hl hb => ?lossRelock⟩
  case refDriven =>
    rw [exec_clkTgtCommit_direct hd]
    exact State.eff_watch hs (Engine.clkTgt_refDriven href)
  case outOfReach =>
    rw [exec_clkTgtCommit_direct hd]
    exact State.eff_watch hs (Engine.clkTgt_outOfReach href hr)
  case bypass =>
    exact exec_clkTgtCommit_inReach hs hd href hr
      (Engine.clkCommit_bypass (Engine.state_showTgt.trans h0))
  case held =>
    exact exec_clkTgtCommit_inReach hs hd href hr
      (Engine.clkCommit_held (by rwa [Engine.state_showTgt, Engine.stepHeld_showTgt]))
  case small =>
    exact exec_clkTgtCommit_inReach hs hd href hr
      ((Engine.clkCommit_locked (Engine.state_showTgt.trans h2) hh).trans
        (Engine.clkEval_small (Engine.smallTo_showTgt.mpr hw)))
  case relock =>
    exact exec_clkTgtCommit_inReach hs hd href hr
      ((Engine.clkCommit_locked (Engine.state_showTgt.trans h2) hh).trans
        (Engine.clkEval_relock (mt Engine.smallTo_showTgt.mp hw) (Engine.lockstep_showTgt.trans hl) hb))
  case noBand =>
    exact exec_clkTgtCommit_inReach hs hd href hr
      ((Engine.clkCommit_locked (Engine.state_showTgt.trans h2) hh).trans
        (Engine.clkEval_noBand (mt Engine.smallTo_showTgt.mp hw) (Engine.lockstep_showTgt.trans hl) hb))
  case apply => exact State.eff_watch hs (Engine.clkHeldApply_small hw h2 hh hsm)
  case acquired => exact State.eff_watch hs (Engine.pllLocked_acquired h1)
  case relocking => exact State.eff_watch hs (Engine.pllLocked_relocking h4 hr hst)
  case nextBand => exact State.eff_watch hs (Engine.relockTimeout_nextBand h4 hr ht hb)
  case done => exact State.eff_watch hs (Engine.relockDone_unheld hr h7 hh)
  case lost => exact State.eff_eq_does hs (Engine.lockLost_locked h2)
  case regained => exact State.eff_eq_does hs (Engine.lockRegained_lost h6)
  case departs => exact execLockLossTimeout_lockstep hs h6 hl
  case lossRelock => exact execLockLossTimeout_alone hs h6 hl (Engine.relockApplied_band hb)

/-! ### The frequency monitor and the crystal (R72, R73) -/

section Monitors

variable {e : Engine} {n : Nat}

/-- The error of a monitor window of `n` cycles, in W_NOM-ths of a cycle (R72). -/
def Engine.monErr (e : Engine) (n : Nat) : Int := (n * wNom : Nat) - (51200 * e.clkWord : Nat)

/-- The word that CLK_MON_ERR shows of it. -/
def Engine.monWord (e : Engine) (n : Nat) : Nat := (BitVec.ofInt 32 (rndDiv (e.monErr n) wNom)).toNat

/-- While the PLL drives, a window shows its error and stops the engine at 103 or more (R72). -/
theorem Engine.freqWindow_driven (h : e.get CLK_STATUS_STATE = 2 ∨ e.get CLK_STATUS_STATE = 6) :
    e.freqWindow n =
      if 103 * wNom ≤ (e.monErr n).natAbs then
        (e.put CLK_MON_ERR (e.monWord n)).refWatch
          (((e.put CLK_MON_ERR (e.monWord n)).safeStop true).raise (clkEvt 0x06 .fault 0xFF (e.monWord n)))
      else e.put CLK_MON_ERR (e.monWord n) :=
  if_neg (by omega)

theorem Engine.freqWindow_within (h : e.get CLK_STATUS_STATE = 2 ∨ e.get CLK_STATUS_STATE = 6)
    (he : (e.monErr n).natAbs < 103 * wNom) : e.freqWindow n = e.put CLK_MON_ERR (e.monWord n) :=
  (Engine.freqWindow_driven h).trans (if_neg (Nat.not_le.mpr he))

theorem Engine.freqWindow_beyond (h : e.get CLK_STATUS_STATE = 2 ∨ e.get CLK_STATUS_STATE = 6)
    (he : 103 * wNom ≤ (e.monErr n).natAbs) : e.freqWindow n = (e.put CLK_MON_ERR (e.monWord n)).refWatch
      (((e.put CLK_MON_ERR (e.monWord n)).safeStop true).raise (clkEvt 0x06 .fault 0xFF (e.monWord n))) :=
  (Engine.freqWindow_driven h).trans (if_pos he)

theorem Engine.xtalFail_again (h : e.on CLK_STATUS_XFAIL = true) : e.xtalFail = e :=
  if_pos h

/-- With the tick stopped the ESC already holds: a crystal failure is a safe stop that ends a relock (R73). -/
theorem Engine.xtalFail_stopped (h : e.on CLK_STATUS_XFAIL = false) (hs : e.stopped = true) :
    e.xtalFail = e.refWatch (((((e.putB CLK_STATUS_XFAIL true).raise (clkEvt 0x08 .fault 0xFF 0)).safeStop true).setRelock
      none).putB CLK_STATUS_RELOCK false) := by
  simp [Engine.xtalFail, Engine.setRelock, h, hs]

end Monitors

/-! ### Acquisition and calibration (R54 to R56, R67) -/

section Acquire

variable {e : Engine} {by_ : Sender} {v : Word}

/-- Setting PLL_EN in BYPASS acquires the word in use on the band of R54. -/
theorem Engine.pllEnable_bypass (hv : v.getLsbD 0 = true) (h : e.get CLK_STATUS_STATE = 0)
    (hx : e.on CLK_STATUS_XFAIL = false) :
    e.pllEnable v = match (e.put CLK_CTRL_PLL_EN 1).bandFor (e.put CLK_CTRL_PLL_EN 1).clkWord [] with
      | some b => (((e.put CLK_CTRL_PLL_EN 1).useBand b).putB CLK_STATUS_NOBAND false).put CLK_STATUS_STATE 1
      | none => (e.put CLK_CTRL_PLL_EN 1).noBand 0xFF (e.put CLK_CTRL_PLL_EN 1).clkWord := by
  have h' : (e.put CLK_CTRL_PLL_EN 1).get CLK_STATUS_STATE = 0 :=
    (e.get_put_other_reg 1 (by decide)).trans h
  have hx' : (e.put CLK_CTRL_PLL_EN 1).on CLK_STATUS_XFAIL = false := by
    unfold Engine.on
    rw [e.get_put_other_reg 1 (by decide)]
    exact hx
  exact (if_pos hv).trans (if_pos ⟨h', hx'⟩)

theorem Engine.pllEnable_acquires {b : Nat} (hv : v.getLsbD 0 = true) (h : e.get CLK_STATUS_STATE = 0)
    (hx : e.on CLK_STATUS_XFAIL = false)
    (hb : (e.put CLK_CTRL_PLL_EN 1).bandFor (e.put CLK_CTRL_PLL_EN 1).clkWord [] = some b) :
    e.pllEnable v = (((e.put CLK_CTRL_PLL_EN 1).useBand b).putB CLK_STATUS_NOBAND false).put CLK_STATUS_STATE 1 := by
  rw [Engine.pllEnable_bypass hv h hx, hb]

theorem Engine.pllEnable_noBand (hv : v.getLsbD 0 = true) (h : e.get CLK_STATUS_STATE = 0)
    (hx : e.on CLK_STATUS_XFAIL = false)
    (hb : (e.put CLK_CTRL_PLL_EN 1).bandFor (e.put CLK_CTRL_PLL_EN 1).clkWord [] = none) :
    e.pllEnable v = (e.put CLK_CTRL_PLL_EN 1).noBand 0xFF (e.put CLK_CTRL_PLL_EN 1).clkWord := by
  rw [Engine.pllEnable_bypass hv h hx, hb]

/-- The code and the tuning voltage that a write of CLK_CAL_CTRL chooses. -/
def Engine.calConfig (e : Engine) (v : Word) : Engine :=
  (e.put CLK_CAL_CTRL_CODE (v.toNat % 32)).put CLK_CAL_CTRL_VT (v.toNat / 256 % 2)

theorem Engine.state_calConfig : (e.calConfig v).get CLK_STATUS_STATE = e.get CLK_STATUS_STATE :=
  (Engine.get_put_other_reg _ _ (by decide)).trans (Engine.get_put_other_reg _ _ (by decide))

/-- What a write of CLK_CAL_CTRL does (R56). -/
theorem Engine.calStart_eq (e : Engine) (by_ : Sender) (v : Word) : e.calStart by_ v =
    if v.getLsbD 16 = true then
      if e.get CLK_STATUS_STATE = 0 then ((e.calConfig v).put CLK_CAL_CTRL_BUSY 1).put CLK_CAL_COUNT_VALID 0
      else (e.calConfig v).raise (clkEvt 0x0C .warn by_.hm 0)
    else e.calConfig v := by
  have hc : bitsOf v 0 5 = v.toNat % 32 := by simp [bitsOf]
  rw [← Engine.state_calConfig (v := v)]
  unfold Engine.calStart Engine.calConfig
  rw [hc]
  rfl

end Acquire

/-! ### Clock gates (R66) -/

section Gates

variable {e : Engine} {was : Word}

/-- Ports start afresh only where the gate of SAP or MADI moves (R430). -/
theorem Engine.gatePorts_still (h18 : (e.rd CLK_GATE_STATUS).getLsbD 18 = was.getLsbD 18)
    (h19 : (e.rd CLK_GATE_STATUS).getLsbD 19 = was.getLsbD 19) : e.gatePorts was = e :=
  (if_pos h19).trans (if_pos h18)

variable {s : State} {n : Nat}

theorem execClkGateClose_requested (hn : n < 21) (hg : (s.eng.rd CLK_GATE).getLsbD n = true) :
    execClkGateClose n s = s.eff fun e => if e.unitIdle n then
      ((e.put ⟨CLK_GATE_STATUS, n, 1⟩ 1).gatePorts (e.rd CLK_GATE_STATUS)).spkSettle else e := by
  simp [execClkGateClose, State.eff, bitOf, hn, hg]

end Gates

/-- Settles O22: each clause is the case of its command that its hypotheses choose. -/
theorem clockMonitorsAndGates : Obligations.ClockMonitorsAndGates := by
  unfold Obligations.ClockMonitorsAndGates
  intro s by_ v n hs e state note
  rw [exec_freqMonitorWindow, execFreqMonitorWindow, exec_pllAcquireStart, execPllAcquireStart, exec_calMeasureStart,
    execCalMeasureStart, exec_calMeasureDone, execCalMeasureDone, exec_lpoCalUpdate, execLpoCalUpdate,
    exec_clkGateWrite, execClkGateWrite, exec_clkGateClose]
  refine ⟨fun h => ⟨fun he => ?within, fun he => ?beyond⟩, fun hx hst => ?xtalStopped, fun hx => ?xtalAgain,
    fun hv h0 hx => ⟨fun b hb => ?acquires, fun hb => ?noBand⟩,
    ⟨fun hv => ?calConfig, fun hv h0 => ?calStarts, fun hv h0 => ?calRefused⟩, fun hb => ?calDone, fun hx => ?lpo,
    ⟨?gateWrite, fun hu => ?gateStill⟩, fun hn hg => ⟨fun hi => ?closes, fun hi => ?busy⟩⟩
  case within => exact State.eff_eq_does hs (Engine.freqWindow_within h he)
  case beyond => exact State.eff_eq_does hs (Engine.freqWindow_beyond h he)
  case xtalStopped => exact State.eff_eq_does hs (Engine.xtalFail_stopped hx hst)
  case xtalAgain => exact State.eff_eq_self (Engine.xtalFail_again hx)
  case acquires => exact State.eff_eq_does hs (Engine.pllEnable_acquires hv h0 hx hb)
  case noBand => exact State.eff_eq_does hs (Engine.pllEnable_noBand hv h0 hx hb)
  case calConfig => exact State.eff_eq_does hs ((Engine.calStart_eq s.eng by_ v).trans (if_neg (ne_true_of_eq_false hv)))
  case calStarts =>
    exact State.eff_eq_does hs ((Engine.calStart_eq s.eng by_ v).trans ((if_pos hv).trans (if_pos h0)))
  case calRefused =>
    exact State.eff_eq_does hs ((Engine.calStart_eq s.eng by_ v).trans ((if_pos hv).trans (if_neg h0)))
  case calDone => exact State.eff_eq_does hs (if_pos hb)
  case lpo => exact State.eff_eq_does hs (if_neg (ne_true_of_eq_false hx))
  case gateWrite => exact State.eff_live s _ hs
  case gateStill =>
    exact State.eff_eq_does hs (Engine.gatePorts_still (hu 18 (.inl rfl)) (hu 19 (.inr rfl)))
  case closes => exact (execClkGateClose_requested hn hg).trans (State.eff_eq_does hs (if_pos hi))
  case busy => exact (execClkGateClose_requested hn hg).trans (State.eff_eq_self (if_neg (ne_true_of_eq_false hi)))

end Sys2Proof.Machine

/-!
PROOFS. The statements about the reference: which source is selected (R87 to R89, R102), then the
update of every interval, written phase steps, the history and REALIGN (R90 to R101, R106 to R109).
-/
namespace Sys2Proof.Machine

/-! ### The best source (R87) -/

/-- The priority value of source `n`. -/
def Engine.refPrio (e : Engine) (n : Nat) : Nat := (e.cpVal REF_PRIO).toNat / 2 ^ (3 * n) % 8

/-- The better of the best source so far and source `n`. -/
def Engine.refBetter (e : Engine) (best : Option Nat) (n : Nat) : Option Nat :=
  if e.refEligible n then
    match best with
    | none => some n
    | some m => if e.refPrio n < e.refPrio m then some n else best
  else best

/-- `n` is the best of the sources below `k`: the lowest priority value wins, ties to the lower
number. -/
def Engine.IsBest (e : Engine) (k n : Nat) : Prop :=
  n < k ∧ e.refEligible n = true ∧ ∀ m, m < k → e.refEligible m = true →
    e.refPrio n ≤ e.refPrio m ∧ (e.refPrio m = e.refPrio n → n ≤ m)

/-- `best` is what the sources below `k` offer: the best of them, or none when none is eligible. -/
def Engine.Offers (e : Engine) (k : Nat) (best : Option Nat) : Prop :=
  (∀ n, best = some n → e.IsBest k n) ∧ (best = none → ∀ m, m < k → e.refEligible m = false)

section Best

variable {e : Engine} {k n : Nat} {best : Option Nat}

theorem Engine.refEligible_iff :
    e.refEligible n = true ↔ e.get (REF_SRC_STATE_STATE n) = 2 ∧ e.refPrio n ≠ 7 := by
  simp [Engine.refEligible, Engine.refPrio, bitsOf]

theorem Engine.refBest_eq_foldl : e.refBest = (List.range 7).foldl e.refBetter none := rfl

theorem Engine.refBetter_ineligible (h : e.refEligible n = false) : e.refBetter best n = best :=
  if_neg (ne_true_of_eq_false h)

theorem Engine.refBetter_first (h : e.refEligible n = true) : e.refBetter none n = some n :=
  if_pos h

theorem Engine.refBetter_of_lt {m : Nat} (h : e.refEligible n = true) (hp : e.refPrio n < e.refPrio m) :
    e.refBetter (some m) n = some n :=
  (if_pos h).trans (if_pos hp)

theorem Engine.refBetter_of_le {m : Nat} (h : e.refEligible n = true) (hp : e.refPrio m ≤ e.refPrio n) :
    e.refBetter (some m) n = some m :=
  (if_pos h).trans (if_neg (Nat.not_lt.mpr hp))

theorem Engine.offers_some (h : e.IsBest k n) : e.Offers k (some n) :=
  by simp [Engine.Offers, h]

theorem Engine.offers_none (h : ∀ m, m < k → e.refEligible m = false) : e.Offers k none :=
  by simpa [Engine.Offers] using h

/-- An ineligible source changes nothing of what is offered. -/
theorem Engine.Offers.succ_ineligible (ho : e.Offers k best) (h : e.refEligible k = false) :
    e.Offers (k + 1) best := by
  obtain ⟨hsome, hnone⟩ := ho
  constructor
  · intro n hn
    obtain ⟨hlt, hel, hmin⟩ := hsome n hn
    refine ⟨Nat.lt_succ_of_lt hlt, hel, fun m hm hem => ?_⟩
    obtain hm | rfl := Nat.lt_succ_iff_lt_or_eq.mp hm
    · exact hmin m hm hem
    · simp [h] at hem
  · intro hn m hm
    obtain hm | rfl := Nat.lt_succ_iff_lt_or_eq.mp hm
    · exact hnone hn m hm
    · exact h

/-- A source of a strictly lower priority value than every eligible one before it is the best. -/
theorem Engine.isBest_last (h : e.refEligible k = true)
    (hlt : ∀ m, m < k → e.refEligible m = true → e.refPrio k < e.refPrio m) : e.IsBest (k + 1) k := by
  refine ⟨Nat.lt_succ_self k, h, fun m hm hem => ?_⟩
  obtain hm | rfl := Nat.lt_succ_iff_lt_or_eq.mp hm
  · have := hlt m hm hem
    omega
  · exact ⟨Nat.le_refl _, fun _ => Nat.le_refl _⟩

theorem Engine.isBest_first (hnone : ∀ m, m < k → e.refEligible m = false) (h : e.refEligible k = true) :
    e.IsBest (k + 1) k :=
  Engine.isBest_last h fun m hm hem => absurd hem (ne_true_of_eq_false (hnone m hm))

/-- A source of a strictly lower priority value takes the place of the best so far. -/
theorem Engine.IsBest.succ_of_lt (hb : e.IsBest k n) (h : e.refEligible k = true)
    (hp : e.refPrio k < e.refPrio n) : e.IsBest (k + 1) k := by
  obtain ⟨_, _, hmin⟩ := hb
  exact Engine.isBest_last h fun m hm hem => Nat.lt_of_lt_of_le hp (hmin m hm hem).1

/-- The best so far keeps its place against a later source of no lower priority value. -/
theorem Engine.IsBest.succ_of_le (hb : e.IsBest k n) (hp : e.refPrio n ≤ e.refPrio k) :
    e.IsBest (k + 1) n := by
  obtain ⟨hlt, hel, hmin⟩ := hb
  refine ⟨Nat.lt_succ_of_lt hlt, hel, fun m hm hem => ?_⟩
  obtain hm | rfl := Nat.lt_succ_iff_lt_or_eq.mp hm
  · exact hmin m hm hem
  · exact ⟨hp, fun _ => Nat.le_of_lt hlt⟩

theorem Engine.Offers.succ (ho : e.Offers k best) : e.Offers (k + 1) (e.refBetter best k) := by
  cases h : e.refEligible k with
  | false =>
    rw [Engine.refBetter_ineligible h]
    exact ho.succ_ineligible h
  | true =>
    cases best with
    | none =>
      rw [Engine.refBetter_first h]
      exact Engine.offers_some (Engine.isBest_first (ho.2 rfl) h)
    | some n =>
      have hb : e.IsBest k n := ho.1 n rfl
      obtain hp | hp := Nat.lt_or_ge (e.refPrio k) (e.refPrio n)
      · rw [Engine.refBetter_of_lt h hp]
        exact Engine.offers_some (hb.succ_of_lt h hp)
      · rw [Engine.refBetter_of_le h hp]
        exact Engine.offers_some (hb.succ_of_le hp)

theorem Engine.offers_foldl (e : Engine) : ∀ k, e.Offers k ((List.range k).foldl e.refBetter none)
  | 0 => Engine.offers_none fun _ hm => absurd hm (Nat.not_lt_zero _)
  | k + 1 => by
    rw [List.range_succ, List.foldl_append]
    exact (e.offers_foldl k).succ

/-- The best source of the seven is the one they offer. -/
theorem Engine.offers_refBest (e : Engine) : e.Offers 7 e.refBest :=
  Engine.refBest_eq_foldl ▸ e.offers_foldl 7

end Best

/-! ### The choice (R87, R88) and what follows from it (R89, R102) -/

section Choice

variable {e : Engine}

theorem Engine.refChoice_stays (ha : e.cpOn REF_CTRL_AUTO = true) (hs : e.get REF_STATUS_SEL ≠ 7)
    (hel : e.refEligible (e.get REF_STATUS_SEL) = true) (hr : e.cpOn REF_CTRL_REVERT = false) :
    e.refChoice = some (e.get REF_STATUS_SEL) :=
  (if_pos ha).trans (if_pos ⟨hs, hel, hr⟩)

theorem Engine.refChoice_best (ha : e.cpOn REF_CTRL_AUTO = true)
    (h : ¬ (e.get REF_STATUS_SEL ≠ 7 ∧ e.refEligible (e.get REF_STATUS_SEL) = true ∧
      e.cpOn REF_CTRL_REVERT = false)) : e.refChoice = e.refBest :=
  (if_pos ha).trans (if_neg h)

theorem Engine.refChoice_manual (ha : e.cpOn REF_CTRL_AUTO = false) (hm : e.cp REF_CTRL_MAN_SRC < 7)
    (hq : e.get (REF_SRC_STATE_STATE (e.cp REF_CTRL_MAN_SRC)) = 2) :
    e.refChoice = some (e.cp REF_CTRL_MAN_SRC) :=
  (if_neg (ne_true_of_eq_false ha)).trans (if_pos ⟨hm, hq⟩)

theorem Engine.refChoice_manual_none (ha : e.cpOn REF_CTRL_AUTO = false)
    (h : ¬ (e.cp REF_CTRL_MAN_SRC < 7 ∧ e.get (REF_SRC_STATE_STATE (e.cp REF_CTRL_MAN_SRC)) = 2)) :
    e.refChoice = none :=
  (if_neg (ne_true_of_eq_false ha)).trans (if_neg h)

/-- The engine with no selection outstanding. -/
def Engine.refSelected (e : Engine) : Engine := e.updRef fun r => { r with resel := false }

/-- The choice goes by registers alone. -/
theorem Engine.refChoice_updRef (f : RefSt → RefSt) : (e.updRef f).refChoice = e.refChoice := rfl

theorem Engine.refSelect_forced (h : e.on REF_STATUS_FORCED = true) : e.refSelect = e :=
  if_pos h

variable (hf : e.on REF_STATUS_FORCED = false)
include hf

theorem Engine.refSelect_some {n : Nat} (hc : e.refChoice = some n) :
    e.refSelect = if n = e.get REF_STATUS_SEL then e.refSelected else e.refSelected.refSwitch n := by
  rw [Engine.refSelect, if_neg (ne_true_of_eq_false hf)]
  simp only [Engine.refChoice_updRef, hc]
  rfl

theorem Engine.refSelect_none (hc : e.refChoice = none) :
    e.refSelect = if e.get REF_STATUS_SEL = 7 then e.refSelected else e.refSelected.refHoldover false := by
  rw [Engine.refSelect, if_neg (ne_true_of_eq_false hf)]
  simp only [Engine.refChoice_updRef, hc]
  rfl

end Choice

/-- Settles O24: the fold over the seven sources keeps the best so far, and each other clause is one
branch of the choice or of the selection. -/
theorem referenceSelection : Obligations.ReferenceSelection := by
  unfold Obligations.ReferenceSelection
  intro e sel prio eligible
  have helig (n : Nat) : e.refEligible n = true ↔ eligible n := Engine.refEligible_iff
  refine ⟨fun ha hs hel hr => ?stays, fun ha hne => ?best, fun ha => ⟨fun hm hq => ?manual, fun h => ?noManual⟩,
    Engine.refSelect_forced,
    fun hf => ⟨fun hc => ?same, fun n hc hn => ?switches, fun hc hs => ?holds, fun hc hs => ?enters⟩⟩
  case stays => exact Engine.refChoice_stays ha hs ((helig sel).mpr hel) hr
  case best =>
    have hleave : ¬ (sel ≠ 7 ∧ e.refEligible sel = true ∧ e.cpOn REF_CTRL_REVERT = false) := by
      rintro ⟨hs, hel, hr⟩
      simp [hs, (helig sel).mp hel, hr] at hne
    obtain ⟨hsome, hnone⟩ := e.offers_refBest
    rw [Engine.refChoice_best ha hleave]
    constructor
    · intro n hn
      obtain ⟨hlt, hel, hmin⟩ := hsome n hn
      exact ⟨hlt, (helig n).mp hel, fun m hm hem => hmin m hm ((helig m).mpr hem)⟩
    · intro hn m hm hem
      exact ne_true_of_eq_false (hnone hn m hm) ((helig m).mpr hem)
  case manual => exact Engine.refChoice_manual ha hm hq
  case noManual =>
    refine Engine.refChoice_manual_none ha ?_
    rintro ⟨hm, hq⟩
    exact h.elim (Nat.not_le.mpr hm) fun h => h hq
  case same => exact (Engine.refSelect_some hf hc).trans (if_pos rfl)
  case switches => exact (Engine.refSelect_some hf hc).trans (if_neg hn)
  case holds => exact (Engine.refSelect_none hf hc).trans (if_pos hs)
  case enters => exact (Engine.refSelect_none hf hc).trans (if_neg hs)

/-! ### The word and the pull of an update (R91, R98, R101) -/

/-- Clamping is the upper limit first, then the lower. -/
theorem clampInt_eq {lo hi : Int} (h : lo ≤ hi) (v : Int) : clampInt lo hi v = max lo (min hi v) := by
  unfold clampInt
  split
  · omega
  · split <;> omega

/-- The reach of the word, 1,200 ppm, in fine units per interval. -/
def refLim : Int := 1200000000 * updUnits

/-- The engine at the start of an update: a selection after a forced holdover, then what the last
pull moved taken off. -/
def Engine.refBegun (e : Engine) : Engine := (if e.ref.resel then e.refSelect else e).refMoved

/-- The selected source's frequency within the reach, in fine units per interval. -/
def Engine.refSrcFine (e : Engine) : Int := max (-refLim) (min refLim (e.refSrcPpt * updUnits))

/-- The pull the pending phase wants, within the limit of R98. -/
def Engine.refPullWanted (e : Engine) : Int := max (-e.pullLimit) (min e.pullLimit (e.ref.pendSw + e.ref.pendStep))

/-- The pull that the source's frequency leaves room for. -/
def Engine.refPull (e : Engine) : Int :=
  if 0 ≤ e.refPullWanted then min e.refPullWanted (refLim - e.refSrcFine)
  else max e.refPullWanted (-refLim - e.refSrcFine)

/-- The word of an update while a source is selected. -/
def Engine.refTrackWord (e : Engine) : Nat := refWordOf (e.refSrcFine + e.refPull)

/-- What an update of a begun engine does while a source is selected. -/
def Engine.refTrack (e : Engine) : Engine :=
  ((e.updRef fun r => { r with
    moving := e.refPullKept e.refTrackWord e.refPull, freeWord := refWordOf e.refSrcFine,
    secSum := r.secSum + refWordOf e.refSrcFine, secCnt := r.secCnt + 1 }).refWordShow
      e.refTrackWord).refCommit e.refTrackWord

section Update

variable {e : Engine}

theorem refWordOf_eq (f : Int) :
    refWordOf f = ((100 * 2 ^ 40 : Int) + rndDiv ((100 * 2 ^ 40 : Int) * f) (10 ^ 12 * 8388608)).toNat := rfl

theorem Engine.pullLimit_eq (e : Engine) : e.pullLimit =
    (if e.cpOn REF_CTRL_SWITCH_MODE then (e.get REF_ANNEAL_SLOPE : Int) * 100000 else 100000000) * 8388608 := by
  unfold Engine.pullLimit
  split <;> rfl

theorem Engine.pullLimit_nonneg (e : Engine) : 0 ≤ e.pullLimit := by
  rw [Engine.pullLimit_eq]
  split <;> omega

theorem Engine.refSrcFine_eq (e : Engine) : clampInt (-refLim) refLim (e.refSrcPpt * updUnits) = e.refSrcFine :=
  clampInt_eq (by decide) _

theorem Engine.refPullWanted_eq (e : Engine) : clampInt (-e.pullLimit) e.pullLimit e.ref.pend = e.refPullWanted :=
  clampInt_eq (by have := e.pullLimit_nonneg; omega) _

theorem Engine.refUpdate_holdover (h : e.refBegun.get REF_STATUS_SEL = 7) :
    e.refUpdate = (e.refBegun.refWordShow e.refBegun.ref.holdWord).refCommit e.refBegun.ref.holdWord :=
  if_pos h

theorem Engine.refUpdate_tracking (h : e.refBegun.get REF_STATUS_SEL ≠ 7) : e.refUpdate = e.refBegun.refTrack := by
  unfold Engine.refTrack Engine.refTrackWord Engine.refPull
  rw [← Engine.refSrcFine_eq, ← Engine.refPullWanted_eq]
  exact if_neg h

end Update

/-! ### Written phase steps (R97) -/

section PhaseStep

variable {e : Engine} {by_ : Sender} {v : Word}

/-- The pending phase that a written step of `v` would leave. -/
def Engine.pendAfter (e : Engine) (v : Word) : Int := e.ref.pendSw + e.ref.pendStep + v.toInt * 10 ^ 12

theorem Engine.refStepWrite_eq (e : Engine) (by_ : Sender) (v : Word) : e.refStepWrite by_ v =
    if e.periodUnits < v.toInt.natAbs ∨ 2 * e.periodUnits * 10 ^ 12 < (e.pendAfter v).natAbs then
      e.raise (refEvt 0x0B .warn by_.hm v.toNat 0)
    else (e.updRef fun r => { r with pendStep := r.pendStep + v.toInt * 10 ^ 12 }).refShow := by
  refine ite_congr (propext ?_) (fun _ => rfl) fun _ => rfl
  show v.toInt < -e.periodUnits ∨ e.periodUnits < v.toInt ∨ e.pendAfter v < -(2 * e.periodUnits * fine) ∨
    2 * e.periodUnits * fine < e.pendAfter v ↔ _
  unfold fine
  omega

theorem Engine.refStepWrite_refused
    (h : e.periodUnits < v.toInt.natAbs ∨ 2 * e.periodUnits * 10 ^ 12 < (e.pendAfter v).natAbs) :
    e.refStepWrite by_ v = e.raise (refEvt 0x0B .warn by_.hm v.toNat 0) :=
  (e.refStepWrite_eq by_ v).trans (if_pos h)

theorem Engine.refStepWrite_taken (h : v.toInt.natAbs ≤ e.periodUnits)
    (hp : (e.pendAfter v).natAbs ≤ 2 * e.periodUnits * 10 ^ 12) :
    e.refStepWrite by_ v = (e.updRef fun r => { r with pendStep := r.pendStep + v.toInt * 10 ^ 12 }).refShow :=
  (e.refStepWrite_eq by_ v).trans (if_neg (by omega))

end PhaseStep

/-! ### The history (R100) -/

/-- The history of `r` after a second: its mean enters, and the next second begins in holdover or not. -/
def RefSt.keepSecond (r : RefSt) (inHold : Bool) : RefSt :=
  { r with history := ((r.secSum, r.secCnt) :: r.history).take 1024, histNew := true
           secSum := 0, secCnt := 0, secPart := inHold }

/-- The history of `r` after a second that does not count. -/
def RefSt.dropSecond (r : RefSt) (inHold : Bool) : RefSt :=
  { r with histNew := false, secSum := 0, secCnt := 0, secPart := inHold }

section History

variable {s : State}

theorem execRefHistorySample_tracked (hs : s.awake = true) (hc : s.eng.ref.secCnt ≠ 0)
    (hp : s.eng.ref.secPart = false) :
    execRefHistorySample s = s.does fun e => e.updRef fun r => r.keepSecond (decide (e.get REF_STATUS_SEL = 7)) :=
  State.eff_eq_does hs (by simp [Engine.updRef, RefSt.keepSecond, hc, hp])

theorem execRefHistorySample_partial (hs : s.awake = true) (h : s.eng.ref.secCnt = 0 ∨ s.eng.ref.secPart = true) :
    execRefHistorySample s = s.does fun e => e.updRef fun r => r.dropSecond (decide (e.get REF_STATUS_SEL = 7)) :=
  State.eff_eq_does hs (by simp [Engine.updRef, RefSt.dropSecond, h])

end History

/-! ### REALIGN (R108, R109) -/

/-- Samples to the next frame: of the video sequence while VREF is QUALIFIED, else from network time. -/
def Engine.alignFrame (e : Engine) : Nat :=
  if e.get (REF_SRC_STATE_STATE 2) = 2 then e.vseqCount else frameCount e.fs (e.get REF_VIDEO_CFG_RATE) e.time.t

/-- The engine with the REALIGN of ESC `n` no longer requested nor fired. -/
def Engine.realignOver (e : Engine) (n : Nat) : Engine := e.updRef fun r => { r with
  realign := r.realign && n != e.tick.esc, realignDue := r.realignDue.filter (· != n) }

/-- The generator takes the engine's phase at ESC `n`, `frame` samples from a frame start. -/
def Engine.realignAt (e : Engine) (n frame : Nat) : Engine :=
  (((e.updRef fun r => { r with
      outOfs := 0, realigned := some n, ppsCnt := ppsCount e.fs e.time.t, frameCnt := frame }).refShow).putB
    REF_STATUS_ALIGN_IN_PULL (decide (e.ref.pend ≠ 0))).raise
      (refEvt 0x08 .note 0xFF (e.rd REF_OUT_OFFSET).toNat (if decide (e.ref.pend ≠ 0) then 1 else 0))

section Realign

variable {s : State} {e : Engine}

theorem Engine.realignReq_set {v : Word} (hv : v.getLsbD 0 = true) :
    e.realignReq v = e.updRef fun r => { r with realign := true } :=
  if_pos hv

theorem Engine.alignFrame_unqualified (hq : e.get (REF_SRC_STATE_STATE 2) ≠ 2) :
    e.alignFrame = frameCount e.fs (e.get REF_VIDEO_CFG_RATE) e.time.t :=
  if_neg hq

/-- A first REALIGN at `n` takes effect once its request is over (R109). -/
theorem Engine.realignNow_first {n : Nat} (h : e.ref.realigned ≠ some n) :
    e.realignNow n = (e.realignOver n).realignAt n e.alignFrame :=
  if_neg h

/-- With no fired REALIGN waiting, the request at the sample now reached is over and nothing else. -/
theorem Engine.realignOver_esc (hd : e.ref.realignDue = []) :
    e.realignOver e.tick.esc = e.updRef fun r => { r with realign := false } := by
  simp [Engine.realignOver, Engine.updRef, hd]

/-- A REALIGN at the sample now reached, while no video sequence gives the frame (R108). -/
theorem Engine.realignNow_esc (hd : e.ref.realignDue = []) (hn : e.ref.realigned ≠ some e.tick.esc)
    (hq : e.get (REF_SRC_STATE_STATE 2) ≠ 2) : e.realignNow e.tick.esc =
      (e.updRef fun r => { r with realign := false }).realignAt e.tick.esc
        (frameCount e.fs (e.get REF_VIDEO_CFG_RATE) e.time.t) := by
  rw [Engine.realignNow_first hn, Engine.realignOver_esc hd, Engine.alignFrame_unqualified hq]

theorem execRealignApply_requested (hr : s.eng.ref.realign = true) (hb : s.eng.tick.esc % s.eng.nSamp = 0)
    (hd : s.eng.ref.realignDue = []) : execRealignApply s = s.eff fun e => e.realignNow e.tick.esc := by
  simp [execRealignApply, State.eff, hr, hb, hd]

end Realign

/-- Settles O25: each clause is the case of its command that its hypotheses choose. -/
theorem referenceSteering : Obligations.ReferenceSteering := by
  unfold Obligations.ReferenceSteering
  intro s by_ v hs e begun m
  rw [exec_refUpdate, execRefUpdate, exec_refPhaseStepWrite, execRefPhaseStepWrite, exec_refHistorySample,
    exec_realignCommand, execRealignCommand, exec_realignApply]
  refine ⟨fun h => ?holdover, fun h => ?tracking, ⟨fun hv hp => ?step, fun h => ?stepRefused⟩,
    ⟨fun hc hp => ?second, fun h => ?noSecond⟩, fun hv => ?request, fun hr hb hd hn hq => ?realign⟩
  case holdover => exact State.eff_watch hs (Engine.refUpdate_holdover h)
  case tracking =>
    refine State.eff_watch hs ((Engine.refUpdate_tracking h).trans ?_)
    unfold Engine.refTrack Engine.refTrackWord Engine.refPull Engine.refPullWanted
    rw [Engine.pullLimit_eq]
    rfl
  case step => exact State.eff_eq_does hs (Engine.refStepWrite_taken hv hp)
  case stepRefused => exact State.eff_eq_does hs (Engine.refStepWrite_refused h)
  case second => exact execRefHistorySample_tracked hs hc hp
  case noSecond => exact execRefHistorySample_partial hs h
  case request => exact State.eff_eq_does hs (Engine.realignReq_set hv)
  case realign =>
    exact (execRealignApply_requested hr hb hd).trans (State.eff_eq_does hs (Engine.realignNow_esc hd hn hq))

end Sys2Proof.Machine

/-!
PROOFS. How an entry of the timed action queue is resolved: to the ESC it names, or to a sample of
the block latched (R138 to R140). An entry whose words are sound is taken as it stands.
-/
namespace Sys2Proof.Machine

/-! ### An entry whose words are sound (R667, R672) -/

/-- The four words of entry `i` match their complements and none is quarantined. -/
def Engine.TaqSound (e : Engine) (i : Nat) : Prop :=
  ∀ w, w < 4 → e.rd (taqAddr i w + 4) = ~~~ (e.rd (taqAddr i w)) ∧ e.isQuar (taqAddr i w) = false

/-- Entry `i` stands resolved to ESC `s`. -/
def Engine.taqStands (e : Engine) (i s : Nat) (late : Bool) : Engine :=
  e.updTaqEnt i fun x => { x with state := .resolved, esc := s, late := late }

section Sound

variable {e : Engine} {i : Nat}

/-- A check of a pair that matches changes nothing (R668). -/
theorem Engine.cpCheck_matched {a : Nat} (h : e.rd (a + 4) = ~~~ (e.rd a)) (owner : Option Nat) :
    e.cpCheck a owner = e :=
  if_pos h

theorem Engine.taqTouch_sound (h : e.TaqSound i) : e.taqTouch i = (e, true) := by
  have hcheck : (List.range 4).foldl (fun e w => e.cpCheck (taqAddr i w) (some (i / 64))) e = e :=
    List.foldlRecOn (motive := (· = e)) _ _ rfl fun t ht w hw => by
      rw [ht]
      exact Engine.cpCheck_matched (h w (List.mem_range.mp hw)).1 _
  have hbad : (List.range 4).filter (fun w => e.isQuar (taqAddr i w)) = [] :=
    List.filter_eq_nil_iff.mpr fun w hw => ne_true_of_eq_false (h w (List.mem_range.mp hw)).2
  unfold Engine.taqTouch
  simp only [hcheck, hbad, List.isEmpty_nil, if_true]

theorem Engine.isPrimary_taqStands (s : Nat) (late : Bool) : (e.taqStands i s late).isPrimary = e.isPrimary := rfl

/-- Only the primary of a pair does more than resolve its entry (R145). -/
theorem Engine.taqResolve_sound (h : e.TaqSound i) (hp : e.isPrimary = false) (s : Nat) (late : Bool) :
    e.taqResolve i s late = e.taqStands i s late := by
  unfold Engine.taqResolve
  simp only [Engine.taqTouch_sound h, if_true]
  exact if_neg (ne_true_of_eq_false ((Engine.isPrimary_taqStands s late).trans hp))

end Sound

/-! ### An entry that names an ESC (R139) -/

section Esc

variable {e : Engine} {i : Nat}

/-- The ESC of this engine that entry `i` names (R507). -/
def Engine.taqTarget (e : Engine) (i : Nat) : Nat :=
  (e.taqEnt i).tgtLo.toNat + (e.taqEnt i).tgtHi.toNat * 2 ^ 32 - e.escOfs

variable (h : e.TaqSound i) (hp : e.isPrimary = false)
include h hp

theorem Engine.taqEsc_inTime (hs : e.bStar * e.nSamp ≤ e.taqTarget i) :
    e.taqEsc i = e.taqStands i (e.taqTarget i) false :=
  (if_pos hs).trans (Engine.taqResolve_sound h hp _ _)

theorem Engine.taqEsc_late (hs : e.taqTarget i < e.bStar * e.nSamp) :
    e.taqEsc i = e.taqStands i (e.bStar * e.nSamp) true :=
  (if_neg (Nat.not_le.mpr hs)).trans (Engine.taqResolve_sound h hp _ _)

end Esc

/-! ### An entry that names a network time (R140) -/

/-- The nominal time of sample `j` of the latched block (R131). -/
def Engine.latchedNom (e : Engine) (j : Nat) : Int := e.nominal e.time.latch j

/-- Sample `j` is the first of the latched block whose nominal time is not before `t`. -/
def Engine.IsFirstAt (e : Engine) (t : Int) (j : Nat) : Prop :=
  j < e.nSamp ∧ t ≤ e.latchedNom j ∧ ∀ k, k < j → e.latchedNom k < t

section NetworkTime

variable {e : Engine} {i : Nat}

theorem Engine.nSamp_pos (e : Engine) : 0 < e.nSamp := Nat.two_pow_pos _

theorem Engine.find_firstAt (e : Engine) (t : Int) (j : Nat) :
    (List.range e.nSamp).find? (fun j => decide (t ≤ e.latchedNom j)) = some j ↔ e.IsFirstAt t j := by
  simp only [List.find?_range_eq_some, Engine.IsFirstAt, List.mem_range, decide_eq_true_eq, Bool.not_eq_true',
    decide_eq_false_iff_not, Int.not_le]
  exact and_left_comm

/-- A time that is not after the last sample is met by some first sample. -/
theorem Engine.exists_firstAt {t : Int} (ht : t ≤ e.latchedNom (e.nSamp - 1)) : ∃ j, e.IsFirstAt t j := by
  have hsome : ((List.range e.nSamp).find? fun j => decide (t ≤ e.latchedNom j)).isSome = true :=
    List.find?_isSome.mpr ⟨e.nSamp - 1, List.mem_range.mpr (Nat.sub_one_lt_of_lt e.nSamp_pos), decide_eq_true ht⟩
  obtain ⟨j, hj⟩ := Option.isSome_iff_exists.mp hsome
  exact ⟨j, (e.find_firstAt t j).mp hj⟩

/-- In no pair an entry waits for the latch of b* itself. -/
theorem Engine.taqTryNt_unlatched (hl : e.lockstep = false) (hb : e.time.latchBlk ≠ some e.bStar) :
    e.taqTryNt i = e := by
  simp [Engine.taqTryNt, Engine.cutLead, hl, hb]

/-- The tick runs, the engine is in no pair, and b* is latched: network-time entries are resolved. -/
def Engine.Latched (e : Engine) : Prop :=
  e.stopped = false ∧ e.isStandby = false ∧ e.lockstep = false ∧ e.time.latchBlk = some e.bStar

/-- Against its latch an entry waits, is late, or is resolved to its first sample. -/
theorem Engine.taqTryNt_latched (h : e.Latched) : e.taqTryNt i =
    if e.latchedNom (e.nSamp - 1) < (e.taqEnt i).target then e
    else if oneSec ≤ (e.latchedNom 0 - (e.taqEnt i).target) * e.fs then e.taqResolve i (e.bStar * e.nSamp) true
    else ((List.range e.nSamp).find? fun j => decide ((e.taqEnt i).target ≤ e.latchedNom j)).elim e
      fun j => e.taqResolve i (e.bStar * e.nSamp + j) false := by
  obtain ⟨hstop, hstand, hl, hb⟩ := h
  unfold Engine.taqTryNt Engine.latchedNom
  simp only [Engine.cutLead, hl, hstop, hstand, hb, Nat.sub_zero, ne_eq, not_true_eq_false, or_false,
    Bool.false_eq_true, if_false, Nat.zero_mul, Nat.zero_add]
  cases (List.range e.nSamp).find? fun j => decide ((e.taqEnt i).target ≤ e.nominal e.time.latch j) <;>
    simp only [Option.elim]

variable (hl : e.Latched)
include hl

theorem Engine.taqTryNt_after (ht : e.latchedNom (e.nSamp - 1) < (e.taqEnt i).target) : e.taqTryNt i = e :=
  (Engine.taqTryNt_latched hl).trans (if_pos ht)

variable (h : e.TaqSound i) (hp : e.isPrimary = false) (ht : (e.taqEnt i).target ≤ e.latchedNom (e.nSamp - 1))
include h hp ht

/-- A target a sample or more before sample 0 is late at it. -/
theorem Engine.taqTryNt_late (hs : oneSec ≤ (e.latchedNom 0 - (e.taqEnt i).target) * e.fs) :
    e.taqTryNt i = e.taqStands i (e.bStar * e.nSamp) true :=
  (Engine.taqTryNt_latched hl).trans ((if_neg (Int.not_lt.mpr ht)).trans
    ((if_pos hs).trans (Engine.taqResolve_sound h hp _ _)))

theorem Engine.taqTryNt_firstAt {j : Nat} (hs : (e.latchedNom 0 - (e.taqEnt i).target) * e.fs < oneSec)
    (hj : e.IsFirstAt (e.taqEnt i).target j) : e.taqTryNt i = e.taqStands i (e.bStar * e.nSamp + j) false := by
  rw [Engine.taqTryNt_latched hl, if_neg (Int.not_lt.mpr ht), if_neg (Int.not_le.mpr hs),
    (e.find_firstAt _ j).mpr hj, Option.elim_some]
  exact Engine.taqResolve_sound h hp _ _

end NetworkTime

/-- Settles O28: the search over the block's samples finds the first one that is not before the target. -/
theorem entryResolution : Obligations.EntryResolution := by
  unfold Obligations.EntryResolution
  intro e i hp hstand hl hsound x n b resolved nom
  refine ⟨⟨?inTime, ?late⟩, fun hstop => ⟨?unlatched, fun hb => ?latched⟩⟩
  case inTime => exact Engine.taqEsc_inTime hsound hp
  case late => exact Engine.taqEsc_late hsound hp
  case unlatched => exact Engine.taqTryNt_unlatched hl
  case latched =>
    have hlatch : e.Latched := ⟨hstop, hstand, hl, hb⟩
    refine ⟨Engine.taqTryNt_after hlatch, Engine.taqTryNt_late hlatch hsound hp, fun ht hs => ?_⟩
    obtain ⟨j, hj⟩ := Engine.exists_firstAt ht
    have hres := Engine.taqTryNt_firstAt hlatch hsound hp ht hs hj
    obtain ⟨hlt, hle, hfirst⟩ := hj
    exact ⟨j, hlt, hle, hfirst, hres⟩

end Sys2Proof.Machine

/-!
PROOFS. The registers of network time: the increment, step commands, captures and egress
time-stamps (R114, R115, R117 to R119, R128, R130).
-/
namespace Sys2Proof.Machine

/-! ### The increment (R114, R115) -/

section Increment

variable {e : Engine} {by_ : Sender} {v : Word}

/-- How far the increment that TIME_INCR written with `v` would apply lies from 625/384 ns, in units
of 2^-32 / 384 ns. -/
def Engine.incrOff (e : Engine) (v : Word) : Int :=
  (((v.toNat % 256 : Nat) : Int) * 2 ^ 32 + e.get TIME_INCR_FRAC_FRAC) * 384 - 625 * 2 ^ 32

/-- The increment becomes `v` ns and the staged fraction. -/
def Engine.incrTake (e : Engine) (v : Word) : Engine :=
  ((e.wrCp TIME_INCR (v &&& 0xFF#32)).put TIME_INCR_CUR_NS_NS (v.toNat % 256)).put TIME_INCR_CUR_FRAC_FRAC
    (e.get TIME_INCR_FRAC_FRAC)

theorem Engine.timeIncrSet_eq (e : Engine) (by_ : Sender) (v : Word) : e.timeIncrSet by_ v =
    if (e.incrOff v).natAbs * 500 ≤ 625 * 2 ^ 32 then e.incrTake v
    else e.raise (timeEvt 0x03 .warn by_.hm (v.toNat % 256) (e.get TIME_INCR_FRAC_FRAC)) := by
  have hv : bitsOf v 0 8 = v.toNat % 256 := by simp [bitsOf]
  unfold Engine.timeIncrSet
  rw [hv]
  refine ite_congr (propext ?_) (fun _ => rfl) fun _ => rfl
  show e.incrOff v * 500 ≤ 625 * 2 ^ 32 ∧ -(625 * 2 ^ 32) ≤ e.incrOff v * 500 ↔ _
  omega

theorem Engine.timeIncrSet_within (h : (e.incrOff v).natAbs * 500 ≤ 625 * 2 ^ 32) :
    e.timeIncrSet by_ v = e.incrTake v :=
  (e.timeIncrSet_eq by_ v).trans (if_pos h)

theorem Engine.timeIncrSet_outside (h : 625 * 2 ^ 32 < (e.incrOff v).natAbs * 500) : e.timeIncrSet by_ v =
    e.raise (timeEvt 0x03 .warn by_.hm (v.toNat % 256) (e.get TIME_INCR_FRAC_FRAC)) :=
  (e.timeIncrSet_eq by_ v).trans (if_neg (Nat.not_le.mpr h))

end Increment

/-! ### Step commands (R118, R119) -/

section Step

variable {e : Engine} {by_ : Sender} {v : Word}

/-- TIME_ADJ_CTRL shows `v` with GO as 0. -/
def Engine.showAdj (e : Engine) (v : Word) : Engine := e.wrCp TIME_ADJ_CTRL (v &&& 1#32)

/-- A step waits for the next FABRIC cycle. -/
def Engine.stepWaits (e : Engine) (p : AdjStep) : Engine := e.updTime fun t => { t with steps := t.steps ++ [p] }

/-- The time a set command sets. -/
def Engine.setAmt (e : Engine) : Int :=
  ((e.get TIME_ADJ_SEC_HI_SEC : Int) * 2 ^ 32 + (e.rd TIME_ADJ_SEC).toNat) * oneSec + (e.rd TIME_ADJ_NS).toNat * 2 ^ 32

/-- The signed amount of a step command. -/
def Engine.signedAmt (e : Engine) : Int :=
  (e.rd TIME_ADJ_SEC).toInt * oneSec + (e.rd TIME_ADJ_NS).toInt * 2 ^ 32

theorem Engine.timeStepAmt_set (h : (e.rd TIME_ADJ_NS).toNat ≤ 999999999) : e.timeStepAmt true = some e.setAmt :=
  if_pos h

/-- A signed command's nanoseconds are in range either way from 0. -/
theorem Engine.timeStepAmt_false (e : Engine) : e.timeStepAmt false =
    if (e.rd TIME_ADJ_NS).toInt.natAbs ≤ 999999999 then some e.signedAmt else none := by
  refine (if_neg Bool.false_ne_true).trans (ite_congr (propext ?_) (fun _ => rfl) fun _ => rfl)
  show -999999999 ≤ (e.rd TIME_ADJ_NS).toInt ∧ (e.rd TIME_ADJ_NS).toInt ≤ 999999999 ↔ _
  omega

theorem Engine.timeStepAmt_signed (h : (e.rd TIME_ADJ_NS).toInt.natAbs ≤ 999999999) :
    e.timeStepAmt false = some e.signedAmt :=
  e.timeStepAmt_false.trans (if_pos h)

/-- A nanosecond word that is out of range commands nothing. -/
theorem Engine.timeStepAmt_none {set : Bool} (h : if set then 999999999 < (e.rd TIME_ADJ_NS).toNat
    else 999999999 < (e.rd TIME_ADJ_NS).toInt.natAbs) : e.timeStepAmt set = none := by
  cases set with
  | true => exact if_neg (Nat.not_le.mpr h)
  | false => exact e.timeStepAmt_false.trans (if_neg (Nat.not_le.mpr h))

theorem Engine.timeStep_noGo (hv : v.getLsbD 1 = false) : e.timeStep by_ v = e.showAdj v :=
  if_pos hv

theorem Engine.timeStep_taken {d : Int} (hv : v.getLsbD 1 = true) (hd : e.timeStepAmt (v.getLsbD 0) = some d) :
    e.timeStep by_ v = (e.showAdj v).stepWaits { set := v.getLsbD 0, amt := d, hm := by_.hm } := by
  unfold Engine.timeStep bitOf
  rw [if_neg (ne_false_of_eq_true hv), hd]
  rfl

theorem Engine.timeStep_refused (hv : v.getLsbD 1 = true) (hd : e.timeStepAmt (v.getLsbD 0) = none) :
    e.timeStep by_ v = e.raise (timeEvt 0x06 .warn by_.hm (e.rd TIME_ADJ_NS).toNat 0) := by
  unfold Engine.timeStep bitOf
  rw [if_neg (ne_false_of_eq_true hv), hd]

/-- A set command in range (R118). -/
theorem Engine.timeStep_set (hv : v.getLsbD 1 = true) (h0 : v.getLsbD 0 = true)
    (h : (e.rd TIME_ADJ_NS).toNat ≤ 999999999) :
    e.timeStep by_ v = (e.showAdj v).stepWaits { set := true, amt := e.setAmt, hm := by_.hm } := by
  rw [Engine.timeStep_taken hv (by rw [h0]; exact Engine.timeStepAmt_set h), h0]

/-- A signed step in range (R118). -/
theorem Engine.timeStep_signed (hv : v.getLsbD 1 = true) (h0 : v.getLsbD 0 = false)
    (h : (e.rd TIME_ADJ_NS).toInt.natAbs ≤ 999999999) :
    e.timeStep by_ v = (e.showAdj v).stepWaits { set := false, amt := e.signedAmt, hm := by_.hm } := by
  rw [Engine.timeStep_taken hv (by rw [h0]; exact Engine.timeStepAmt_signed h), h0]

end Step

/-! ### Egress time-stamps (R128) -/

section Egress

variable {e : Engine}

/-- The registers that show a time-stamp's time. -/
def Engine.txtsTime (e : Engine) (t : Int) : Engine :=
  (((e.wr TIME_TXTS_SEC_LO (BitVec.ofNat 32 (timeSec t))).wr TIME_TXTS_SEC_HI
    (BitVec.ofNat 32 (timeSec t / 2 ^ 32 % 2 ^ 16))).wr TIME_TXTS_NS (BitVec.ofNat 32 (timeNs t))).wr TIME_TXTS_FRAC
      (BitVec.ofNat 32 (timeFrac t))

theorem Engine.txtsRead_empty (h : e.time.txts = []) : e.txtsRead = (0#32, e) := by
  simp [Engine.txtsRead, h]

/-- The oldest time-stamp is shown and leaves the FIFO. -/
theorem Engine.txtsRead_oldest {x : Txts} {xs : List Txts} (h : e.time.txts = x :: xs) : e.txtsRead =
    (BitVec.ofNat 32 (1 + x.port % 2 * 2 + x.mtype % 16 * 16 + x.seq % 2 ^ 16 * 2 ^ 16),
      ((e.txtsTime x.time).updTime fun t => { t with txts := xs }).txtsShow) := by
  simp [Engine.txtsRead, Engine.txtsTime, Engine.updTime, h]

end Egress

/-! ### The commands -/

section Commands

variable {s : State} {by_ : Sender} {v : Word}

theorem exec_timeIncrCommit_direct (h : s.eng.direct by_ TIME_INCR = true) :
    exec (.timeIncrCommit by_ v) s = s.eff fun e => e.timeIncrSet by_ v :=
  State.eff_row (v := fun _ => v) h fun e => e.timeIncrSet by_ v

theorem exec_timeStep_direct (h : s.eng.direct by_ TIME_ADJ_CTRL = true) :
    exec (.timeStep by_ v) s = s.eff fun e => e.timeStep by_ v :=
  State.eff_row (v := fun _ => v) h fun e => e.timeStep by_ v

end Commands

/-- Settles O26: each clause is the case of its command that its hypotheses choose. -/
theorem networkTime : Obligations.NetworkTime := by
  unfold Obligations.NetworkTime
  intro s by_ v hs e sec
  rw [exec_timeNowCapture, execTimeNowCapture, exec_timeLatchCapture, execTimeLatchCapture, exec_txtsPop, execTxtsPop]
  refine ⟨⟨fun hd h => ?within, fun hd h => ?outside⟩, fun hd => ⟨fun h1 => ?noGo, fun h1 h0 h => ?set,
    fun h1 h0 h => ?signed, fun h1 h => ?refused⟩, ?now, ?latch, fun h => ?empty, fun x xs h => ?oldest⟩
  case within =>
    rw [exec_timeIncrCommit_direct hd]
    exact State.eff_eq_does hs (Engine.timeIncrSet_within h)
  case outside =>
    rw [exec_timeIncrCommit_direct hd]
    exact State.eff_eq_does hs (Engine.timeIncrSet_outside h)
  case noGo =>
    rw [exec_timeStep_direct hd]
    exact State.eff_eq_does hs (Engine.timeStep_noGo h1)
  case set =>
    rw [exec_timeStep_direct hd]
    exact State.eff_eq_does hs (Engine.timeStep_set h1 h0 h)
  case signed =>
    rw [exec_timeStep_direct hd]
    exact State.eff_eq_does hs (Engine.timeStep_signed h1 h0 h)
  case refused =>
    rw [exec_timeStep_direct hd]
    exact State.eff_eq_does hs (Engine.timeStep_refused h1 (Engine.timeStepAmt_none h))
  case now => exact State.eff_live s _ hs
  case latch => exact State.eff_live s _ hs
  case empty => exact State.eff_eq_does hs (congrArg Engine.answer (Engine.txtsRead_empty h))
  case oldest => exact State.eff_eq_does hs (congrArg Engine.answer (Engine.txtsRead_oldest h))

end Sys2Proof.Machine

/-!
PROOFS. The timed action queue: arming, cancelling, the cut-off and the actions applied at their
samples (R134, R136, R137, R141, R143, R146, R147).
-/
namespace Sys2Proof.Machine

/-! ### The CTRL pair of an entry (R134) -/

/-- The engine with `v` shown in the CTRL pair of entry `i`. -/
def Engine.showTaqCtrl (e : Engine) (i : Nat) (v : Word) : Engine := e.wrCp (taqAddr i 3) v

section Ctrl

variable {e : Engine} {by_ : Sender} {i : Nat}

theorem getLsbD_or_arm (v : Word) : (v ||| 0x40#32).getLsbD 6 = true := by
  rw [BitVec.getLsbD_or]
  exact Bool.or_true _

theorem getLsbD_and_disarm (v : Word) : (v &&& 0xFFFFFFBF#32).getLsbD 6 = false := by
  rw [BitVec.getLsbD_and]
  exact Bool.and_false _

theorem taqAdmits_iff {t : Nat} : taqAdmits by_ t = true ↔ by_.isCC = true ∨ by_.isTenant t = true :=
  Bool.or_eq_true_iff

/-- An admitted sender's CTRL pair with ARM set arms the entry. -/
theorem Engine.taqCtrl_arm {v : Word} (hb : by_.isCC = true ∨ by_.isTenant (i / 64) = true)
    (hv : v.getLsbD 6 = true) : e.taqCtrl by_ i v = (e.showTaqCtrl i v).taqArm by_ i :=
  (if_pos (taqAdmits_iff.mpr hb)).trans (if_pos hv)

/-- An admitted sender's CTRL pair with ARM clear cancels the entry. -/
theorem Engine.taqCtrl_cancel {v : Word} (hb : by_.isCC = true ∨ by_.isTenant (i / 64) = true)
    (hv : v.getLsbD 6 = false) : e.taqCtrl by_ i v = (e.showTaqCtrl i v).taqCancel by_ i :=
  (if_pos (taqAdmits_iff.mpr hb)).trans (if_neg (ne_true_of_eq_false hv))

end Ctrl

/-! ### Arming and cancelling (R137, R146) -/

/-- Entry `i` as an arm of its words finds it: FREE, with the words now in use. -/
def Engine.taqStaged (e : Engine) (i : Nat) : TaqEntry :=
  { e.taqEnt i with
    state := .free, late := false, esc := 0, ctrl := e.cpVal (taqAddr i 3), param := e.cpVal (taqAddr i 2)
    tgtLo := e.cpVal (taqAddr i 0), tgtHi := e.cpVal (taqAddr i 1) }

/-- The words of entry `i` are taken. -/
def Engine.taqTake (e : Engine) (i : Nat) : Engine := e.updTaqEnt i fun _ => e.taqStaged i

/-- Entry `i` is PENDING, armed by `by_`. -/
def Engine.taqPend (e : Engine) (by_ : Sender) (i : Nat) : Engine :=
  e.updTaqEnt i fun x => { x with state := .pending, hm := by_.hm, dma := by_.dma }

section Arm

variable {e : Engine} {by_ : Sender} {i : Nat}

/-- Only an armed SWAP entry has a group to withdraw (R421). -/
theorem Engine.taqDrop_unarmed (hr : (e.taqEnt i).state ≠ .resolved) (hp : (e.taqEnt i).state ≠ .pending) :
    e.taqDrop i = e :=
  if_neg fun ⟨hs, _⟩ => hs.elim hp hr

theorem Engine.taqDrop_noSwap (ha : (e.taqEnt i).action ≠ 1) : e.taqDrop i = e :=
  if_neg fun ⟨_, h1, _⟩ => ha h1

theorem Engine.taqArm_resolved (hr : (e.taqEnt i).state = .resolved) :
    e.taqArm by_ i = e.taqEvt i 0x03 .warn by_.hm 3 :=
  if_pos hr

/-- A CANCELLED entry is a PENDING or RESOLVED one withdrawn (R146). -/
theorem Engine.taqCancel_armed (hs : (e.taqEnt i).state = .pending ∨ (e.taqEnt i).state = .resolved)
    (ha : (e.taqEnt i).action ≠ 1) :
    e.taqCancel by_ i = e.updTaqEnt i fun x => { x with state := .cancelled } :=
  (if_pos hs).trans (by rw [Engine.taqDrop_noSwap ha])

variable (hr : (e.taqEnt i).state ≠ .resolved) (hp : (e.taqEnt i).state ≠ .pending) (h : e.TaqSound i)
include hr hp h

theorem Engine.taqArm_refused {r : Nat} (hf : (e.taqTake i).taqRefusal by_ i (e.taqStaged i) = some r) :
    e.taqArm by_ i = (e.taqTake i).taqRefuse i by_.hm r := by
  unfold Engine.taqTake Engine.taqStaged at hf
  unfold Engine.taqArm
  rw [if_neg hr, Engine.taqDrop_unarmed hr hp, Engine.taqTouch_sound h]
  simp only [Bool.true_eq_false, if_false, hf]
  rfl

/-- An arm that no check refuses is PENDING, and resolved as far as it can be. -/
theorem Engine.taqArm_taken (hf : (e.taqTake i).taqRefusal by_ i (e.taqStaged i) = none)
    (ha : (e.taqStaged i).action ≠ 1) : e.taqArm by_ i = ((e.taqTake i).taqPend by_ i).taqArmed i := by
  unfold Engine.taqTake Engine.taqStaged at hf
  unfold Engine.taqStaged at ha
  unfold Engine.taqArm
  rw [if_neg hr, Engine.taqDrop_unarmed hr hp, Engine.taqTouch_sound h]
  simp only [Bool.true_eq_false, if_false, hf, ha]
  rfl

end Arm

/-! ### The cut-off and the actions at their samples (R141, R143) -/

section Fire

variable {e : Engine}

theorem Engine.taqCutoff_some {b : Nat} (h : e.cutoffAt = some b) : e.taqCutoff = e.taqCutoffOf b := by
  simp [Engine.taqCutoff, h]

/-- The fired action `f` waits no longer. -/
def Engine.taqOver (e : Engine) (f : Fired) : Engine := e.updTaq fun q => { q with due := q.due.filter (· != f) }

theorem Engine.firedApply_patch {f : Fired} {d : Nat} {w : Word} (h : f.act = .patch d w) :
    e.firedApply f = (e.taqOver f).patchTimed d f.esc w := by
  simp [Engine.firedApply, Engine.taqOver, h]

theorem Engine.firedApply_mute {f : Fired} {d n : Nat} {m : Bool} (h : f.act = .mute d m n) :
    e.firedApply f = (e.taqOver f).destChange d f.esc (.pmute m n) := by
  simp [Engine.firedApply, Engine.taqOver, h]

/-- The GPIO changes of timed actions that are due by `s` are applied in order; the others wait. -/
theorem Engine.gpioDue_timed (e : Engine) (s : Nat) : e.gpioDue true s =
    (e.pwr.gpio.filter fun c => c.taq && decide (c.esc ≤ s)).foldl Engine.gpioApply
      (e.updPwr fun p => { p with gpio := p.gpio.filter fun c => !c.taq || decide (s < c.esc) }) := by
  simp only [Engine.gpioDue, beq_true, Bool.bne_true]

end Fire

/-! ### The commands -/

section Commands

variable {s : State} {by_ : Sender} {i : Nat}

theorem exec_taqArm_admitted (hi : i < 1024) (hd : s.eng.direct by_ (taqAddr i 3) = true)
    (hb : by_.isCC = true ∨ by_.isTenant (i / 64) = true) (v : Word) :
    exec (.taqArm by_ i v) s = s.eff fun e => (e.showTaqCtrl i (v ||| 0x40#32)).taqArm by_ i := by
  simp only [exec_taqArm, execTaqArm, Nat.mod_eq_of_lt hi, Engine.taqCtrl_arm hb (getLsbD_or_arm v)]
  exact State.eff_row (v := fun _ => v ||| 0x40#32) hd _

theorem exec_taqCancel_admitted (hi : i < 1024) (hd : s.eng.direct by_ (taqAddr i 3) = true)
    (hb : by_.isCC = true ∨ by_.isTenant (i / 64) = true) (v : Word) :
    exec (.taqCancel by_ i v) s = s.eff fun e => (e.showTaqCtrl i (v &&& 0xFFFFFFBF#32)).taqCancel by_ i := by
  simp only [exec_taqCancel, execTaqCancel, Nat.mod_eq_of_lt hi, Engine.taqCtrl_cancel hb (getLsbD_and_disarm v)]
  exact State.eff_row (v := fun _ => v &&& 0xFFFFFFBF#32) hd _

/-- The next fired action, a PATCH, is applied. -/
theorem execTimedPatchApply_next {f : Fired} {fs : List Fired} {d : Nat} {w : Word} (hs : s.awake = true)
    (hd : s.eng.taq.due = f :: fs) (h : f.act = .patch d w) :
    execTimedPatchApply s = s.does fun e => (e.taqOver f).patchTimed d f.esc w :=
  State.eff_eq_does hs (by simp only [hd, h, Engine.firedApply_patch h])

/-- The next fired action, a MUTE, is applied. -/
theorem execTimedMuteStart_next {f : Fired} {fs : List Fired} {d n : Nat} {m : Bool} (hs : s.awake = true)
    (hd : s.eng.taq.due = f :: fs) (h : f.act = .mute d m n) :
    execTimedMuteStart s = s.does fun e => (e.taqOver f).destChange d f.esc (.pmute m n) :=
  State.eff_eq_does hs (by simp only [hd, h, Engine.firedApply_mute h])

end Commands

/-- Settles O27: each clause is the case of its command that its hypotheses choose. -/
theorem timedActions : Obligations.TimedActions := by
  unfold Obligations.TimedActions
  intro s by_ i v hs e
  rw [exec_taqCutoff, execTaqCutoff, exec_timedGpioChange, execTimedGpioChange]
  refine ⟨fun hi hd hb => ⟨fun hr => ?resolved, fun hr hp hw => ⟨fun r hf => ?refused,
    fun hf ha => ?taken⟩⟩, fun hi hd hb hst ha => ?cancel, fun b hc => ?cutoff,
    fun f fs hdue => ⟨fun d w h => ?patch, fun d m n h => ?mute⟩, ?gpio⟩
  case resolved =>
    rw [exec_taqArm_admitted hi hd hb]
    exact State.eff_eq_does hs (Engine.taqArm_resolved hr)
  case refused =>
    rw [exec_taqArm_admitted hi hd hb]
    exact State.eff_eq_does hs (Engine.taqArm_refused hr hp hw hf)
  case taken =>
    rw [exec_taqArm_admitted hi hd hb]
    exact State.eff_eq_does hs (Engine.taqArm_taken hr hp hw hf ha)
  case cancel =>
    rw [exec_taqCancel_admitted hi hd hb]
    exact State.eff_eq_does hs (Engine.taqCancel_armed hst ha)
  case cutoff => exact State.eff_eq_does hs (Engine.taqCutoff_some hc)
  case patch => exact execTimedPatchApply_next hs hdue h
  case mute => exact execTimedMuteStart_next hs hdue h
  case gpio => exact State.eff_eq_does hs (Engine.gpioDue_timed _ _)

end Sys2Proof.Machine

/-!
PROOFS. Fences, gaps, waits and task instructions (R236, R237, R250 to R252, R254 to R256, R259 to
R261, R273, R277). Issuing turns each instruction into its effect; each clause of the statement is
then one case of that effect, named here.
-/
namespace Sys2Proof.Machine

/-! ### What a completed instruction keeps of its context (R183) -/

/-- Completion moves the PC and the loop state, uses up a pending EXT and counts within a lock. -/
theorem CoreCtx.advance_shape (x : CoreCtx) : ∃ (n pc d : Nat) (l : Tbl Word),
    x.advance = { x with ext := none, lockN := n, pc := pc, depth := d, lcnt := l } := by
  unfold CoreCtx.advance
  dsimp only
  repeat' split
  all_goals exact ⟨_, _, _, _, rfl⟩

@[simp] theorem CoreCtx.advance_mode (x : CoreCtx) : x.advance.mode = x.mode := by
  obtain ⟨_, _, _, _, h⟩ := x.advance_shape
  rw [h]

@[simp] theorem CoreCtx.advance_irqOpen (x : CoreCtx) : x.advance.irqOpen = x.irqOpen := by
  obtain ⟨_, _, _, _, h⟩ := x.advance_shape
  rw [h]; rfl

/-- After a completed instruction no EXT is left to execute again. -/
@[simp] theorem CoreCtx.boundary_advance (x : CoreCtx) : x.advance.boundary = x.advance := by
  obtain ⟨_, _, _, _, h⟩ := x.advance_shape
  rw [h]; rfl

/-! ### Cores: what a context, a wait and a dispatch leave of them -/

section Cores

variable (e : Engine) (c : Nat)

theorem Engine.coreOf_put (f : Fld) (v : Nat) : (e.put f v).coreOf c = e.coreOf c := rfl

theorem Engine.coreOf_updDesc (d : Nat) (f : DescSt → DescSt) : (e.updDesc d f).coreOf c = e.coreOf c := rfl

@[simp] theorem Engine.setCtx_mem (x : CoreCtx) : (e.setCtx c x).mem = e.mem := rfl

@[simp] theorem Engine.setCtx_regs (x : CoreCtx) : (e.setCtx c x).regs = e.regs := rfl

@[simp] theorem Engine.setWait_mem (w : CoreWait) : (e.setWait c w).mem = e.mem := rfl

@[simp] theorem Engine.setWait_regs (w : CoreWait) : (e.setWait c w).regs = e.regs := rfl

theorem Engine.step_setCtx (x : CoreCtx) : ((e.setCtx c x).coreOf c).step = (e.coreOf c).step := by
  rw [Engine.coreOf_setCtx]

theorem Engine.wait_setCtx (x : CoreCtx) : ((e.setCtx c x).coreOf c).wait = (e.coreOf c).wait := by
  rw [Engine.coreOf_setCtx]

theorem Engine.task_setCtx (x : CoreCtx) : ((e.setCtx c x).coreOf c).task = (e.coreOf c).task := by
  rw [Engine.coreOf_setCtx]

theorem Engine.coreOf_setWait (w : CoreWait) : (e.setWait c w).coreOf c = { e.coreOf c with wait := w } :=
  Engine.coreOf_updCore_same e c _

/-- A core that waits keeps its context. -/
theorem Engine.ctxOf_setWait (w : CoreWait) : (e.setWait c w).ctxOf c = e.ctxOf c := by
  unfold Engine.ctxOf Engine.ctxAt
  rw [Engine.coreOf_setWait]

theorem Engine.step_setWait (w : CoreWait) : ((e.setWait c w).coreOf c).step = (e.coreOf c).step := by
  rw [Engine.coreOf_setWait]

/-- The requests of a core carry the same hallmark before and after its instruction completes. -/
theorem Engine.coreSender_advance :
    (e.setCtx c (e.ctxOf c).advance).coreSender c = e.coreSender c := by
  have hm : (e.setCtx c (e.ctxOf c).advance).coreHm c = e.coreHm c := by
    unfold Engine.coreHm
    split
    · next h => subst h; rw [Engine.ctxOf_setCtx_same, CoreCtx.advance_mode]
    · rfl
  unfold Engine.coreSender
  rw [hm]

/-- Freezing a context ends no debug step. -/
theorem Engine.step_freezeCtx (d : Nat) : ((e.freezeCtx c d).coreOf c).step = (e.coreOf c).step := by
  have hd (k : CoreSt) : k.discardLoads.step = k.step := by unfold CoreSt.discardLoads; split <;> rfl
  unfold Engine.freezeCtx
  rw [Engine.coreOf_updCore_same]
  exact (hd _).trans (Engine.step_setCtx e c _)

/-- A fresh context ends no debug step. -/
theorem Engine.step_startCtx (task entry arg bound : Nat) :
    ((e.startCtx c task entry arg bound).coreOf c).step = (e.coreOf c).step := by
  unfold Engine.startCtx
  split
  · rfl
  · rw [Engine.coreOf_updCore_same]

/-- A dispatch ends no debug step. -/
theorem Engine.step_dispatch (d : Nat) : ((e.dispatch c d).coreOf c).step = (e.coreOf c).step := by
  rw [Engine.dispatch, Engine.step_startCtx, Engine.coreOf_updDesc, Engine.coreOf_put, Engine.coreOf_put]

end Cores

/-! ### Issuing an instruction whose effect is more than its context -/

/-- Issued under `runs`, an instruction has its effect `g` and then ends a debug step, if one is on. -/
theorem State.eff_issue {s : State} {i : Issue} {n : Need} {f g : Engine → Engine}
    (h : s.eng.runs i n.mode n.ext (!n.unlock) = true) (hi : n.illegal = false) (hfg : f s.eng = g s.eng) :
    s.eff (fun e => e.issue i n f) = .next (s.on fun e => (g e).stepEnd i.core) :=
  State.eff_eq_does (Engine.runs_live h) (by rw [Engine.issue_runs f h hi, hfg])

/-- The same where the effect leaves the core out of a debug step: `g` is all there is. -/
theorem State.eff_issue_off {s : State} {i : Issue} {n : Need} {f g : Engine → Engine}
    (h : s.eng.runs i n.mode n.ext (!n.unlock) = true) (hi : n.illegal = false) (hfg : f s.eng = g s.eng)
    (hk : ((g s.eng).coreOf i.core).step = (s.eng.coreOf i.core).step) :
    s.eff (fun e => e.issue i n f) = .next (s.on g) := by
  have hoff : (g s.eng).stepEnd i.core = g s.eng := Engine.stepEnd_off _ _ (hk.trans (Engine.runs_step h))
  exact State.eff_eq_does (Engine.runs_live h) (by rw [Engine.issue_runs f h hi, hfg, hoff])

/-! ### Waiting, and the end of a wait -/

section Waits

variable {e : Engine} {c : Nat}

/-- Outside a debug step the end of a wait completes the instruction, and nothing else. -/
theorem Engine.waitDone_off (h : (e.coreOf c).step = false) :
    e.waitDone c = (e.setWait c .run).setCtx c (e.ctxOf c).advance :=
  Engine.stepEnd_off _ _ (by rw [Engine.step_setCtx, Engine.step_setWait, h])

theorem Engine.afterStores_accepted (h : (e.coreOf c).posted = []) (w : CoreWait) (act : Engine → Engine) :
    e.afterStores c w act = act e := by simp [Engine.afterStores, h]

theorem Engine.afterStores_posted (h : (e.coreOf c).posted ≠ []) (w : CoreWait) (act : Engine → Engine) :
    e.afterStores c w act = e.setWait c w := by simp [Engine.afterStores, h]

/-- While the tick is stopped, and before it begins, an awaited tick is not reached. -/
theorem Engine.tickReached_false {t : Nat} (h : e.stopped = true ∨ e.block < t) : e.tickReached t = false := by
  rcases h with h | h <;> simp [Engine.tickReached, h]

theorem Engine.tickReached_true {t : Nat} (hs : e.stopped = false) (ht : t ≤ e.block) : e.tickReached t = true := by
  simp [Engine.tickReached, hs, ht]

/-- A WFT whose tick has not begun stays where it is (R251). -/
theorem Engine.wftWake_early {t : Nat} (hw : (e.coreOf c).wait = .wft) (ha : (e.ctxOf c).awaited = some t)
    (ht : e.tickReached t = false) : e.wftWake c = e := by
  simp [Engine.wftWake, hw, ha, ht]

/-- A WFT whose tick has begun completes (R251). -/
theorem Engine.wftWake_reached {t : Nat} (hk : (e.coreOf c).step = false) (hw : (e.coreOf c).wait = .wft)
    (ha : (e.ctxOf c).awaited = some t) (ht : e.tickReached t = true) :
    e.wftWake c = ((e.setCtx c { e.ctxOf c with awaited := none }).setWait c .run).setCtx c
      { e.ctxOf c with awaited := none }.advance := by
  simp only [Engine.wftWake, hw, ha, ht, if_true]
  unfold Engine.updCtx
  rw [Engine.waitDone_off (by rw [Engine.step_setCtx, hk]), Engine.ctxOf_setCtx_same]

/-- A WAITI with no enabled event pending goes on waiting (R260). -/
theorem Engine.waitiWake_idle (h : e.irqPending = false) : e.waitiWake = e := by simp [Engine.waitiWake, h]

/-- A WAITI that an enabled event ends completes; where the IRQ is open it is taken (R260). -/
theorem Engine.waitiWake_pending (hk : (e.coreOf 16).step = false) (hw : (e.coreOf 16).wait = .waiti)
    (hp : e.irqPending = true) :
    let y := (e.ctxOf 16).advance
    let done1 := (e.setWait 16 .run).setCtx 16 y
    e.waitiWake = if (e.ctxOf 16).irqOpen then done1.trap 16 0x10 y.pc else done1 := by
  simp only [Engine.waitiWake, hw, hp, and_self, if_true]
  rw [Engine.waitDone_off hk, Engine.ctxOf_setCtx_same, CoreCtx.advance_irqOpen]
  simp only [Engine.irqTake, Engine.updCtx, Engine.ctxOf_setCtx_same, CoreCtx.boundary_advance, Engine.setCtx_setCtx]

end Waits

/-! ### Fences and waits as commands -/

section WaitCommands

variable {s : State} {i : Issue}

/-- An instruction that waits for stores completes at once where all are accepted (R236). -/
theorem State.eff_issue_accepted {n : Need} (w : CoreWait)
    (h : s.eng.runs i n.mode n.ext (!n.unlock) = true) (hi : n.illegal = false)
    (hp : (s.eng.coreOf i.core).posted = []) :
    s.eff (fun e => e.issue i n fun e => e.afterStores i.core w fun e => e.waitDone i.core) =
      .next (s.on fun e => (e.setWait i.core .run).setCtx i.core (s.ctx i.core).advance) := by
  refine State.eff_issue_off h hi ?_ (by rw [Engine.step_setCtx, Engine.step_setWait])
  rw [Engine.afterStores_accepted hp, Engine.waitDone_off (Engine.runs_step h)]
  rfl

/-- It waits where one is not (R236). -/
theorem State.eff_issue_posted {n : Need} (w : CoreWait) (act : Engine → Engine)
    (h : s.eng.runs i n.mode n.ext (!n.unlock) = true) (hi : n.illegal = false)
    (hp : (s.eng.coreOf i.core).posted ≠ []) :
    s.eff (fun e => e.issue i n fun e => e.afterStores i.core w act) = .next (s.on fun e => e.setWait i.core w) :=
  State.eff_issue_off h hi (Engine.afterStores_posted hp w act) (Engine.step_setWait _ _ _)

/-- A WFT that finds its tick not begun records it and waits (R251). -/
theorem execWft_waits {t : Nat} (h : s.eng.runs i 0 false false = true) (ha : (s.ctx i.core).awaited = none)
    (ht : (if s.eng.stopped then s.eng.block else s.eng.block + 1) = t) (hr : s.eng.tickReached t = false) :
    execWft i s = .next (s.on fun e =>
      (e.setCtx i.core { s.ctx i.core with awaited := some t }).setWait i.core .wft) := by
  have ha' : (s.eng.ctxOf i.core).awaited = none := ha
  refine State.eff_issue_off (n := { unlock := true }) h rfl ?_
    (by rw [Engine.step_setWait, Engine.step_setCtx])
  dsimp only
  rw [ha', Option.getD_none, ht, hr]
  rfl

theorem execWftWake_early {c t : Nat} (hw : (s.eng.coreOf c).wait = .wft) (ha : (s.ctx c).awaited = some t)
    (ht : s.eng.stopped = true ∨ s.eng.block < t) : execWftWake c s = .next s :=
  State.eff_eq_self (f := fun e => e.wftWake c) (Engine.wftWake_early hw ha (Engine.tickReached_false ht))

theorem execWftWake_reached {c t : Nat} (hl : s.eng.live = true) (hk : (s.eng.coreOf c).step = false)
    (hw : (s.eng.coreOf c).wait = .wft) (ha : (s.ctx c).awaited = some t) (hs : s.eng.stopped = false)
    (ht : t ≤ s.eng.block) :
    let y := { s.ctx c with awaited := none }
    execWftWake c s = .next (s.on fun e => ((e.setCtx c y).setWait c .run).setCtx c y.advance) :=
  State.eff_eq_does (f := fun e => e.wftWake c) hl
    (Engine.wftWake_reached hk hw ha (Engine.tickReached_true hs ht))

/-- A WAITI with no enabled event pending waits, and changes nothing else (R260). -/
theorem execWaiti_idle (h : s.eng.runs i 1 false true = true) (hc : i.core = 16) (hp : s.eng.irqPending = false) :
    execWaiti i s = .next (s.on fun e => e.setWait i.core .waiti) :=
  State.eff_issue_off (n := { illegal := i.core != 16, mode := 1 }) h (by simp [hc])
    (Engine.waitiWake_idle hp) (Engine.step_setWait _ _ _)

theorem execIeset_runs (h : s.eng.runs i 1 false true = true) (hc : i.core = 16) (gd : Nat) (b : Bool) :
    execIeset i gd b s = .next (s.withCtx i.core
      { (s.ctx i.core).wrG gd (if (s.ctx i.core).ie then 1#32 else 0#32) with ie := b }.advance) := by
  have hv (q : Bool) : BitVec.ofNat 32 q.toNat = if q then 1#32 else 0#32 := by cases q <;> rfl
  rw [← hv]
  exact State.eff_issueCtx (n := { illegal := i.core != 16, mode := 1 }) _ h (by simp [hc])

end WaitCommands

/-! ### Task instructions -/

section Tasks

variable {s : State} {i : Issue} {e : Engine}

theorem bitsOf_desc (w : Word) : bitsOf w 0 12 = w.toNat % 4096 := by simp [bitsOf]

/-- A release that names no counter lowers the first that is not zero (R273). -/
theorem Engine.release_lowest {d k : Nat} (hm : Nat) (hk : k < 4) (h1 : tPending ≤ e.get (dState d))
    (h2 : e.get (dState d) ≤ tPreempted) (hne : e.get (dDep d k) ≠ 0) (hz : ∀ j, j < k → e.get (dDep d j) = 0) :
    e.release d none hm = e.put (dDep d k) (e.get (dDep d k) - 1) := by
  have hf : ((List.range 4).find? fun k => e.get (dDep d k) ≠ 0) = some k := by
    rw [List.find?_range_eq_some]
    exact ⟨by simpa using hne, by simpa using hk, fun j hj => by simpa using hz j hj⟩
  unfold Engine.release
  simp only [h1, h2, and_self, if_true, hf, Option.getD_some, hk, ne_eq, hne, not_false_eq_true]

/-- TREADY with its stores accepted releases the lowest counter that is not zero (R236, R254). -/
theorem execTready_accepted {g d k : Nat} (h : s.eng.runs i 0 false true = true)
    (hd : ((s.ctx i.core).rdG g).toNat % 4096 = d) (hm : s.eng.schedMay (s.eng.coreSender i.core) d = true)
    (hp : (s.eng.coreOf i.core).posted = []) (hk : k < 4) (h1 : tPending ≤ s.eng.get (dState d))
    (h2 : s.eng.get (dState d) ≤ tPreempted) (hne : s.eng.get (dDep d k) ≠ 0)
    (hz : ∀ j, j < k → s.eng.get (dDep d j) = 0) :
    execTready i g s = .next (s.on fun e =>
      ((e.put (dDep d k) (e.get (dDep d k) - 1)).setWait i.core .run).setCtx i.core (s.ctx i.core).advance) := by
  refine State.eff_issue_off (n := {}) h rfl ?_ (by rw [Engine.step_setCtx, Engine.step_setWait, Engine.coreOf_put])
  have hd' : bitsOf ((s.eng.ctxOf i.core).rdG g) 0 12 = d := (bitsOf_desc _).trans hd
  have hr : s.eng.treadyNow i.core d = s.eng.put (dDep d k) (s.eng.get (dDep d k) - 1) := by
    simp only [Engine.treadyNow, hm, if_true]
    exact Engine.release_lowest _ hk h1 h2 hne hz
  dsimp only
  rw [Engine.afterStores_accepted hp, hd', hr,
    Engine.waitDone_off (by rw [Engine.coreOf_put, Engine.runs_step h])]
  rfl

/-- TREADY before them waits (R236). -/
theorem execTready_posted {g d : Nat} (h : s.eng.runs i 0 false true = true)
    (hd : ((s.ctx i.core).rdG g).toNat % 4096 = d) (hp : (s.eng.coreOf i.core).posted ≠ []) :
    execTready i g s = .next (s.on fun e => e.setWait i.core (.tready d)) := by
  refine State.eff_issue_off (n := {}) h rfl ?_ (Engine.step_setWait _ _ _)
  have hd' : bitsOf ((s.eng.ctxOf i.core).rdG g) 0 12 = d := (bitsOf_desc _).trans hd
  dsimp only
  rw [Engine.afterStores_posted hp, hd']

/-- TCANCEL of a PENDING or READY descriptor ends it with UNRUN, whatever stores are under way (R236, R277). -/
theorem execTcancel_waiting {g d : Nat} (h : s.eng.runs i 0 false true = true)
    (hd : ((s.ctx i.core).rdG g).toNat % 4096 = d) (hm : s.eng.schedMay (s.eng.coreSender i.core) d = true)
    (hst : s.eng.get (dState d) = tPending ∨ s.eng.get (dState d) = tReady) :
    execTcancel i g s = .next (s.on fun e =>
      ((e.setCtx i.core (s.ctx i.core).advance).endTask d tCancelled rUnrun 0).stepEnd i.core) := by
  refine State.eff_issue (n := {})
    (g := fun e => (e.setCtx i.core (s.ctx i.core).advance).endTask d tCancelled rUnrun 0) h rfl ?_
  have hd' : bitsOf ((s.eng.ctxOf i.core).rdG g) 0 12 = d := (bitsOf_desc _).trans hd
  have hm' (x : CoreCtx) : (s.eng.setCtx i.core x).schedMay (s.eng.coreSender i.core) d = true := hm
  dsimp only
  rw [Engine.coreSender_advance, hd', Engine.schedCancelWrite, hm', if_neg (by decide), Engine.cancel,
    Engine.get_setCtx]
  exact if_pos hst

/-- TYIELD with no task to give the core to goes on (R255). -/
theorem execTyield_none {r : Nat} (hc : i.core < 16) (h : s.eng.runs i 0 false false = true)
    (ht : (s.eng.coreOf i.core).task = some r)
    (hy : (s.withCtx i.core (s.ctx i.core).advance).eng.yieldTo i.core r = none) :
    execTyield i s = .next (s.withCtx i.core (s.ctx i.core).advance) := by
  refine State.eff_issue_off (n := { illegal := i.core == 16, unlock := true })
    (g := fun e => e.setCtx i.core (s.ctx i.core).advance) h (by simp; omega) ?_ (Engine.step_setCtx _ _ _)
  have hy' : (s.eng.setCtx i.core (s.eng.ctxOf i.core).advance).yieldTo i.core r = none := hy
  dsimp only
  rw [Engine.task_setCtx, ht]
  simp only [hy']
  rfl

/-- TYIELD to a task: the running one becomes PREEMPTED and the other is dispatched (R255). -/
theorem execTyield_some {r n : Nat} (hc : i.core < 16) (h : s.eng.runs i 0 false false = true)
    (ht : (s.eng.coreOf i.core).task = some r)
    (hy : (s.withCtx i.core (s.ctx i.core).advance).eng.yieldTo i.core r = some n) :
    execTyield i s = .next (s.on fun e =>
      (((e.setCtx i.core (s.ctx i.core).advance).put (dState r) tPreempted).freezeCtx i.core r).dispatch i.core n) := by
  refine State.eff_issue_off (n := { illegal := i.core == 16, unlock := true }) h (by simp; omega) ?_
    (by rw [Engine.step_dispatch, Engine.step_freezeCtx, Engine.coreOf_put, Engine.step_setCtx])
  have hy' : (s.eng.setCtx i.core (s.eng.ctxOf i.core).advance).yieldTo i.core r = some n := hy
  dsimp only
  rw [Engine.task_setCtx, ht]
  simp only [hy', Engine.switchTo]
  rw [Engine.task_setCtx, ht]
  rfl

/-- TDONE waits for SCHED to record the completion (R256). -/
theorem execTdone_runs (hc : i.core < 16) (h : s.eng.runs i 0 false false = true) (st : Nat) :
    execTdone i st s = .next (s.on fun e => e.setWait i.core (.tdone (st % 256))) :=
  State.eff_issue_off (n := { illegal := i.core == 16, unlock := true }) h (by simp; omega) rfl
    (Engine.step_setWait _ _ _)

/-- A TDONE with its stores accepted ends the task COMPLETE, unless it has missed its block (R236, R256). -/
theorem Engine.taskComplete_accepted {c st r : Nat} (hw : (e.coreOf c).wait = .tdone st)
    (ht : (e.coreOf c).task = some r) (hp : (e.coreOf c).posted = []) (hm : (e.desc r).ending ≠ some rMissed) :
    e.taskComplete c = e.endRunning c r tDone rComplete st := by
  simp only [Engine.taskComplete, hw, ht, hp, List.isEmpty_nil, if_true]
  split
  · next q hq => exact if_neg fun h => hm (by rw [hq, h])
  · rfl

theorem execTaskComplete_accepted {c st r : Nat} (hl : s.eng.live = true) (hw : (s.eng.coreOf c).wait = .tdone st)
    (ht : (s.eng.coreOf c).task = some r) (hp : (s.eng.coreOf c).posted = [])
    (hm : (s.eng.desc r).ending ≠ some rMissed) :
    execTaskComplete c s = .next (s.on fun e => ((e.endCtx c).endTask r tDone rComplete st).coreNext c) :=
  State.eff_eq_does (f := fun e => e.taskComplete c) hl (Engine.taskComplete_accepted hw ht hp hm)

/-- SPLIT on an Anvil core writes the split word of its running task (R250). -/
theorem execSplit_runs (hc : i.core < 16) (h : s.eng.runs i 0 false true = true) (gd : Nat) :
    execSplit i gd s = .next (s.withCtx i.core ((s.ctx i.core).wrG gd (s.eng.splitWord i.core)).advance) :=
  State.eff_issue_off (n := { illegal := i.core == 16 })
    (g := fun e => e.setCtx i.core ((s.ctx i.core).wrG gd (s.eng.splitWord i.core)).advance)
    h (by simp; omega) rfl (Engine.step_setCtx _ _ _)

theorem Engine.splitWord_task {c r : Nat} (ht : (e.coreOf c).task = some r) :
    e.splitWord c = BitVec.ofNat 32 (e.splitIndex e.computeBlock (imgSgMask (e.img r)) (e.desc r).gate % 64
      + 2 ^ 16 * e.paramBank (e.coreTenant c) e.computeBlock) := by
  simp only [Engine.splitWord, ht]

end Tasks

/-- Settles O10: each clause is the case of its instruction that its hypotheses choose. -/
theorem waitingAndTaskInstructions : Obligations.WaitingAndTaskInstructions := by
  unfold Obligations.WaitingAndTaskInstructions
  refine ⟨fun s i => ?_, fun s i g => ?_⟩
  · refine ⟨fun k h => ?gap, fun h => ⟨fun hp => ?fence, fun hp => ?fenceWaits⟩,
      fun h ha => ⟨fun hs => ?wft, fun hs => ?wftStopped⟩,
      fun t hl hk hw ha => ⟨fun hs ht => ?wake, fun ht => ?early⟩,
      fun hc h => ⟨fun hp => ?waiti, fun hp => ?isync, fun hp => ?isyncWaits, fun gd b => ?ieset⟩,
      fun hl hk hw hp => ⟨fun ho => ?waitiDone, fun ho => ?irq⟩⟩
    case gap => exact State.eff_issueCtx (n := { unlock := true }) id h rfl
    case fence => exact State.eff_issue_accepted (n := {}) .fence h rfl hp
    case fenceWaits => exact State.eff_issue_posted (n := {}) .fence _ h rfl hp
    case wft =>
      exact execWft_waits h ha (by simp [hs]) (Engine.tickReached_false (.inr (Nat.lt_succ_self _)))
    case wftStopped => exact execWft_waits h ha (by simp [hs]) (Engine.tickReached_false (.inl hs))
    case wake =>
      refine ⟨_, execWftWake_reached hl hk hw ha hs ht, ?_, ?_, ?_, ?_⟩
      · exact Engine.ctxOf_setCtx_same _ _ _
      · exact (Engine.wait_setCtx _ _ _).trans (by rw [Engine.coreOf_setWait])
      · simp only [State.on, Engine.setCtx_mem, Engine.setWait_mem]
      · simp only [State.on, Engine.setCtx_regs, Engine.setWait_regs]
    case early => exact execWftWake_early hw ha ht
    case waiti =>
      exact ⟨_, execWaiti_idle h hc hp, congrArg CoreSt.wait (Engine.coreOf_setWait _ _ _),
        Engine.ctxOf_setWait _ _ _, Engine.setWait_mem _ _ _, Engine.setWait_regs _ _ _⟩
    case isync =>
      exact State.eff_issue_accepted (n := { illegal := i.core != 16, mode := 1 }) .isync h (by simp [hc]) hp
    case isyncWaits =>
      exact State.eff_issue_posted (n := { illegal := i.core != 16, mode := 1 }) .isync _ h (by simp [hc]) hp
    case ieset => exact execIeset_runs h hc gd b
    case waitiDone =>
      exact State.eff_eq_does hl ((Engine.waitiWake_pending hk hw hp).trans (if_neg (Bool.eq_false_iff.mp ho)))
    case irq => exact State.eff_eq_does hl ((Engine.waitiWake_pending hk hw hp).trans (if_pos ho))
  · refine ⟨fun h hm => ⟨fun hp k hk h1 h2 hne hz => ?tready, fun hp => ?treadyWaits, fun hst => ?tcancel⟩,
      fun hc h r ht => ⟨fun hy => ?goesOn, fun n hy => ?yields, fun st => ?tdone⟩,
      fun st r hl hw ht hp hm => ?complete, fun gd r hc h ht => ?split⟩
    case tready => exact execTready_accepted h rfl hm hp hk h1 h2 hne hz
    case treadyWaits => exact execTready_posted h rfl hp
    case tcancel => exact execTcancel_waiting h rfl hm hst
    case goesOn => exact execTyield_none hc h ht hy
    case yields => exact execTyield_some hc h ht hy
    case tdone => exact execTdone_runs hc h st
    case complete => exact execTaskComplete_accepted hl hw ht hp hm
    case split =>
      rw [exec_split, execSplit_runs hc h, Engine.splitWord_task ht]

end Sys2Proof.Machine

/-!
PROOFS. The scheduler's descriptor operations (R267 to R273, R277, R279, R282). Each write reaches
its block's rule, and each clause of the statement is one case of that rule, named here.
-/
namespace Sys2Proof.Machine

/-! ### The block in COMPUTE and the image taken by a submission (R265, R271) -/

section Submission

variable {e : Engine} {by_ : Sender} {d : Nat}

/-- The ESC at which the block in COMPUTE starts. -/
def Engine.computeStart (e : Engine) : Nat := e.computeBlock * e.nSamp

/-- It follows from TICK_CFG and the ESC alone. -/
theorem Engine.computeStart_congr {e' : Engine} (hr : e'.rd TICK_CFG = e.rd TICK_CFG) (ht : e'.tick = e.tick) :
    e'.computeStart = e.computeStart := by
  have hget {f : Fld} (hf : f.addr = TICK_CFG) : e'.get f = e.get f := by
    unfold Engine.get
    rw [hf, hr]
  have hn : e'.nSamp = e.nSamp := congrArg (2 ^ ·) (hget rfl)
  have hs : e'.stopped = e.stopped := by
    unfold Engine.stopped Engine.on
    rw [hget rfl]
  simp only [Engine.computeStart, Engine.computeBlock, Engine.block, hn, hs, ht]

theorem poolAddr_ne_tickCfg (d i : Nat) : TICK_CFG ≠ poolAddr d i := by
  unfold TICK_CFG poolAddr
  omega

/-- Writing a descriptor's status leaves it. -/
theorem Engine.computeStart_put_pool (e : Engine) {f : Fld} {i : Nat} (hf : f.addr = poolAddr d i) (v : Nat) :
    (e.put f v).computeStart = e.computeStart :=
  Engine.computeStart_congr (Engine.rd_wr_other _ _ (hf ▸ poolAddr_ne_tickCfg d i)) rfl

/-- `d` holds image `m` with GATE, LATE and REASON clear (R271). -/
def Engine.takeImage (e : Engine) (d : Nat) (m : List Word) : Engine :=
  (((e.updDesc d fun _ => { img := m }).put (dGate d) 0).put (dLate d) 0).put (dReason d) 0

theorem Engine.computeStart_takeImage (e : Engine) (d : Nat) (m : List Word) :
    (e.takeImage d m).computeStart = e.computeStart := by
  unfold Engine.takeImage
  rw [Engine.computeStart_put_pool _ rfl, Engine.computeStart_put_pool _ rfl, Engine.computeStart_put_pool _ rfl]
  exact Engine.computeStart_congr rfl rfl

/-! ### A submission, case by case (R269 to R272) -/

theorem Engine.submit_notOwned (hm : e.schedMay by_ d = false) : e.submit by_ d = e.opRefused by_ d 0 2 :=
  if_pos (.inl hm)

theorem Engine.submit_refused {r : Nat} (hm : e.schedMay by_ d = true) (ht : e.descTenant d ≠ none)
    (hr : e.submitRefusal d (e.staged d) = some r) : e.submit by_ d = e.opRefused by_ d 0 r := by
  simp only [Engine.submit, hm, ht, hr, Bool.true_eq_false, or_self, if_false]

/-- An accepted one-shot's BOUND is the block in COMPUTE as the submission finds it (R271). -/
theorem Engine.submit_oneShot (hm : e.schedMay by_ d = true) (ht : e.descTenant d ≠ none)
    (hr : e.submitRefusal d (e.staged d) = none) (hs : imgStanding (e.staged d) = false) :
    e.submit by_ d =
      ((((e.takeImage d (e.staged d)).loadDeps d).setBound d e.computeStart).put (dState d) tPending).tryReady d := by
  rw [← Engine.computeStart_takeImage e d (e.staged d)]
  simp only [Engine.submit, hm, ht, hr, hs, Bool.true_eq_false, Bool.false_eq_true, or_self, if_false]
  rfl

theorem Engine.submit_standing_free (hm : e.schedMay by_ d = true) (ht : e.descTenant d ≠ none)
    (hr : e.submitRefusal d (e.staged d) = none) (hs : imgStanding (e.staged d) = true)
    (hst : e.get (dState d) = tFree) :
    e.submit by_ d = (e.updDesc d fun _ => { img := e.staged d }).put (dState d) tDone := by
  simp only [Engine.submit, hm, ht, hr, hs, hst, Bool.true_eq_false, or_self, if_false, if_true]

theorem Engine.submit_standing_live (hm : e.schedMay by_ d = true) (ht : e.descTenant d ≠ none)
    (hr : e.submitRefusal d (e.staged d) = none) (hs : imgStanding (e.staged d) = true)
    (hfree : e.get (dState d) ≠ tFree) (hfault : e.get (dState d) ≠ tFaulted) :
    e.submit by_ d = e.updDesc d fun x => { x with next := some (e.staged d) } := by
  simp only [Engine.submit, hm, ht, hr, hs, hfree, hfault, Bool.true_eq_false, or_self, if_false, if_true]

end Submission

/-! ### Release, cancel and free (R273, R277, R279) -/

section Operations

variable {e : Engine} {by_ : Sender} {d : Nat}

/-- A release that names a counter lowers it (R273). -/
theorem Engine.release_named {k : Nat} (hm : Nat) (hk : k < 4) (h1 : tPending ≤ e.get (dState d))
    (h2 : e.get (dState d) ≤ tPreempted) (hne : e.get (dDep d k) ≠ 0) :
    e.release d (some k) hm = e.put (dDep d k) (e.get (dDep d k) - 1) := by
  simp only [Engine.release, h1, h2, and_self, if_true, hk, ne_eq, hne, not_false_eq_true]

theorem Engine.schedReadyWrite_named {k : Nat} (hm : e.schedMay by_ d = true) (hk : k < 4) :
    e.schedReadyWrite by_ d k = e.release d (some k) by_.hm := by
  rw [Engine.schedReadyWrite, if_neg (ne_false_of_eq_true hm), if_neg (by omega), if_neg (by omega)]

theorem Engine.schedCancelWrite_notOwned (hm : e.schedMay by_ d = false) :
    e.schedCancelWrite by_ d = e.opRefused by_ d 2 2 :=
  if_pos hm

/-- A task that has not begun ends at once, UNRUN (R277). -/
theorem Engine.schedCancelWrite_waiting (hm : e.schedMay by_ d = true)
    (hst : e.get (dState d) = tPending ∨ e.get (dState d) = tReady) :
    e.schedCancelWrite by_ d = e.endTask d tCancelled rUnrun 0 :=
  (if_neg (ne_false_of_eq_true hm)).trans (if_pos hst)

theorem Engine.schedFreeWrite_notOwned (hm : e.schedMay by_ d = false) :
    e.schedFreeWrite by_ d = e.opRefused by_ d 3 2 :=
  if_pos hm

/-- A free of a standing descriptor retires it, at once when it has ended (R279). -/
theorem Engine.schedFreeWrite_standing (hm : e.schedMay by_ d = true) (hst : e.get (dState d) ≠ tFree)
    (hs : imgStanding (e.img d) = true) : e.schedFreeWrite by_ d = (e.put (dRetire d) 1).retireCheck d :=
  (if_neg (ne_false_of_eq_true hm)).trans (if_pos ⟨hst, hs⟩)

theorem Engine.schedFreeWrite_ended (hm : e.schedMay by_ d = true) (hst : tDone ≤ e.get (dState d))
    (hs : imgStanding (e.img d) = false) : e.schedFreeWrite by_ d = e.freeDesc d := by
  have hstand : ¬ (e.get (dState d) ≠ tFree ∧ imgStanding (e.img d) = true) :=
    fun h => ne_true_of_eq_false hs h.2
  exact (if_neg (ne_false_of_eq_true hm)).trans ((if_neg hstand).trans (if_pos hst))

theorem Engine.schedFreeWrite_free (hm : e.schedMay by_ d = true) (hst : e.get (dState d) = tFree) :
    e.schedFreeWrite by_ d = e.opRefused by_ d 3 1 := by
  have hended : ¬ tDone ≤ e.get (dState d) := by
    rw [hst]
    decide
  exact (if_neg (ne_false_of_eq_true hm)).trans ((if_neg fun h => h.1 hst).trans (if_neg hended))

end Operations

/-! ### A tenant's range (R268) -/

section Range

variable {e : Engine} {by_ : Sender} {t : Nat} {v : Word}

/-- A mask that covers a field leaves it. -/
theorem bitsOf_and_mask (v : Word) {m : Word} {lo width : Nat}
    (h : ∀ i, i < width → m.toNat.testBit (lo + i) = true) :
    bitsOf (v &&& m) lo width = bitsOf v lo width := by
  refine Nat.eq_of_testBit_eq fun i => ?_
  rw [bitsOf_testBit, bitsOf_testBit, BitVec.toNat_and, Nat.testBit_and]
  by_cases hi : i < width
  · rw [h i hi, Bool.and_true]
  · rw [decide_eq_false hi, Bool.false_and, Bool.false_and]

/-- The writable bits of a SCHED_RANGE word. -/
def rangeBits (v : Word) : Word := v &&& 0x1FFF0FFF#32

theorem bitsOf_rangeBits_base (v : Word) : bitsOf (rangeBits v) 0 12 = v.toNat % 4096 :=
  (bitsOf_and_mask v (by decide)).trans (bitsOf_desc v)

theorem bitsOf_rangeBits_count (v : Word) : bitsOf (rangeBits v) 16 13 = v.toNat / 2 ^ 16 % 8192 :=
  bitsOf_and_mask v (by decide)

/-- Range `[b, b + n)` shares a descriptor with another tenant's than `t`. -/
def Engine.rangeOverlaps (e : Engine) (t b n : Nat) : Bool :=
  (List.range 16).any fun u => u != t && decide (n ≠ 0 ∧ e.cp (SCHED_RANGE_COUNT u) ≠ 0 ∧
    b < e.cp (SCHED_RANGE_BASE u) + e.cp (SCHED_RANGE_COUNT u) ∧ e.cp (SCHED_RANGE_BASE u) < b + n)

/-- Range `[b, b + n)` leaves a live descriptor of tenant `t` behind. -/
def Engine.rangeLeaves (e : Engine) (t b n : Nat) : Bool :=
  e.liveDescs.any fun x => e.descTenant x == some t && !decide (b ≤ x ∧ x < b + n)

theorem Engine.rangeOverlaps_eq_false {b n : Nat} (h : ∀ u, u < 16 → u ≠ t → n ≠ 0 → e.cp (SCHED_RANGE_COUNT u) ≠ 0 →
    b + n ≤ e.cp (SCHED_RANGE_BASE u) ∨ e.cp (SCHED_RANGE_BASE u) + e.cp (SCHED_RANGE_COUNT u) ≤ b) :
    e.rangeOverlaps t b n = false := by
  refine List.any_eq_false.mpr fun u hu hov => ?_
  simp only [Bool.and_eq_true, bne_iff_ne, decide_eq_true_eq] at hov
  obtain ⟨hut, hn0, hu0, hlo, hhi⟩ := hov
  have := h u (List.mem_range.mp hu) hut hn0 hu0
  omega

theorem Engine.rangeLeaves_eq_false {b n : Nat}
    (h : ∀ x, x ∈ e.liveDescs → e.descTenant x = some t → b ≤ x ∧ x < b + n) : e.rangeLeaves t b n = false := by
  refine List.any_eq_false.mpr fun x hx hout => ?_
  simp only [Bool.and_eq_true, beq_iff_eq, Bool.not_eq_true', decide_eq_false_iff_not] at hout
  exact hout.2 (h x hx hout.1)

/-- The three grounds on which the control core's pair is refused (R268). -/
theorem Engine.schedRange_controlCore (hc : by_.isCC = true) {b n : Nat} (hb : v.toNat % 4096 = b)
    (hn : v.toNat / 2 ^ 16 % 8192 = n) : e.schedRange by_ t v =
      if e.rangeOverlaps t b n || decide (4096 < b + n) || e.rangeLeaves t b n then
        e.schedEvt t 0x06 .warn by_.hm (rangeBits v).toNat 0
      else e.wrCp (SCHED_RANGE t) (rangeBits v) := by
  rw [← hb, ← hn, ← bitsOf_rangeBits_base, ← bitsOf_rangeBits_count]
  exact if_neg (ne_false_of_eq_true hc)

theorem Engine.schedRange_taken (hc : by_.isCC = true) {b n : Nat} (hb : v.toNat % 4096 = b)
    (hn : v.toNat / 2 ^ 16 % 8192 = n) (ho : e.rangeOverlaps t b n = false) (hfit : b + n ≤ 4096)
    (hl : e.rangeLeaves t b n = false) : e.schedRange by_ t v = e.wrCp (SCHED_RANGE t) (rangeBits v) := by
  rw [Engine.schedRange_controlCore hc hb hn, ho, hl, decide_eq_false (Nat.not_lt.mpr hfit)]
  exact if_neg Bool.false_ne_true

theorem Engine.schedRange_tooLong (hc : by_.isCC = true) {b n : Nat} (hb : v.toNat % 4096 = b)
    (hn : v.toNat / 2 ^ 16 % 8192 = n) (hlong : 4096 < b + n) :
    e.schedRange by_ t v = e.schedEvt t 0x06 .warn by_.hm (rangeBits v).toNat 0 := by
  rw [Engine.schedRange_controlCore hc hb hn, decide_eq_true hlong, Bool.or_true, Bool.true_or]
  exact if_pos rfl

end Range

/-! ### Completion records (R282) -/

section Records

variable {e : Engine} {t : Nat}

theorem Engine.cqPop_empty (by_ : Sender) (h : Tbl.get [] e.sched.cq t = []) :
    e.cqPop by_ t = (0#32, e.capture (SCHED_CQ_LO t) by_.hm [0]) := by
  simp only [Engine.cqPop, h]

/-- The oldest record is answered and leaves the queue; its BOUND is captured. -/
theorem Engine.cqPop_oldest (by_ : Sender) {r : CqRec} {rs : List CqRec} (h : Tbl.get [] e.sched.cq t = r :: rs) :
    e.cqPop by_ t = (BitVec.ofNat 32 (r.idx + 2 ^ 12 * r.reason + 2 ^ 15 * r.late.toNat + 2 ^ 16 * r.status + 2 ^ 31),
      (e.updSched fun x => { x with cq := Tbl.set [] x.cq t rs }).capture (SCHED_CQ_LO t) by_.hm [r.bound]) := by
  simp only [Engine.cqPop, h]

end Records

/-! ### The commands, where the scheduler takes them at once -/

section Commands

variable {s : State} {by_ : Sender} {d : Nat} {v : Word} {g : Engine → Engine}

theorem exec_schedSubmit_does (hs : s.awake = true) (hd : d < 4096) (hb : s.eng.direct by_ SCHED_SUBMIT = true)
    (h : s.eng.submit by_ d = g s.eng) : exec (.schedSubmit by_ d) s = s.does g := by
  rw [exec_schedSubmit, execSchedSubmit, Nat.mod_eq_of_lt hd, State.eff_row hb]
  exact State.eff_eq_does hs h

theorem exec_schedReady_does {k : Nat} (hs : s.awake = true) (hb : s.eng.direct by_ SCHED_READY = true)
    (hd : v.toNat % 4096 = d) (hk : v.toNat / 4096 % 8 = k) (h : s.eng.schedReadyWrite by_ d k = g s.eng) :
    exec (.schedReady by_ v) s = s.does g := by
  rw [exec_schedReady, execSchedReady, State.eff_row hb, (bitsOf_desc v).trans hd, show bitsOf v 12 3 = k from hk]
  exact State.eff_eq_does hs h

theorem exec_schedCancel_does (hs : s.awake = true) (hd : d < 4096) (hb : s.eng.direct by_ SCHED_CANCEL = true)
    (h : s.eng.schedCancelWrite by_ d = g s.eng) : exec (.schedCancel by_ d) s = s.does g := by
  rw [exec_schedCancel, execSchedCancel, Nat.mod_eq_of_lt hd, State.eff_row hb]
  exact State.eff_eq_does hs h

theorem exec_schedFree_does (hs : s.awake = true) (hd : d < 4096) (hb : s.eng.direct by_ SCHED_FREE = true)
    (h : s.eng.schedFreeWrite by_ d = g s.eng) : exec (.schedFree by_ d) s = s.does g := by
  rw [exec_schedFree, execSchedFree, Nat.mod_eq_of_lt hd, State.eff_row hb]
  exact State.eff_eq_does hs h

theorem exec_schedRangeCommit_does {t : Nat} (hs : s.awake = true) (hb : s.eng.direct by_ (SCHED_RANGE t) = true)
    (h : s.eng.schedRange by_ t v = g s.eng) : exec (.schedRangeCommit by_ t v) s = s.does g := by
  rw [exec_schedRangeCommit, execSchedRangeCommit, State.eff_row hb]
  exact State.eff_eq_does hs h

end Commands

/-- Settles O29: each clause is the case of its operation that its hypotheses choose. -/
theorem descriptorOperations : Obligations.DescriptorOperations := by
  unfold Obligations.DescriptorOperations
  intro s by_ d t v hs hd e st free
  refine ⟨fun ⟨hsub, _, hcan, hfre⟩ hm => ⟨?submitNotOwned, ?cancelNotOwned, ?freeNotOwned⟩,
    fun ⟨hsub, _⟩ hm ht => ⟨fun r hr => ?refused, fun hr hone => ?oneShot,
      fun hr hstand => ⟨fun hst => ?standingFree, fun hfree hfault => ?standingLive⟩⟩,
    fun ⟨_, hrdy, hcan, hfre⟩ hm => ⟨fun k hk hdesc hctr h1 h2 hne => ?ready, fun hst => ?cancel,
      fun hst hone => ?freed, fun hst => ?freeOfFree, fun hst hstand => ?retired⟩,
    fun hb hc => ⟨fun hfit ha hl => ?rangeTaken, fun hlong => ?rangeTooLong⟩,
    fun h => ?cqEmpty, fun r rs h => ?cqOldest⟩
  case submitNotOwned => exact exec_schedSubmit_does hs hd hsub (Engine.submit_notOwned hm)
  case cancelNotOwned => exact exec_schedCancel_does hs hd hcan (Engine.schedCancelWrite_notOwned hm)
  case freeNotOwned => exact exec_schedFree_does hs hd hfre (Engine.schedFreeWrite_notOwned hm)
  case refused => exact exec_schedSubmit_does hs hd hsub (Engine.submit_refused hm ht hr)
  case oneShot => exact exec_schedSubmit_does hs hd hsub (Engine.submit_oneShot hm ht hr hone)
  case standingFree => exact exec_schedSubmit_does hs hd hsub (Engine.submit_standing_free hm ht hr hstand hst)
  case standingLive =>
    exact exec_schedSubmit_does hs hd hsub (Engine.submit_standing_live hm ht hr hstand hfree hfault)
  case ready =>
    exact exec_schedReady_does hs hrdy hdesc hctr
      ((Engine.schedReadyWrite_named hm hk).trans (Engine.release_named _ hk h1 h2 hne))
  case cancel => exact exec_schedCancel_does hs hd hcan (Engine.schedCancelWrite_waiting hm hst)
  case freed => exact exec_schedFree_does hs hd hfre (Engine.schedFreeWrite_ended hm hst hone)
  case freeOfFree => exact exec_schedFree_does hs hd hfre (Engine.schedFreeWrite_free hm hst)
  case retired => exact exec_schedFree_does hs hd hfre (Engine.schedFreeWrite_standing hm hst hstand)
  case rangeTaken =>
    exact exec_schedRangeCommit_does hs hb (Engine.schedRange_taken hc rfl rfl
      (Engine.rangeOverlaps_eq_false ha) hfit (Engine.rangeLeaves_eq_false hl))
  case rangeTooLong => exact exec_schedRangeCommit_does hs hb (Engine.schedRange_tooLong hc rfl rfl hlong)
  case cqEmpty =>
    rw [exec_schedCqPop]
    exact State.eff_eq_does hs (congrArg Engine.answer (Engine.cqPop_empty by_ h))
  case cqOldest =>
    rw [exec_schedCqPop]
    exact State.eff_eq_does hs (congrArg Engine.answer (Engine.cqPop_oldest by_ h))

end Sys2Proof.Machine

/-!
PROOFS. Address windows, fault records and translation (R317 to R320, R325, R341). A CTRL pair is
disabled, refused or loaded; a translation is the lowest window that holds the address, or none.
-/
namespace Sys2Proof.Machine

/-! ### The CTRL pair of a window (R319, R320, R341) -/

section Commit

variable {e : Engine} {by_ : Sender} {t w : Nat} {v : Word}

/-- The writable bits of an XLAT_WIN_CTRL word. -/
def ctrlBits (v : Word) : Word := v &&& 0x13F#32

theorem bitOf_ctrlBits (v : Word) {i : Nat} (h : (0x13F#32 : Word).getLsbD i = true) :
    bitOf (ctrlBits v) i = v.getLsbD i := by
  rw [bitOf, ctrlBits, BitVec.getLsbD_and, h, Bool.and_true]

/-- The pair of CTRL is taken and window `w` of tenant `t` has the active image `i`. -/
def Engine.loadWindow (e : Engine) (t w : Nat) (v : Word) (i : WinImg) : Engine :=
  (e.wrCp (XLAT_WIN_CTRL t w) (ctrlBits v)).updXlat fun x => { x with act := Tbl.set {} x.act (32 * t + w) i }

/-- The image that the staged pairs and a CTRL word give an enabled window (R319). -/
def Engine.stagedWindow (e : Engine) (t w : Nat) (v : Word) : WinImg where
  en := true
  r := v.getLsbD 1
  w := v.getLsbD 2
  x := v.getLsbD 3
  host := v.getLsbD 4
  nosnoop := v.getLsbD 8
  base := e.cp (XLAT_WIN_BASE_BASE t w)
  limit := e.cp (XLAT_WIN_LIMIT_LIMIT t w)
  off := e.cp (XLAT_WIN_OFF_HI_OFF t w) * 2 ^ 20 + e.cp (XLAT_WIN_OFF_LO_OFF t w)

theorem Engine.winCommit_disable (h : v.getLsbD 0 = false) : e.winCommit by_ t w v = e.loadWindow t w v {} :=
  if_pos ((bitOf_ctrlBits v (by decide)).trans h)

/-- With EN the staged image decides (R320). -/
theorem Engine.winCommit_enable (h : v.getLsbD 0 = true) :
    e.winCommit by_ t w v = match e.winRefusal t w (ctrlBits v) with
      | some r => e.raise (xlatEvt 0x02 by_.hm (w + 2 ^ 8 * t) r)
      | none => e.loadWindow t w v (e.stagedWindow t w v) := by
  have hen : bitOf (ctrlBits v) 0 ≠ false := by
    rw [bitOf_ctrlBits v (by decide), h]
    decide
  have himg : e.stagedWindow t w v = { e.stagedWindow t w v with
      r := bitOf (ctrlBits v) 1, w := bitOf (ctrlBits v) 2, x := bitOf (ctrlBits v) 3
      host := bitOf (ctrlBits v) 4, nosnoop := bitOf (ctrlBits v) 8 } := by
    simp (disch := decide) only [bitOf_ctrlBits]
    rfl
  rw [himg]
  exact if_neg hen

theorem Engine.winCommit_refused {r : Nat} (h : v.getLsbD 0 = true) (hr : e.winRefusal t w (ctrlBits v) = some r) :
    e.winCommit by_ t w v = e.raise (xlatEvt 0x02 by_.hm (w + 2 ^ 8 * t) r) := by
  rw [Engine.winCommit_enable h, hr]

theorem Engine.winCommit_loaded (h : v.getLsbD 0 = true) (hr : e.winRefusal t w (ctrlBits v) = none) :
    e.winCommit by_ t w v = e.loadWindow t w v (e.stagedWindow t w v) := by
  rw [Engine.winCommit_enable h, hr]

end Commit

/-! ### The commands, where the block takes them at once -/

section Commands

variable {s : State} {by_ : Sender} {t w : Nat} {v : Word} {g : Engine → Engine}

theorem exec_windowCommit_other (hs : s.awake = true) (hb : s.eng.direct by_ (XLAT_WIN_CTRL t w) = true)
    (hc : by_.isCC = false) : exec (.windowCommit by_ t w v) s = s.does fun e => e.winPriv by_ t w := by
  rw [exec_windowCommit, execWindowCommit, State.eff_row hb]
  exact State.eff_eq_does hs (if_neg (ne_true_of_eq_false hc))

theorem exec_windowCommit_controlCore (hs : s.awake = true) (hb : s.eng.direct by_ (XLAT_WIN_CTRL t w) = true)
    (hc : by_.isCC = true) (h : s.eng.winCommit by_ t w v = g s.eng) :
    exec (.windowCommit by_ t w v) s = s.does g := by
  rw [exec_windowCommit, execWindowCommit, State.eff_row hb]
  exact State.eff_eq_does hs ((if_pos hc).trans h)

theorem exec_faultRecordClear_set (hs : s.awake = true) (hv : v.getLsbD 31 = true) :
    exec (.faultRecordClear t v) s = s.does fun e => e.faultClear t :=
  State.eff_eq_does hs (if_pos hv)

theorem exec_faultRecordClear_clear (hv : v.getLsbD 31 = false) : exec (.faultRecordClear t v) s = .next s :=
  State.eff_eq_self (if_neg (ne_true_of_eq_false hv))

end Commands

/-! ### Translation (R317, R318) -/

section Translation

variable {e : Engine} {t va w : Nat} {write : Bool}

/-- The active image of window `w` of tenant `t`. -/
def Engine.winImg (e : Engine) (t w : Nat) : WinImg := Tbl.get {} e.xlat.act (32 * t + w)

/-- Window `w` takes part in translation and its range holds `va`. -/
def Engine.winHolds (e : Engine) (t va w : Nat) : Bool :=
  (e.winImg t w).en && !e.winQuar t w &&
    decide ((e.winImg t w).base * 4096 ≤ va ∧ va < ((e.winImg t w).limit + 1) * 4096)

theorem Engine.winHolds_iff : e.winHolds t va w = true ↔ (e.winImg t w).en = true ∧ e.winQuar t w = false ∧
    (e.winImg t w).base * 4096 ≤ va ∧ va < ((e.winImg t w).limit + 1) * 4096 := by
  simp only [Engine.winHolds, Bool.and_eq_true, Bool.not_eq_true', decide_eq_true_eq, and_assoc]

/-- Translation searches the windows in the order of their numbers. -/
theorem Engine.window_eq_find (e : Engine) (t va : Nat) :
    e.window t va = ((List.range 32).find? (e.winHolds t va)).map (e.winImg t) := rfl

theorem Engine.window_lowest (hw : w < 32) (hh : e.winHolds t va w = true)
    (hlow : ∀ u, u < w → e.winHolds t va u = false) : e.window t va = some (e.winImg t w) := by
  have hfind : (List.range 32).find? (e.winHolds t va) = some w :=
    List.find?_range_eq_some.mpr ⟨hh, List.mem_range.mpr hw, fun u hu => by rw [hlow u hu]; rfl⟩
  rw [Engine.window_eq_find, hfind, Option.map_some]

theorem Engine.window_none (h : ∀ w, w < 32 → e.winHolds t va w = false) : e.window t va = none := by
  have hfind : (List.range 32).find? (e.winHolds t va) = none :=
    List.find?_range_eq_none.mpr fun u hu => by rw [h u hu]; rfl
  rw [Engine.window_eq_find, hfind, Option.map_none]

/-- Whether image `i` allows the access. -/
def WinImg.allows (i : WinImg) (write : Bool) : Bool := if write then i.w else i.r

theorem Engine.xlate_some {i : WinImg} (h : e.window t va = some i) :
    e.xlate t va write = if i.allows write then .ok (i.target va) i else .fault kRights := by
  rw [Engine.xlate, h]
  rfl

theorem Engine.xlate_none (h : e.window t va = none) : e.xlate t va write = .fault kNowin := by
  rw [Engine.xlate, h]

end Translation

/-- Settles O32: each clause on a command is one case of the CTRL pair or of the record's VALID bit,
and a translation is the search for the lowest window. -/
theorem windowsAndTranslation : Obligations.WindowsAndTranslation := by
  unfold Obligations.WindowsAndTranslation
  refine ⟨fun s by_ t w v hs => ?commands, fun e t va write => ?translation⟩
  case commands =>
    intro e c refused load
    exact ⟨fun hb hc => exec_windowCommit_other hs hb hc,
      fun hb hc => ⟨fun hen => exec_windowCommit_controlCore hs hb hc (Engine.winCommit_disable hen),
        fun hen => ⟨fun r hr => exec_windowCommit_controlCore hs hb hc (Engine.winCommit_refused hen hr),
          fun hr => exec_windowCommit_controlCore hs hb hc (Engine.winCommit_loaded hen hr)⟩⟩,
      exec_faultRecordClear_set hs, exec_faultRecordClear_clear⟩
  case translation =>
    intro img holds allows
    have holds_iff {w : Nat} (hw : w < 32) : e.winHolds t va w = true ↔ holds w :=
      Engine.winHolds_iff.trans (and_iff_right hw).symm
    refine ⟨fun w hh hlow => ?inside, fun hno => Engine.xlate_none (Engine.window_none fun w hw => ?outside)⟩
    case inside =>
      have hw : w < 32 := hh.1
      have hfirst : e.window t va = some (img w) :=
        Engine.window_lowest hw ((holds_iff hw).mpr hh) fun u hu =>
          Bool.eq_false_iff.mpr fun hu' => hlow u hu ((holds_iff (Nat.lt_trans hu hw)).mp hu')
      have hx : e.xlate t va write = if allows w then .ok ((img w).target va) (img w) else .fault kRights :=
        Engine.xlate_some hfirst
      exact ⟨fun ha => hx.trans (if_pos ha), fun ha => hx.trans (if_neg (ne_true_of_eq_false ha))⟩
    case outside => exact Bool.eq_false_iff.mpr fun h => hno w ((holds_iff hw).mp h)

end Sys2Proof.Machine

/-!
PROOFS. DMA (R323, R326, R328, R330 to R332, R334, R335): the length of a burst, the commands, the
fetch, the burst at the front of the queue, completion and host fetches. Each rule is said once as
an equation for the case it covers; the statement is put together from them.
-/
namespace Sys2Proof.Machine

/-! ### The length of a burst (R328) -/

section Length

variable {x : DmaCh} {r i : Nat}

/-- The length is at most each of the seven limits it is the least of. -/
theorem DmaCh.burstLen_le_limits (x : DmaCh) (r i : Nat) :
    x.burstLen r i ≤ 64 ∧ x.burstLen r i ≤ x.xlen - i ∧ x.burstLen r i ≤ 64 - (x.at_ 1 r i).1 % 64 ∧
      x.burstLen r i ≤ 4096 - (x.at_ 0 r i).1 % 4096 ∧ x.burstLen r i ≤ 4096 - (x.at_ 1 r i).1 % 4096 ∧
      x.burstLen r i ≤ (x.at_ 0 r i).2.getD 64 ∧ x.burstLen r i ≤ (x.at_ 1 r i).2.getD 64 := by
  have h : x.burstLen r i ≤ min (min (min (min (min (min 64 (x.xlen - i)) (64 - (x.at_ 1 r i).1 % 64))
      (4096 - (x.at_ 0 r i).1 % 4096)) (4096 - (x.at_ 1 r i).1 % 4096)) ((x.at_ 0 r i).2.getD 64))
      ((x.at_ 1 r i).2.getD 64) := Nat.le_refl _
  simpa only [Nat.le_min, and_assoc] using h

/-- A burst stays within 64 bytes, its row, the destination's 64-byte block and both ends' pages. -/
theorem DmaCh.burstLen_bounds (x : DmaCh) (r i : Nat) :
    x.burstLen r i ≤ 64 ∧ x.burstLen r i ≤ x.xlen - i ∧ (x.at_ 1 r i).1 % 64 + x.burstLen r i ≤ 64 ∧
      (x.at_ 0 r i).1 % 4096 + x.burstLen r i ≤ 4096 ∧ (x.at_ 1 r i).1 % 4096 + x.burstLen r i ≤ 4096 := by
  obtain ⟨hmax, hrow, hblock, hsrc, hdst, -, -⟩ := x.burstLen_le_limits r i
  omega

/-- A burst does not pass the end of its ring. -/
theorem DmaCh.burstLen_le_ring {m : Nat} (h : (x.at_ 0 r i).2 = some m ∨ (x.at_ 1 r i).2 = some m) :
    x.burstLen r i ≤ m := by
  obtain ⟨-, -, -, -, -, hsrc, hdst⟩ := x.burstLen_le_limits r i
  rcases h with h | h
  · rwa [h, Option.getD_some] at hsrc
  · rwa [h, Option.getD_some] at hdst

end Length

/-! ### What the channels' operations leave unchanged -/

section Frames

variable {e f : Engine} {k : Nat}

theorem Engine.dmaCh_setDmaCh_same (e : Engine) (k : Nat) (x : DmaCh) : (e.setDmaCh k x).dmaCh k = x :=
  Tbl.get_set_same _ _ _ _

theorem Engine.dmaCh_updDmaCh_same (e : Engine) (k : Nat) (g : DmaCh → DmaCh) :
    (e.updDmaCh k g).dmaCh k = g (e.dmaCh k) := Engine.dmaCh_setDmaCh_same _ _ _

theorem Engine.updDmaCh_mem (e : Engine) (k : Nat) (g : DmaCh → DmaCh) : (e.updDmaCh k g).mem = e.mem := rfl

/-- A channel's hidden state depends on the channels alone. -/
theorem Engine.dmaCh_congr (h : e.dma = f.dma) (k : Nat) : e.dmaCh k = f.dmaCh k := by
  rw [Engine.dmaCh, Engine.dmaCh, h]

theorem Engine.setDmaState_dma (e : Engine) (k st : Nat) : (e.setDmaState k st).dma = e.dma :=
  (Engine.put_dma _ _ _).trans (Engine.put_dma _ _ _)

theorem Engine.setDmaState_mem (e : Engine) (k st : Nat) : (e.setDmaState k st).mem = e.mem :=
  (Engine.put_mem _ _ _).trans (Engine.put_mem _ _ _)

theorem Engine.dmaSlots_dma (e : Engine) (pa n : Nat) : (e.dmaSlots pa n).dma = e.dma := by
  unfold Engine.dmaSlots
  split
  · exact Engine.count_dma _ _ _
  · rfl

theorem Engine.dmaSlots_mem (e : Engine) (pa n : Nat) : (e.dmaSlots pa n).mem = e.mem := by
  unfold Engine.dmaSlots
  split
  · exact Engine.count_mem _ _ _
  · rfl

/-- Granted slots count in the cores' block, above the channels' registers. -/
theorem Engine.rd_dmaSlots_low (e : Engine) (pa n : Nat) {a : Nat} (h : a < 0x40200000) :
    (e.dmaSlots pa n).rd a = e.rd a := by
  unfold Engine.dmaSlots
  split
  · refine Engine.rd_wr_other _ _ (show a ≠ CORE_DMA_SLOTS _ from ?_)
    unfold CORE_DMA_SLOTS
    omega
  · rfl

theorem Engine.accessFault_dma (e : Engine) (t va pa kind : Nat) (write : Bool) (agent hm : Nat) :
    (e.accessFault t va pa kind write agent hm).dma = e.dma := by
  unfold Engine.accessFault
  refine (Engine.raiseT_dma _ _ _).trans ?_
  split
  · exact Engine.count_dma _ _ _
  · iterate 6 refine (Engine.wr_dma _ _ _).trans ?_
    rfl

theorem Engine.dmaHalt_recorded_dma (e : Engine) (k kind va pa : Nat) (write : Bool) :
    (e.dmaHalt k kind va pa write true).dma = e.dma := by
  unfold Engine.dmaHalt
  refine (Engine.raiseT_dma _ _ _).trans ?_
  rw [Engine.setDmaState_dma, Engine.put_dma, if_pos rfl, Engine.accessFault_dma]

theorem Engine.dmaResidue_dma (e : Engine) (k src dst bytes rows : Nat) :
    (e.dmaResidue k src dst bytes rows).dma = e.dma :=
  (Engine.wr_dma _ _ _).trans ((Engine.wr_dma _ _ _).trans (Engine.wr_dma _ _ _))

theorem Engine.dmaResidue_mem (e : Engine) (k src dst bytes rows : Nat) :
    (e.dmaResidue k src dst bytes rows).mem = e.mem :=
  (Engine.wr_mem _ _ _).trans ((Engine.wr_mem _ _ _).trans (Engine.wr_mem _ _ _))

theorem Engine.dmaResidueAt_dma (e : Engine) (k r i : Nat) : (e.dmaResidueAt k r i).dma = e.dma := by
  dsimp only [Engine.dmaResidueAt]
  split <;> exact Engine.dmaResidue_dma _ _ _ _ _ _

theorem Engine.dmaResidueAt_mem (e : Engine) (k r i : Nat) : (e.dmaResidueAt k r i).mem = e.mem := by
  dsimp only [Engine.dmaResidueAt]
  split <;> exact Engine.dmaResidue_mem _ _ _ _ _ _

/-- The residue's registers are not CUR, which names the descriptor. -/
theorem Engine.rd_dmaNoResidue_cur (e : Engine) (k : Nat) :
    (e.dmaNoResidue k).rd (DMA_CH_CUR (k / 2) (k % 2)) = e.rd (DMA_CH_CUR (k / 2) (k % 2)) := by
  have hsrc : DMA_CH_CUR (k / 2) (k % 2) ≠ DMA_CH_SRC (k / 2) (k % 2) := by
    unfold DMA_CH_CUR DMA_CH_SRC
    omega
  have hdst : DMA_CH_CUR (k / 2) (k % 2) ≠ DMA_CH_DST (k / 2) (k % 2) := by
    unfold DMA_CH_CUR DMA_CH_DST
    omega
  have hleft : DMA_CH_CUR (k / 2) (k % 2) ≠ DMA_CH_LEFT (k / 2) (k % 2) := by
    unfold DMA_CH_CUR DMA_CH_LEFT
    omega
  exact (Engine.rd_wr_other _ _ hleft).trans ((Engine.rd_wr_other _ _ hdst).trans (Engine.rd_wr_other _ _ hsrc))

end Frames

/-! ### Words in memory (R188, R318, R328) -/

section Memory

variable {e f : Engine}

theorem Engine.ldWs_congr (h : e.mem = f.mem) (n : Nat) : ∀ a, e.ldWs a n = f.ldWs a n := by
  induction n with
  | zero => exact fun _ => rfl
  | succ n ih => exact fun a => by rw [Engine.ldWs, Engine.ldWs, Engine.ldW_congr h, ih]

theorem Engine.stB_mem_congr (h : e.mem = f.mem) (a : Nat) (v : Byte) : (e.stB a v).mem = (f.stB a v).mem :=
  congrArg (fun m => Tbl.setF memDefault m a v) h

theorem Engine.stWs_mem_congr (ws : List Word) :
    ∀ {e f : Engine}, e.mem = f.mem → ∀ a, (e.stWs a ws).mem = (f.stWs a ws).mem := by
  induction ws with
  | nil => exact fun h _ => h
  | cons w ws ih =>
    exact fun h a => ih (Engine.stB_mem_congr (Engine.stB_mem_congr (Engine.stB_mem_congr
      (Engine.stB_mem_congr h _ _) _ _) _ _) _ _) (a + 4)

theorem Engine.stWs_dma (ws : List Word) : ∀ (e : Engine) (a : Nat), (e.stWs a ws).dma = e.dma := by
  induction ws with
  | nil => exact fun _ _ => rfl
  | cons w ws ih => exact fun e a => ih (e.stW a w) (a + 4)

/-- Clearing reservations changes cores only (R188). -/
theorem Engine.clearResv_shape (e : Engine) (who : Option Nat) (a len : Nat) :
    ∃ cs, e.clearResv who a len = { e with core := cs } := by
  refine List.foldlRecOn (motive := fun e' : Engine => ∃ cs, e' = { e with core := cs }) _ _ ⟨e.core, rfl⟩ ?_
  rintro _ ⟨cs, rfl⟩ c -
  split
  · split <;> exact ⟨_, rfl⟩
  · exact ⟨_, rfl⟩

theorem Engine.memWrite_mem (e : Engine) (who : Option Nat) (a : Nat) (ws : List Word) :
    (e.memWrite who a ws).mem = (e.stWs a ws).mem := by
  obtain ⟨cs, h⟩ := e.clearResv_shape who a (4 * ws.length)
  rw [Engine.memWrite, h]
  exact Engine.stWs_mem_congr (e := { e with core := cs }) (f := e) ws rfl a

theorem Engine.memWrite_dma (e : Engine) (who : Option Nat) (a : Nat) (ws : List Word) :
    (e.memWrite who a ws).dma = e.dma := by
  obtain ⟨cs, h⟩ := e.clearResv_shape who a (4 * ws.length)
  rw [Engine.memWrite, h, Engine.stWs_dma]

end Memory

/-! ### Commands (R332, R334) -/

section Writes

variable {e : Engine} {by_ : Sender} {k : Nat}

theorem Engine.setDmaState_active (e : Engine) (k : Nat) {st : Nat} (h : st ≠ dIdle) :
    e.setDmaState k st = (e.put (DMA_CH_STATUS_STATE (k / 2) (k % 2)) st).put ⟨DMA_ACTIVE, k, 1⟩ 1 := by
  rw [Engine.setDmaState, if_neg h]

theorem Engine.setDmaState_idle (e : Engine) (k : Nat) :
    e.setDmaState k dIdle = (e.put (DMA_CH_STATUS_STATE (k / 2) (k % 2)) dIdle).put ⟨DMA_ACTIVE, k, 1⟩ 0 := by
  rw [Engine.setDmaState, if_pos rfl]

theorem Engine.dmaCmd_notAdmitted (h : dmaAdmits k by_ = false) (v : Word) :
    e.dmaCmd k by_ v = e.dmaRefuse k by_ 1 := if_pos h

/-- An admitted writer's command is the first bit set in the order ABORT, START, RESUME. -/
theorem Engine.dmaCmd_admitted (h : dmaAdmits k by_ = true) (v : Word) :
    e.dmaCmd k by_ v = if bitOf v 2 then e.dmaAbort k else if bitOf v 0 then e.dmaStart k by_
      else if bitOf v 1 then e.dmaResume k by_ else e := if_neg (ne_false_of_eq_true h)

theorem Engine.dmaCmd_start (h : dmaAdmits k by_ = true) : e.dmaCmd k by_ 1#32 = e.dmaStart k by_ := by
  rw [Engine.dmaCmd_admitted h, if_neg (by decide), if_pos (by decide)]

theorem Engine.dmaCmd_resume (h : dmaAdmits k by_ = true) : e.dmaCmd k by_ 2#32 = e.dmaResume k by_ := by
  rw [Engine.dmaCmd_admitted h, if_neg (by decide), if_neg (by decide), if_pos (by decide)]

theorem Engine.dmaCmd_abort (h : dmaAdmits k by_ = true) : e.dmaCmd k by_ 4#32 = e.dmaAbort k := by
  rw [Engine.dmaCmd_admitted h, if_pos (by decide)]

/-- The channel's status as START leaves it: DESC is current, DONE and KIND are zero. -/
def Engine.dmaBegin (e : Engine) (k : Nat) : Engine :=
  ((e.wr (DMA_CH_CUR (k / 2) (k % 2)) (e.rd (DMA_CH_DESC (k / 2) (k % 2)))).put
    (DMA_CH_STATUS_DONE (k / 2) (k % 2)) 0).put (DMA_CH_STATUS_KIND (k / 2) (k % 2)) 0

theorem Engine.dmaCh_dmaBegin (e : Engine) (k : Nat) : (e.dmaBegin k).dmaCh k = e.dmaCh k :=
  Engine.dmaCh_congr ((Engine.put_dma _ _ _).trans ((Engine.put_dma _ _ _).trans (Engine.wr_dma _ _ _))) k

theorem Engine.dmaStart_taken (h : e.dmaState k = dIdle ∨ e.dmaState k = dHalted) :
    e.dmaStart k by_ = (((e.dmaBegin k).dmaNoResidue k).setDmaCh k
      { hm := dmaHm k by_, nb := (e.dmaCh k).nb }).setDmaState k dFetch := by
  rw [← Engine.dmaCh_dmaBegin e k]
  exact if_pos h

theorem Engine.dmaStart_refused (hi : e.dmaState k ≠ dIdle) (hh : e.dmaState k ≠ dHalted) :
    e.dmaStart k by_ = e.dmaRefuse k by_ 2 := if_neg (not_or.mpr ⟨hi, hh⟩)

theorem Engine.dmaResume_refused (hh : e.dmaState k ≠ dHalted) : e.dmaResume k by_ = e.dmaRefuse k by_ 2 :=
  if_neg hh

/-- The channel's hidden state and KIND as RESUME leaves them (R333). -/
def Engine.dmaRehallmark (e : Engine) (k : Nat) (by_ : Sender) : Engine :=
  (e.updDmaCh k fun x => { x with hm := dmaHm k by_ }).put (DMA_CH_STATUS_KIND (k / 2) (k % 2)) 0

theorem Engine.dmaRehallmark_desc (e : Engine) (k : Nat) (by_ : Sender) :
    ((e.dmaRehallmark k by_).dmaCh k).desc = (e.dmaCh k).desc := by
  rw [Engine.dmaRehallmark, Engine.dmaCh_congr (Engine.put_dma _ _ _), Engine.dmaCh_updDmaCh_same]

/-- A halted channel with a descriptor moves on. -/
theorem Engine.dmaResume_taken (hh : e.dmaState k = dHalted) (hd : (e.dmaCh k).desc ≠ []) :
    e.dmaResume k by_ = (e.dmaRehallmark k by_).setDmaState k dMove := by
  have hne : ((e.dmaRehallmark k by_).dmaCh k).desc.isEmpty ≠ true := by
    rwa [Engine.dmaRehallmark_desc, ne_eq, List.isEmpty_iff]
  have hst : (if ((e.dmaRehallmark k by_).dmaCh k).desc.isEmpty then dFetch else dMove) = dMove := if_neg hne
  rw [← hst]
  exact if_pos hh

theorem Engine.dmaAbort_idle (hq : (e.dmaCh k).queue = []) :
    e.dmaAbort k = (e.updDmaCh k fun x => { x with fetch := false, desc := [] }).setDmaState k dIdle :=
  if_pos (List.isEmpty_iff.mpr hq)

theorem Engine.dmaAbort_underWay (hq : (e.dmaCh k).queue ≠ []) :
    e.dmaAbort k = e.updDmaCh k fun x => { x with abort := true } :=
  if_neg (mt List.isEmpty_iff.mp hq)

end Writes

/-! ### Fetches (R318, R323, R331) -/

section Fetch

variable {e : Engine} {k pa : Nat} {ns : Bool} {ws : List Word}

/-- The channel with a fetched descriptor, at its first byte. -/
def DmaCh.withDesc (x : DmaCh) (ws : List Word) : DmaCh :=
  { x with desc := ws, fetch := false, row := 0, off := 0, queue := [], banks := [], left := [] }

theorem DmaCh.ycnt_pos_of_descOk {x : DmaCh} (h : x.descOk = true) : 1 ≤ x.ycnt := by
  simp only [DmaCh.descOk, Bool.and_eq_true, decide_eq_true_eq] at h
  obtain ⟨⟨⟨⟨⟨⟨⟨-, hrows⟩, -⟩, -⟩, -⟩, -⟩, -⟩, -⟩ := h
  exact hrows

/-- The residue at the first byte is the whole descriptor. -/
theorem Engine.dmaResidueAt_first {y : DmaCh} (hy : e.dmaCh k = y) (hpos : 1 ≤ y.ycnt) :
    e.dmaResidueAt k 0 0 = e.dmaResidue k (y.at_ 0 0 0).1 (y.at_ 1 0 0).1 y.xlen y.ycnt := by
  subst hy
  exact if_neg (Nat.not_le.mpr hpos)

/-- A descriptor that passes the checks and releases nothing begins its move (R331). -/
theorem Engine.dmaDesc_taken {y : DmaCh} (hy : (e.dmaCh k).withDesc ws = y) (hok : y.descOk = true)
    (hrel : y.f 5 4 1 = 0) (pa : Nat) :
    e.dmaDesc k ws pa = ((e.setDmaCh k y).setDmaState k dMove).dmaResidue k (y.at_ 0 0 0).1 (y.at_ 1 0 0).1
      y.xlen y.ycnt := by
  have hchecks : (y.descOk && e.dmaRelOk k y) = true := by
    rw [Engine.dmaRelOk, hok, hrel]
    rfl
  have hch : ((e.setDmaCh k y).setDmaState k dMove).dmaCh k = y :=
    (Engine.dmaCh_congr (Engine.setDmaState_dma _ _ _) k).trans (Engine.dmaCh_setDmaCh_same e k y)
  rw [← Engine.dmaResidueAt_first hch (DmaCh.ycnt_pos_of_descOk hok)]
  subst hy
  exact if_pos hchecks

theorem Engine.dmaDesc_refused (hok : ((e.dmaCh k).withDesc ws).descOk = false) (pa : Nat) :
    e.dmaDesc k ws pa = e.dmaFetchFault k kDesc pa :=
  if_neg fun h => ne_true_of_eq_false hok (Bool.and_eq_true_iff.mp h).1

/-- A fetch that fails halts the channel, with no residue, at the address CUR holds. -/
theorem Engine.dmaFetchFault_eq (e : Engine) (k kind pa : Nat) :
    e.dmaFetchFault k kind pa = ((e.dmaNoResidue k).updDmaCh k fun x => { x with fetch := false, desc := [] }).dmaHalt k
      kind (e.rd (DMA_CH_CUR (k / 2) (k % 2))).toNat pa false true := by
  rw [← Engine.rd_dmaNoResidue_cur e k]
  rfl

/-- The engine after channel `k`'s read of a descriptor at `pa`: granted, its slots counted. -/
def Engine.dmaFetched (e : Engine) (k pa : Nat) : Engine := (e.dmaGranted k).dmaSlots pa 8

theorem Engine.dmaCh_dmaFetched (e : Engine) (k pa : Nat) :
    (e.dmaFetched k pa).dmaCh k = { e.dmaCh k with starved := false } := by
  rw [Engine.dmaFetched, Engine.dmaCh_congr (Engine.dmaSlots_dma _ _ _), Engine.dmaGranted,
    Engine.dmaCh_updDmaCh_same]

theorem Engine.rd_dmaFetched_cur {k : Nat} (hk : k < 32) (e : Engine) (pa : Nat) :
    (e.dmaFetched k pa).rd (DMA_CH_CUR (k / 2) (k % 2)) = e.rd (DMA_CH_CUR (k / 2) (k % 2)) := by
  have hlow : DMA_CH_CUR (k / 2) (k % 2) < 0x40200000 := by
    unfold DMA_CH_CUR
    omega
  exact Engine.rd_dmaSlots_low (e.dmaGranted k) pa 8 hlow

/-- The eight words are read from memory in one access (R318). -/
theorem Engine.dmaFetch_memory (hst : e.dmaState k = dFetch) (hf : (e.dmaCh k).fetch = false)
    (hend : e.dmaEnd k (e.rd (DMA_CH_CUR (k / 2) (k % 2))).toNat 8 false = (.go pa false ns, e))
    (hm : isMemAddr pa = true) : e.dmaFetch k = (e.dmaFetched k pa).dmaDesc k (e.ldWs pa 8) pa := by
  have hread : e.dmaRead k pa 8 = (e.ldWs pa 8, e.dmaFetched k pa) := if_pos hm
  simp only [Engine.dmaFetch, hst, hf, hend, hread, true_or, if_true, Bool.false_eq_true, if_false]

theorem Engine.dmaHostFetch_words (hf : (e.dmaCh k).fetch = true) (hl : ws.length = 8)
    (hfw : e.forwarding = false) :
    e.dmaHostFetch k (.ok ws) = (e.updDmaCh k fun x => { x with nb := x.nb + 1 }).dmaDesc k ws 0 := by
  have hsend : e.hostdataSend k (e.dmaCh k).nb ws = e := if_neg (ne_true_of_eq_false hfw)
  simp only [Engine.dmaHostFetch, hf, hl, hsend, if_true]

theorem Engine.dmaHostFetch_fault (hf : (e.dmaCh k).fetch = true) (kind : Nat) :
    e.dmaHostFetch k (.error kind) = e.dmaFetchFault k kind 0 := if_pos hf

end Fetch

/-! ### The burst at the front (R328, R335) -/

section Burst

variable {e : Engine} {k : Nat} {q : DmaRd} {ws : List Word}

/-- A channel that may not issue only writes what has been read. -/
theorem Engine.dmaBurst_settles (hs : e.isStandby = false) (hi : e.dmaMayIssue k = false) :
    e.dmaBurst k = e.dmaSettle k := by
  have hhost : e.dmaHostdata k = e := if_neg (ne_true_of_eq_false hs)
  simp only [Engine.dmaBurst, hhost, hi, Bool.false_eq_true, if_false]

theorem Engine.dmaSettle_one (hq : (e.dmaCh k).queue = [q]) (ha : ((e.dmaFront k q).dmaCh k).abort = false) :
    e.dmaSettle k = e.dmaFront k q := by
  have hdrain : e.dmaDrain k (e.dmaCh k).queue.length = e.dmaFront k q := by
    simp only [hq, List.length_singleton, Engine.dmaDrain]
  simp only [Engine.dmaSettle, hdrain, ha, Bool.false_and, Bool.false_eq_true, if_false]

/-- The channel that burst `q` halts: the burst is its next again, and its banks are incomplete. -/
def DmaCh.haltedAt (x : DmaCh) (q : DmaRd) : DmaCh :=
  { x with queue := [], row := x.ycnt - q.rows, off := x.xlen - q.bytes
           left := x.left ++ x.banks.filter fun b => !x.left.contains b }

/-- The engine as the burst `q` leaves it for the halt: its residue and the banks left incomplete. -/
def Engine.dmaStopAt (e : Engine) (k : Nat) (q : DmaRd) : Engine :=
  ((e.dmaResidue k q.src q.dst q.bytes q.rows).updSafe fun y =>
    { y with inc := y.inc ++ (e.dmaCh k).banks.filter fun b => !(e.dmaCh k).left.contains b }).setDmaCh k
      ((e.dmaCh k).haltedAt q)

theorem Engine.dmaFront_fault {kind va pa : Nat} {w : Bool} (hf : q.fault = some (kind, va, pa, w))
    (ha : (e.dmaCh k).abort = false) :
    e.dmaFront k q = (e.dmaStopAt k q).dmaHalt k kind va pa w true := by
  simp only [Engine.dmaFront, hf, Engine.dmaBurstFault, Engine.dmaStopAt, DmaCh.haltedAt, ha, Bool.false_eq_true,
    if_false]

theorem Engine.dmaFront_fault_abort {kind va pa : Nat} {w : Bool} (hf : q.fault = some (kind, va, pa, w))
    (ha : (e.dmaCh k).abort = false) : ((e.dmaFront k q).dmaCh k).abort = false := by
  rw [Engine.dmaFront_fault hf ha, Engine.dmaCh_congr (Engine.dmaHalt_recorded_dma _ _ _ _ _ _),
    Engine.dmaStopAt, Engine.dmaCh_setDmaCh_same]
  exact ha

/-- A burst with a fault halts a channel that issues no other (R335). -/
theorem Engine.dmaBurst_fault (hs : e.isStandby = false) (hi : e.dmaMayIssue k = false) (hq : (e.dmaCh k).queue = [q])
    (ha : (e.dmaCh k).abort = false) {kind va pa : Nat} {w : Bool} (hf : q.fault = some (kind, va, pa, w)) :
    e.dmaBurst k = (e.dmaStopAt k q).dmaHalt k kind va pa w true :=
  (Engine.dmaBurst_settles hs hi).trans
    ((Engine.dmaSettle_one hq (Engine.dmaFront_fault_abort hf ha)).trans (Engine.dmaFront_fault hf ha))

/-- A burst with data whose target admits it is written (R328). -/
theorem Engine.dmaFront_data {pa : Nat} {h ns : Bool} (hf : q.fault = none) (hd : q.data = some ws)
    (hh : q.dhost = false) (hp : e.dmaPhys k q.dpa q.words true = (.go pa h ns, e)) :
    e.dmaFront k q = (e.setDmaState k dMove).dmaPut k q ws := by
  simp only [Engine.dmaFront, hf, hd, hh, hp, Bool.false_eq_true, if_false]

theorem Engine.dmaWrite_memory (hh : q.dhost = false) (hm : isMemAddr q.dpa = true) (hw : ws ≠ []) :
    e.dmaWrite k q 0 ws = (e.memWrite none q.dpa ws).dmaSlots q.dpa ws.length := by
  simp only [Engine.dmaWrite, List.isEmpty_eq_false_iff.mpr hw, hh, Nat.mul_zero, Nat.add_zero, hm,
    Bool.false_eq_true, if_false, if_true]

/-- An unpaired move writes its words as one run, takes the burst off the queue and shows the new
residue. -/
theorem Engine.dmaPut_unpaired (q : DmaRd) (ws : List Word) (hp : (e.dmaCh k).paired = false) : ∃ n r i, ∃ banks : DmaCh → List Nat,
    e.dmaPut k q ws = ((((e.dmaGranted k).dmaWrite k q 0 ws).count ⟨DMA_CH_BYTES (k / 2) (k % 2), 0, 32⟩ n).updDmaCh k
      fun x => { x with queue := x.queue.drop 1, banks := banks x }).dmaResidueAt k r i := by
  simp only [Engine.dmaPut, hp, Bool.false_eq_true, if_false, if_true, List.foldl_cons, List.foldl_nil]
  exact ⟨_, _, _, fun x => _, rfl⟩

theorem Engine.dmaPut_memory (hp : (e.dmaCh k).paired = false) (hh : q.dhost = false)
    (hm : isMemAddr q.dpa = true) (hw : ws ≠ []) :
    (e.dmaPut k q ws).mem = (e.stWs q.dpa ws).mem ∧
      ((e.dmaPut k q ws).dmaCh k).queue = (e.dmaCh k).queue.drop 1 ∧
      ((e.dmaPut k q ws).dmaCh k).abort = (e.dmaCh k).abort := by
  obtain ⟨n, r, i, banks, hput⟩ := Engine.dmaPut_unpaired q ws hp
  rw [Engine.dmaWrite_memory hh hm hw] at hput
  have hmem : (e.dmaPut k q ws).mem = (e.stWs q.dpa ws).mem := by
    rw [hput, Engine.dmaResidueAt_mem, Engine.updDmaCh_mem, Engine.count_mem, Engine.dmaSlots_mem, Engine.memWrite_mem]
    exact Engine.stWs_mem_congr (e := e.dmaGranted k) (f := e) ws rfl q.dpa
  have hch : (e.dmaPut k q ws).dmaCh k =
      { e.dmaCh k with queue := (e.dmaCh k).queue.drop 1, banks := banks { e.dmaCh k with starved := false }, starved := false } := by
    rw [hput, Engine.dmaCh_congr (Engine.dmaResidueAt_dma _ _ _ _), Engine.dmaCh_updDmaCh_same,
      Engine.dmaCh_congr (Engine.count_dma _ _ _), Engine.dmaCh_congr (Engine.dmaSlots_dma _ _ _),
      Engine.dmaCh_congr (Engine.memWrite_dma _ _ _ _), Engine.dmaGranted, Engine.dmaCh_updDmaCh_same]
  exact ⟨hmem, by rw [hch], by rw [hch]⟩

end Burst

/-! ### Completion (R330, R339) -/

section Completion

variable {e : Engine} {k : Nat}

theorem Engine.dmaComplete_iff : e.dmaComplete k = true ↔ e.dmaState k = dMove ∧ (e.dmaCh k).desc ≠ [] ∧
    (e.dmaCh k).queue = [] ∧ (e.dmaCh k).abort = false ∧ (e.dmaCh k).ycnt ≤ (e.dmaCh k).row := by
  simp only [Engine.dmaComplete, Bool.and_eq_true, decide_eq_true_eq, Bool.not_eq_true', List.isEmpty_iff,
    List.isEmpty_eq_false_iff, and_assoc, ne_eq]

/-- The completed descriptor is counted, its banks are whole again and it is the channel's no more. -/
def Engine.dmaRetire (e : Engine) (k : Nat) : Engine :=
  (((e.wrap (DMA_CH_STATUS_DONE (k / 2) (k % 2))).updSafe fun y =>
    { y with inc := y.inc.filter fun b => !(e.dmaCh k).left.contains b }).updXlat fun y =>
    { y with posted := y.posted.map fun w => if w.agent = 0x20 + k then { w with rows := 0 } else w }).setDmaCh k
      { e.dmaCh k with desc := [], banks := [], left := [] }

/-- The completed descriptor raises DMA_DONE when its NOTIFY asks (R330). -/
def Engine.dmaNotify (e : Engine) (k : Nat) : Engine :=
  if (e.dmaCh k).f 5 3 1 = 1 then
    (e.dmaRetire k).dmaEvt 0x01 .note k (e.dmaCh k).hm k (e.rd (DMA_CH_CUR (k / 2) (k % 2))).toNat
  else e.dmaRetire k

/-- A complete descriptor without release is followed by NEXT or leaves the channel IDLE. -/
theorem Engine.dmaDone_complete (hc : e.dmaComplete k = true) (hrel : (e.dmaCh k).f 5 4 1 = 0) :
    e.dmaDone k = if (e.dmaCh k).f 5 0 1 = 1 then
      ((e.dmaNotify k).wr (DMA_CH_CUR (k / 2) (k % 2)) (BitVec.ofNat 32 ((e.dmaCh k).f 4 0 32))).setDmaState k dFetch
    else (e.dmaNotify k).setDmaState k dIdle := by
  have hnone : ¬ (e.dmaCh k).f 5 4 1 = 1 := by
    rw [hrel]
    decide
  simp only [Engine.dmaDone, hc, if_true, if_neg hnone, Engine.dmaNotify, Engine.dmaRetire]

theorem Engine.dmaDone_chained (hc : e.dmaComplete k = true) (hrel : (e.dmaCh k).f 5 4 1 = 0)
    (hn : (e.dmaCh k).f 5 0 1 = 1) : e.dmaDone k =
      ((e.dmaNotify k).wr (DMA_CH_CUR (k / 2) (k % 2)) (BitVec.ofNat 32 ((e.dmaCh k).f 4 0 32))).setDmaState k dFetch :=
  (Engine.dmaDone_complete hc hrel).trans (if_pos hn)

theorem Engine.dmaDone_last (hc : e.dmaComplete k = true) (hrel : (e.dmaCh k).f 5 4 1 = 0)
    (hn : (e.dmaCh k).f 5 0 1 ≠ 1) : e.dmaDone k = (e.dmaNotify k).setDmaState k dIdle :=
  (Engine.dmaDone_complete hc hrel).trans (if_neg hn)

end Completion

/-! ### The commands, where the channel takes them at once -/

section Commands

variable {s : State} {by_ : Sender} {k : Nat} {g : Engine → Engine}

theorem exec_dmaStart_does (hs : s.awake = true) (hb : s.eng.direct by_ (DMA_CH_CMD (k / 2) (k % 2)) = true)
    (h : s.eng.dmaCmd k by_ 1#32 = g s.eng) : exec (.dmaStart by_ k) s = s.does g := by
  rw [exec_dmaStart, execDmaStart, State.eff_row hb]
  exact State.eff_eq_does hs h

theorem exec_dmaResume_does (hs : s.awake = true) (hb : s.eng.direct by_ (DMA_CH_CMD (k / 2) (k % 2)) = true)
    (h : s.eng.dmaCmd k by_ 2#32 = g s.eng) : exec (.dmaResume by_ k) s = s.does g := by
  rw [exec_dmaResume, execDmaResume, State.eff_row hb]
  exact State.eff_eq_does hs h

theorem exec_dmaAbort_does (hs : s.awake = true) (hb : s.eng.direct by_ (DMA_CH_CMD (k / 2) (k % 2)) = true)
    (h : s.eng.dmaCmd k by_ 4#32 = g s.eng) : exec (.dmaAbort by_ k) s = s.does g := by
  rw [exec_dmaAbort, execDmaAbort, State.eff_row hb]
  exact State.eff_eq_does hs h

theorem exec_dmaDescFetch_does (hs : s.awake = true) (hk : k < 32) (h : s.eng.dmaFetch k = g s.eng) :
    exec (.dmaDescFetch k) s = s.does g := by
  rw [exec_dmaDescFetch, execDmaDescFetch, Nat.mod_eq_of_lt hk]
  exact State.eff_eq_does hs h

theorem exec_dmaBurst_does (hs : s.awake = true) (hk : k < 32) (h : s.eng.dmaBurst k = g s.eng) :
    exec (.dmaBurst k) s = s.does g := by
  rw [exec_dmaBurst, execDmaBurst, Nat.mod_eq_of_lt hk]
  exact State.eff_eq_does hs h

theorem exec_dmaDescComplete_does (hs : s.awake = true) (hk : k < 32) (h : s.eng.dmaDone k = g s.eng) :
    exec (.dmaDescComplete k) s = s.does g := by
  rw [exec_dmaDescComplete, execDmaDescComplete, Nat.mod_eq_of_lt hk]
  exact State.eff_eq_does hs h

/-- A completion with words ends the fetch they were read for. -/
theorem exec_hostReadCompletion_fetch (hs : s.awake = true) (hk : k < 32) {ws : List Word}
    (h : s.eng.dmaHostFetch k (.ok ws) = g s.eng) :
    exec (.hostReadCompletion (.fetch k) (some ws)) s = s.does g := by
  rw [← Nat.mod_eq_of_lt hk] at h
  exact State.eff_eq_does hs h

/-- An unsuccessful completion is a HOSTERR. -/
theorem exec_hostReadCompletion_failed (hs : s.awake = true) (hk : k < 32)
    (h : s.eng.dmaHostFetch k (.error kHosterr) = g s.eng) :
    exec (.hostReadCompletion (.fetch k) none) s = s.does g := by
  rw [← Nat.mod_eq_of_lt hk] at h
  exact State.eff_eq_does hs h

theorem exec_hostReadTimeout_fetch (hs : s.awake = true) (hk : k < 32)
    (h : s.eng.dmaHostFetch k (.error kHosttmo) = g s.eng) :
    exec (.hostReadTimeout (.fetch k)) s = s.does g := by
  rw [← Nat.mod_eq_of_lt hk] at h
  exact State.eff_eq_does hs h

/-- A burst with data whose target in memory admits it is written and leaves the queue. -/
theorem exec_dmaBurst_memory (hs : s.awake = true) (hk : k < 32) {q : DmaRd} (hq : (s.eng.dmaCh k).queue = [q])
    (ha : (s.eng.dmaCh k).abort = false) (hst : s.eng.isStandby = false) (hi : s.eng.dmaMayIssue k = false)
    {ws : List Word} {pa : Nat} {h ns : Bool} (hf : q.fault = none) (hd : q.data = some ws)
    (hp : (s.eng.dmaCh k).paired = false) (hh : q.dhost = false) (hm : isMemAddr q.dpa = true) (hw : ws ≠ [])
    (hphys : s.eng.dmaPhys k q.dpa q.words true = (.go pa h ns, s.eng)) :
    ∃ u, exec (.dmaBurst k) s = .next u ∧ (u.eng.dmaCh k).queue = [] ∧ u.eng.mem = (s.eng.stWs q.dpa ws).mem := by
  have hch : (s.eng.setDmaState k dMove).dmaCh k = s.eng.dmaCh k :=
    Engine.dmaCh_congr (Engine.setDmaState_dma _ _ _) k
  obtain ⟨hmem, hqueue, habort⟩ := Engine.dmaPut_memory (e := s.eng.setDmaState k dMove) (k := k)
    (by rw [hch, hp]) hh hm hw
  rw [hch, hq] at hqueue
  rw [hch, ha] at habort
  have hfront : s.eng.dmaFront k q = (s.eng.setDmaState k dMove).dmaPut k q ws :=
    Engine.dmaFront_data hf hd hh hphys
  have hburst : s.eng.dmaBurst k = (s.eng.setDmaState k dMove).dmaPut k q ws :=
    (Engine.dmaBurst_settles hst hi).trans ((Engine.dmaSettle_one hq (by rw [hfront, habort])).trans hfront)
  exact ⟨_, exec_dmaBurst_does (g := fun e => (e.setDmaState k dMove).dmaPut k q ws) hs hk hburst, hqueue,
    hmem.trans (Engine.stWs_mem_congr ws (Engine.setDmaState_mem _ _ _) q.dpa)⟩

end Commands

/-- Settles O33: the bounds are those of the length's seven limits, and each clause on a command is
the case of its rule that the hypotheses choose. -/
theorem dmaTransfers : Obligations.DmaTransfers := by
  unfold Obligations.DmaTransfers
  refine ⟨fun x r i _ _ => ?bounds, fun s by_ k hs hk => ?rules⟩
  case bounds =>
    obtain ⟨hmax, hrow, hblock, hsrc, hdst⟩ := x.burstLen_bounds r i
    exact ⟨hmax, hrow, hblock, hsrc, hdst, fun m hm => DmaCh.burstLen_le_ring hm⟩
  case rules =>
    intro e x t i st does refused bare active
    refine ⟨fun hb ha => ⟨?startNotOwned, ?resumeNotOwned, ?abortNotOwned⟩,
      fun hb ha => ⟨fun hst => ?start, fun hi hh => ?startBusy, fun hh hd => ?resume, fun hh => ?resumeNotHalted,
        fun hq => ?abortIdle, fun hq => ?abortUnderWay⟩,
      fun pa ns hst hf hend hm => ?fetch,
      fun q hq ha hsb hi => ⟨fun kind va pa w hf => ?burstFault,
        fun ws pa h ns hf hd hp hh hm hw hphys _ _ => ?burstWritten⟩,
      fun hst hd hq ha hrow hrel => ?complete,
      fun hf => ⟨fun ws hl hfw => ?hostWords, ?hostError, ?hostTimeout⟩⟩
    case startNotOwned => exact exec_dmaStart_does hs hb (Engine.dmaCmd_notAdmitted ha _)
    case resumeNotOwned => exact exec_dmaResume_does hs hb (Engine.dmaCmd_notAdmitted ha _)
    case abortNotOwned => exact exec_dmaAbort_does hs hb (Engine.dmaCmd_notAdmitted ha _)
    case start =>
      exact exec_dmaStart_does hs hb ((Engine.dmaCmd_start ha).trans ((Engine.dmaStart_taken hst).trans
        (Engine.setDmaState_active _ _ (by decide))))
    case startBusy => exact exec_dmaStart_does hs hb ((Engine.dmaCmd_start ha).trans (Engine.dmaStart_refused hi hh))
    case resume =>
      exact exec_dmaResume_does hs hb ((Engine.dmaCmd_resume ha).trans ((Engine.dmaResume_taken hh hd).trans
        (Engine.setDmaState_active _ _ (by decide))))
    case resumeNotHalted => exact exec_dmaResume_does hs hb ((Engine.dmaCmd_resume ha).trans (Engine.dmaResume_refused hh))
    case abortIdle =>
      exact exec_dmaAbort_does hs hb ((Engine.dmaCmd_abort ha).trans ((Engine.dmaAbort_idle hq).trans
        (Engine.setDmaState_idle _ _)))
    case abortUnderWay => exact exec_dmaAbort_does hs hb ((Engine.dmaCmd_abort ha).trans (Engine.dmaAbort_underWay hq))
    case fetch =>
      intro ws y g
      have hdesc : ((e.dmaFetched k pa).dmaCh k).withDesc ws = y := by
        rw [Engine.dmaCh_dmaFetched]
        rfl
      have hfetch : e.dmaFetch k = (e.dmaFetched k pa).dmaDesc k ws pa := Engine.dmaFetch_memory hst hf hend hm
      refine ⟨fun hok hrel => exec_dmaDescFetch_does hs hk (hfetch.trans ?taken),
        fun hok => exec_dmaDescFetch_does hs hk (hfetch.trans ?failed)⟩
      case taken =>
        rw [Engine.dmaDesc_taken hdesc hok hrel, Engine.setDmaState_active _ _ (by decide)]
        rfl
      case failed =>
        rw [Engine.dmaDesc_refused (hdesc ▸ hok), Engine.dmaFetchFault_eq, Engine.rd_dmaFetched_cur hk]
        rfl
    case burstFault => exact exec_dmaBurst_does hs hk (Engine.dmaBurst_fault hsb hi hq ha hf)
    case burstWritten => exact exec_dmaBurst_memory hs hk hq ha hsb hi hf hd hp hh hm hw hphys
    case complete =>
      intro d n
      have hc : e.dmaComplete k = true := Engine.dmaComplete_iff.mpr ⟨hst, hd, hq, ha, hrow⟩
      exact ⟨fun hn => exec_dmaDescComplete_does hs hk ((Engine.dmaDone_chained hc hrel hn).trans
          (Engine.setDmaState_active _ _ (by decide))),
        fun hn => exec_dmaDescComplete_does hs hk ((Engine.dmaDone_last hc hrel hn).trans (Engine.setDmaState_idle _ _))⟩
    case hostWords => exact exec_hostReadCompletion_fetch hs hk (Engine.dmaHostFetch_words hf hl hfw)
    case hostError => exact exec_hostReadCompletion_failed hs hk (Engine.dmaHostFetch_fault hf kHosterr)
    case hostTimeout => exact exec_hostReadTimeout_fetch hs hk (Engine.dmaHostFetch_fault hf kHosttmo)

end Sys2Proof.Machine

/-!
PROOFS. Mailboxes in QUEUE and BLOCK mode (R354 to R368, R375). A write to a direction is ignored,
refused or taken, and each clause of the statement is one case of what then happens.
-/
namespace Sys2Proof.Machine

/-! ### A direction of a mailbox -/

section Direction

variable (e : Engine) (t d : Nat)

@[simp] theorem Engine.mdir_setMdir (x : MbxDir) : (e.setMdir t d x).mdir t d = x := Tbl.get_set_same _ _ _ _

@[simp] theorem Engine.mdir_wr (a : Nat) (v : Word) : (e.wr a v).mdir t d = e.mdir t d := rfl

@[simp] theorem Engine.mBlock_setMdir (x : MbxDir) : (e.setMdir t d x).mBlock t d = e.mBlock t d := rfl

/-- The mode of a direction is a field of MBX_CFG. -/
theorem Engine.mBlock_congr {e f : Engine} (h : e.rd (MBX_CFG t) = f.rd (MBX_CFG t)) : e.mBlock t d = f.mBlock t d := by
  have hget {g : Fld} (hg : g.addr = MBX_CFG t) : e.get g = f.get g := by
    unfold Engine.get
    rw [hg, h]
  unfold Engine.mBlock Engine.on
  rw [hget rfl, hget rfl]

end Direction

/-! ### Who may write (R355, R365, R375, R376) -/

section Admission

variable {e : Engine} {by_ : Sender} {t d : Nat}

theorem Engine.mIgnored_enabled (h : e.on (MBX_CFG_EN t) = true) : e.mIgnored t by_ = false := by
  simp [Engine.mIgnored, h]

theorem Engine.mIgnored_disabled (h : e.on (MBX_CFG_EN t) = false) (hc : by_.isCC = false) : e.mIgnored t by_ = true := by
  simp [Engine.mIgnored, h, hc]

/-- A GO or WAKE with bit 0 set is no idle write. -/
theorem Engine.bitSet_not_ignored (hi : e.mIgnored t by_ = false) : ¬ (e.mIgnored t by_ = true ∨ bitOf 1#32 0 = false) := by
  simp [hi, bitOf]

theorem Engine.mRefused_unbound (h : e.mSender t d by_ = false) : e.mRefused t d by_ = some 1 := if_pos h

theorem Engine.mRefused_standby (h : e.mSender t 0 by_ = true) (hs : e.isStandby = true) (ho : hmOrigin by_.hm ≠ 3) :
    e.mRefused t 0 by_ = some 7 := by
  obtain ⟨hl, hr⟩ := Bool.and_eq_true_iff.mp hs
  simp [Engine.mRefused, h, hl, hr, ho]

/-- Outside the standby only a FULL block refuses the bound sender. -/
theorem Engine.mRefused_bound (h : e.mSender t d by_ = true) (hs : e.isStandby = false) :
    e.mRefused t d by_ = if e.mBlock t d && (e.mdir t d).blockFull then some 2 else none := by
  have hpair : ¬ (d = 0 ∧ e.lockstep = true ∧ e.on DUO_CTRL_ROLE = true ∧ hmOrigin by_.hm ≠ 3) := by
    rintro ⟨-, hl, hr, -⟩
    exact Bool.eq_false_iff.mp hs (Bool.and_eq_true_iff.mpr ⟨hl, hr⟩)
  simp only [Engine.mRefused, h, hpair, Bool.true_eq_false, if_false, Bool.and_eq_true]

theorem Engine.mRefused_full (h : e.mSender t d by_ = true) (hs : e.isStandby = false) (hb : e.mBlock t d = true)
    (hf : (e.mdir t d).blockFull = true) : e.mRefused t d by_ = some 2 := by
  rw [Engine.mRefused_bound h hs, hb, hf]
  rfl

theorem Engine.mRefused_none (h : e.mSender t d by_ = true) (hs : e.isStandby = false)
    (hf : e.mBlock t d = false ∨ (e.mdir t d).blockFull = false) : e.mRefused t d by_ = none := by
  rw [Engine.mRefused_bound h hs, if_neg]
  rcases hf with hf | hf <;> simp [hf]

end Admission

/-! ### Writes that are ignored or refused -/

section Refusals

variable {e : Engine} {by_ : Sender} {t d : Nat} {v : Word}

section Ignored

variable (hi : e.mIgnored t by_ = true)
include hi

theorem Engine.mbxHdr_ignored : e.mbxHdr t d by_ v = e := if_pos hi
theorem Engine.mbxHdrc_ignored : e.mbxHdrc t d by_ v = e := if_pos hi
theorem Engine.mbxData_ignored : e.mbxData t d by_ v = e := if_pos hi
theorem Engine.mbxGo_ignored : e.mbxGo t d by_ v = e := if_pos (.inl hi)

end Ignored

variable (hi : e.mIgnored t by_ = false) {r : Nat} (hr : e.mRefused t d by_ = some r)
include hi hr

theorem Engine.mbxHdr_refused : e.mbxHdr t d by_ v = e.mbxRefuse t by_ (0x100 + 0x100 * d) r := by
  simp only [Engine.mbxHdr, hi, hr, Bool.false_eq_true, if_false]

theorem Engine.mbxHdrc_refused : e.mbxHdrc t d by_ v = e.mbxRefuse t by_ (0x104 + 0x100 * d) r := by
  simp only [Engine.mbxHdrc, hi, hr, Bool.false_eq_true, if_false]

/-- A data word says of a FULL block what it says of any direction without an open message. -/
theorem Engine.mbxData_refused :
    e.mbxData t d by_ v = e.mbxRefuse t by_ (0x108 + 0x100 * d) (if r = 2 then 4 else r) := by
  simp only [Engine.mbxData, hi, hr, Bool.false_eq_true, if_false]

theorem Engine.mbxGo_refused : e.mbxGo t d by_ 1#32 = e.mbxRefuse t by_ (0x110 + 0x100 * d) r := by
  simp only [Engine.mbxGo, Engine.bitSet_not_ignored hi, hr, if_false]

end Refusals

/-! ### An accepted header pair (R357 to R359, R363) -/

section Header

variable {e : Engine} {by_ : Sender} {t d : Nat} {v c : Word}

/-- The pending header is taken. -/
def Engine.hdrTaken (e : Engine) (t d : Nat) : Engine := e.setMdir t d { e.mdir t d with pend := none }

/-- The complement's stamp: the complement of the hallmark in bits 31:24 (R357). -/
def stampHdrc (c : Word) (hm : Nat) : Word := setBits c 24 8 (255 - hm % 256)

/-- The pending header is taken and the registers hold the stamped pair. -/
def Engine.hdrKept (e : Engine) (t d : Nat) (by_ : Sender) (v c : Word) : Engine :=
  ((e.hdrTaken t d).wr (mHdr t d) (stampHdr v by_.hm)).wr (mHdrc t d) (stampHdrc c by_.hm)

@[simp] theorem Engine.mdir_hdrTaken : (e.hdrTaken t d).mdir t d = { e.mdir t d with pend := none } :=
  Engine.mdir_setMdir _ _ _ _

@[simp] theorem Engine.mdir_hdrKept : (e.hdrKept t d by_ v c).mdir t d = { e.mdir t d with pend := none } := by
  rw [Engine.hdrKept, Engine.mdir_wr, Engine.mdir_wr, Engine.mdir_hdrTaken]

theorem mHdr_ne_cfg (t d : Nat) : MBX_CFG t ≠ mHdr t d := by
  unfold MBX_CFG mHdr MBX_H2E_HDR
  omega

theorem mHdrc_ne_cfg (t d : Nat) : MBX_CFG t ≠ mHdrc t d := by
  unfold MBX_CFG mHdrc MBX_H2E_HDRC
  omega

/-- Keeping a header leaves the tenant's settings. -/
theorem Engine.mBlock_hdrKept : (e.hdrKept t d by_ v c).mBlock t d = e.mBlock t d := by
  have hrd : (e.hdrKept t d by_ v c).rd (MBX_CFG t) = (e.hdrTaken t d).rd (MBX_CFG t) := by
    rw [Engine.hdrKept, Engine.rd_wr_other _ _ (mHdrc_ne_cfg t d), Engine.rd_wr_other _ _ (mHdr_ne_cfg t d)]
  rw [Engine.mBlock_congr t d hrd, Engine.hdrTaken, Engine.mBlock_setMdir]

theorem Engine.mbxHeader_block (hb : e.mBlock t d = true) : e.mbxHeader t d by_ v c =
    (e.hdrKept t d by_ v c).setMdir t d { e.mdir t d with pend := none, accepted := some (stampHdr v by_.hm) } := by
  have h : e.mbxHeader t d by_ v c = (e.hdrKept t d by_ v c).setMdir t d
      { (e.hdrKept t d by_ v c).mdir t d with accepted := some (stampHdr v by_.hm) } := if_pos hb
  rw [h, Engine.mdir_hdrKept]

/-- A QUEUE header, its pending word taken and no message open: refused, or it opens a message,
which one of length 0 completes (R358, R359). -/
def Engine.hdrOpen (e : Engine) (t d : Nat) (by_ : Sender) (v c : Word) : Engine :=
  if 14 < bitsOf v 16 8 then e.mbxRefuse t by_ (0x104 + 0x100 * d) 5
  else if (e.mdir t d).free < bitsOf v 16 8 + 2 then e.mbxRefuse t by_ (0x104 + 0x100 * d) 3
  else
    let e' := ((e.wr (mHdr t d) (stampHdr v by_.hm)).wr (mHdrc t d) (stampHdrc c by_.hm)).setMdir t d { e.mdir t d with
      open_ := [stampHdr v by_.hm, stampHdrc c by_.hm], left := bitsOf v 16 8, isOpen := true }
    if bitsOf v 16 8 = 0 then e'.mFinish t d by_ else e'

/-- Accepting a header raises MBX_SPACE only in QUEUE mode where no word was free and one is now. -/
theorem Engine.mbxAccept_eq_header {f : Engine} (h : e.mbxHeader t d by_ v c = f)
    (hs : f.mBlock t d = true ∨ ((e.mdir t d).free = 0 → (f.mdir t d).free = 0)) : e.mbxAccept t d by_ v c = f := by
  subst h
  refine if_neg ?_
  rintro ⟨hb, h0, h1⟩
  exact hs.elim (ne_true_of_eq_false hb) fun h => h1 (h h0)

theorem Engine.mbxAccept_block (hb : e.mBlock t d = true) : e.mbxAccept t d by_ v c =
    (e.hdrKept t d by_ v c).setMdir t d { e.mdir t d with pend := none, accepted := some (stampHdr v by_.hm) } :=
  Engine.mbxAccept_eq_header (Engine.mbxHeader_block hb) (.inl (by rw [Engine.mBlock_setMdir, Engine.mBlock_hdrKept, hb]))

section Queue

variable (hb : e.mBlock t d = false) (ho : (e.mdir t d).isOpen = false)
include hb ho

theorem Engine.mbxHeader_queue : e.mbxHeader t d by_ v c = (e.hdrTaken t d).hdrOpen t d by_ v c :=
  (if_neg (ne_true_of_eq_false hb)).trans
    (congrArg (fun f => Engine.hdrOpen f t d by_ v c) (if_neg (ne_true_of_eq_false ho)))

/-- A refused header leaves the words free as they were. -/
theorem Engine.mbxAccept_refused {off r : Nat}
    (h : (e.hdrTaken t d).hdrOpen t d by_ v c = (e.hdrTaken t d).mbxRefuse t by_ off r) :
    e.mbxAccept t d by_ v c = (e.hdrTaken t d).mbxRefuse t by_ off r := by
  refine Engine.mbxAccept_eq_header ((Engine.mbxHeader_queue hb ho).trans h) (.inr fun h0 => ?_)
  show ((e.hdrTaken t d).mdir t d).free = 0
  rw [Engine.mdir_hdrTaken]
  exact h0

theorem Engine.mbxAccept_tooLong (hl : 14 < bitsOf v 16 8) :
    e.mbxAccept t d by_ v c = (e.hdrTaken t d).mbxRefuse t by_ (0x104 + 0x100 * d) 5 :=
  Engine.mbxAccept_refused hb ho (if_pos hl)

theorem Engine.mbxAccept_noSpace (hl : bitsOf v 16 8 ≤ 14) (hf : (e.mdir t d).free < bitsOf v 16 8 + 2) :
    e.mbxAccept t d by_ v c = (e.hdrTaken t d).mbxRefuse t by_ (0x104 + 0x100 * d) 3 := by
  refine Engine.mbxAccept_refused hb ho ((if_neg (Nat.not_lt.mpr hl)).trans (if_pos ?_))
  rw [Engine.mdir_hdrTaken]
  exact hf

theorem Engine.mbxAccept_opens (hl : bitsOf v 16 8 ≤ 14) (h0 : bitsOf v 16 8 ≠ 0)
    (hf : bitsOf v 16 8 + 2 ≤ (e.mdir t d).free) :
    e.mbxAccept t d by_ v c = (e.hdrKept t d by_ v c).setMdir t d { e.mdir t d with
      pend := none, open_ := [stampHdr v by_.hm, stampHdrc c by_.hm], left := bitsOf v 16 8, isOpen := true } := by
  have hfree : ¬ ((e.hdrTaken t d).mdir t d).free < bitsOf v 16 8 + 2 := by
    rw [Engine.mdir_hdrTaken]
    exact Nat.not_lt.mpr hf
  have hopen : (e.hdrTaken t d).hdrOpen t d by_ v c = (e.hdrKept t d by_ v c).setMdir t d
      { (e.hdrTaken t d).mdir t d with
        open_ := [stampHdr v by_.hm, stampHdrc c by_.hm], left := bitsOf v 16 8, isOpen := true } :=
    (if_neg (Nat.not_lt.mpr hl)).trans ((if_neg hfree).trans (if_neg h0))
  rw [Engine.mdir_hdrTaken] at hopen
  exact Engine.mbxAccept_eq_header ((Engine.mbxHeader_queue hb ho).trans hopen) (.inr fun hz => by omega)

end Queue

end Header

/-! ### A header and its complement (R357) -/

section Pair

variable {e : Engine} {by_ : Sender} {t d : Nat} {v : Word}

variable (hi : e.mIgnored t by_ = false) (hr : e.mRefused t d by_ = none)
include hi hr

theorem Engine.mbxHdr_taken : e.mbxHdr t d by_ v =
    e.setMdir t d { e.mdir t d with pend := some { val := v, hm := by_.hm, cyc := e.now } } := by
  simp only [Engine.mbxHdr, hi, hr, Bool.false_eq_true, if_false]

theorem Engine.mbxHdrc_alone (hp : (e.mdir t d).pend = none) :
    e.mbxHdrc t d by_ v = e.mHdrMismatch t d by_.hm 0#32 v := by
  simp only [Engine.mbxHdrc, hi, hr, hp, Bool.false_eq_true, if_false]

/-- The complement of the pending header by the same hallmark within 64 cycles accepts it. -/
theorem Engine.mbxHdrc_pending {p : CpPend} (hp : (e.mdir t d).pend = some p) : e.mbxHdrc t d by_ v =
    if p.hm ≠ by_.hm ∨ p.cyc + 64 ≤ e.now ∨ bitsOf (~~~ v) 0 24 ≠ bitsOf p.val 0 24 then
      e.mHdrMismatch t d by_.hm p.val v
    else e.mbxAccept t d by_ p.val v := by
  simp only [Engine.mbxHdrc, hi, hr, hp, Bool.false_eq_true, if_false]

end Pair

/-! ### Data words, and the message they finish (R359, R360, R366, R375) -/

section Data

variable {e : Engine} {by_ : Sender} {t d : Nat} {v : Word}

/-- The direction without its open message. -/
def MbxDir.closed (x : MbxDir) : MbxDir := { x with open_ := [], left := 0, isOpen := false }

/-- The direction with the message `ws` visible. -/
def MbxDir.shown (x : MbxDir) (ws : List Word) : MbxDir :=
  { x with fifo := x.fifo ++ ws, msgs := x.msgs ++ [ws.length] }

/-- A message for the host is visible at once: MBX_ARRIVED and vector 1. -/
theorem Engine.mComplete_e2h (ws : List Word) : e.mComplete t 1 ws by_ =
    ((e.setMdir t 1 ((e.mdir t 1).shown ws)).mbxEvt t 0x01 .note by_.hm 1 (ws.headD 0#32).toNat).vfVector t 1 := by
  simp only [Engine.mComplete, Engine.mArrived, Nat.one_ne_zero, false_and, if_false, if_true]
  rfl

theorem Engine.mFinish_e2h : e.mFinish t 1 by_ =
    (((e.setMdir t 1 (e.mdir t 1).closed).setMdir t 1 ((e.mdir t 1).closed.shown (e.mdir t 1).open_)).mbxEvt t 0x01 .note
      by_.hm 1 ((e.mdir t 1).open_.headD 0#32).toNat).vfVector t 1 := by
  have hvisible : e.mFinish t 1 by_ = (e.setMdir t 1 (e.mdir t 1).closed).mComplete t 1 (e.mdir t 1).open_ by_ := by
    simp only [Engine.mFinish, Nat.one_ne_zero, false_and, if_false]
    rfl
  rw [hvisible, Engine.mComplete_e2h, Engine.mdir_setMdir]

/-- The primary forwards a message of the host's and holds its words (R375). -/
theorem Engine.mFinish_forward (hf : e.forwarding = true) : e.mFinish t 0 by_ =
    (e.setMdir t 0 { (e.mdir t 0).closed with fwd := (e.mdir t 0).fwd + (e.mdir t 0).open_.length }).forward by_
      (.msg t (e.mdir t 0).open_) :=
  if_pos ⟨rfl, hf⟩

variable (hi : e.mIgnored t by_ = false) (hr : e.mRefused t d by_ = none)
include hi hr

theorem Engine.mbxData_closed (ho : (e.mdir t d).isOpen = false) :
    e.mbxData t d by_ v = e.mbxRefuse t by_ (0x108 + 0x100 * d) 4 := by
  simp only [Engine.mbxData, hi, hr, ho, Bool.false_eq_true, true_or, if_false, if_true]

/-- A word joins the open message, and the last one finishes it. -/
theorem Engine.mbxData_open (hb : e.mBlock t d = false) (ho : (e.mdir t d).isOpen = true) : e.mbxData t d by_ v =
    let e' := e.setMdir t d { e.mdir t d with open_ := (e.mdir t d).open_ ++ [v], left := (e.mdir t d).left - 1 }
    if (e.mdir t d).left ≤ 1 then e'.mFinish t d by_ else e' := by
  simp only [Engine.mbxData, hi, hr, hb, ho, Bool.false_eq_true, Bool.true_eq_false, or_self, if_false]

theorem Engine.mbxData_joins (hb : e.mBlock t d = false) (ho : (e.mdir t d).isOpen = true) (hl : 1 < (e.mdir t d).left) :
    e.mbxData t d by_ v =
      e.setMdir t d { e.mdir t d with open_ := (e.mdir t d).open_ ++ [v], left := (e.mdir t d).left - 1 } :=
  (Engine.mbxData_open hi hr hb ho).trans (if_neg (Nat.not_le.mpr hl))

theorem Engine.mbxData_last (hb : e.mBlock t d = false) (ho : (e.mdir t d).isOpen = true) (hl : (e.mdir t d).left = 1) :
    e.mbxData t d by_ v =
      (e.setMdir t d { e.mdir t d with open_ := (e.mdir t d).open_ ++ [v], left := 0 }).mFinish t d by_ := by
  rw [Engine.mbxData_open hi hr hb ho, hl]
  rfl

end Data

/-- The last data word of a message for the host makes the message visible. -/
theorem Engine.mbxData_last_e2h {e : Engine} {by_ : Sender} {t : Nat} {v : Word} (hi : e.mIgnored t by_ = false)
    (hr : e.mRefused t 1 by_ = none) (hb : e.mBlock t 1 = false) (ho : (e.mdir t 1).isOpen = true)
    (hl : (e.mdir t 1).left = 1) : e.mbxData t 1 by_ v =
      (((e.setMdir t 1 { e.mdir t 1 with open_ := (e.mdir t 1).open_ ++ [v], left := 0 }).setMdir t 1
        (e.mdir t 1).closed).setMdir t 1 ((e.mdir t 1).closed.shown ((e.mdir t 1).open_ ++ [v])) |>.mbxEvt t 0x01 .note
          by_.hm 1 (((e.mdir t 1).open_ ++ [v]).headD 0#32).toNat).vfVector t 1 := by
  rw [Engine.mbxData_last hi hr hb ho hl, Engine.mFinish_e2h, Engine.mdir_setMdir]
  rfl

/-- The primary forwards the host's message with its last data word. -/
theorem Engine.mbxData_last_forward {e : Engine} {by_ : Sender} {t : Nat} {v : Word} (hi : e.mIgnored t by_ = false)
    (hr : e.mRefused t 0 by_ = none) (hf : e.forwarding = true) (hb : e.mBlock t 0 = false)
    (ho : (e.mdir t 0).isOpen = true) (hl : (e.mdir t 0).left = 1) : e.mbxData t 0 by_ v =
      ((e.setMdir t 0 { e.mdir t 0 with open_ := (e.mdir t 0).open_ ++ [v], left := 0 }).setMdir t 0
        { (e.mdir t 0).closed with fwd := (e.mdir t 0).fwd + ((e.mdir t 0).open_ ++ [v]).length }).forward by_
          (.msg t ((e.mdir t 0).open_ ++ [v])) := by
  have hfwd (x : MbxDir) : (e.setMdir t 0 x).forwarding = true := hf
  rw [Engine.mbxData_last hi hr hb ho hl, Engine.mFinish_forward (hfwd _), Engine.mdir_setMdir]
  rfl

/-! ### GO in BLOCK mode (R363) -/

section Go

variable {e : Engine} {by_ : Sender} {t d : Nat} (hi : e.mIgnored t by_ = false)
include hi

theorem Engine.mbxGo_noHeader (hr : e.mRefused t d by_ = none) (ha : (e.mdir t d).accepted = none) :
    e.mbxGo t d by_ 1#32 = e.mbxRefuse t by_ (0x110 + 0x100 * d) 4 := by
  simp only [Engine.mbxGo, Engine.bitSet_not_ignored hi, hr, ha, if_false]

theorem Engine.mbxGo_tooLong (hr : e.mRefused t d by_ = none) {h : Word} (hb : e.mBlock t d = true)
    (ha : (e.mdir t d).accepted = some h) (hh : bitsOf h 24 8 = by_.hm) (hl : e.mBlen t d < bitsOf h 16 8 + 2) :
    e.mbxGo t d by_ 1#32 = e.mbxRefuse t by_ (0x110 + 0x100 * d) 5 := by
  simp only [Engine.mbxGo, Engine.bitSet_not_ignored hi, hr, ha, hb, hh, hl, Bool.true_eq_false, ne_eq, not_true_eq_false,
    or_self, if_false, if_true]

/-- A block for the host that fits is announced at once, and FULL rises in the next cycle. -/
theorem Engine.mbxGo_e2h (hr : e.mRefused t 1 by_ = none) {h : Word} (hb : e.mBlock t 1 = true)
    (ha : (e.mdir t 1).accepted = some h) (hh : bitsOf h 24 8 = by_.hm) (hl : bitsOf h 16 8 + 2 ≤ e.mBlen t 1) :
    e.mbxGo t 1 by_ 1#32 = ((e.setMdir t 1 { e.mdir t 1 with accepted := none, fullNext := some true }).mbxEvt t 0x01
      .note by_.hm 1 h.toNat).vfVector t 1 := by
  simp only [Engine.mbxGo, Engine.mArrived, Engine.bitSet_not_ignored hi, hr, ha, hb, hh, Nat.not_lt.mpr hl, Bool.true_eq_false, ne_eq,
    not_true_eq_false, or_self, Nat.one_ne_zero, false_and, if_false, if_true]

end Go

/-! ### The receiver's reads (R355, R360, R361, R364) -/

section Reads

variable {e : Engine} {by_ : Sender} {t d : Nat}

theorem Engine.mbxPop_barred (h : e.mReceiver t d by_ = false ∨ e.mBlock t d = true) : e.mbxPop t d by_ = (0#32, e) :=
  if_pos h

theorem Engine.mbxPop_empty (hr : e.mReceiver t d by_ = true) (hb : e.mBlock t d = false) (hf : (e.mdir t d).fifo = []) :
    e.mbxPop t d by_ = (0#32, e.mbxEvt t 0x05 .warn by_.hm d 0) := by
  simp only [Engine.mbxPop, hr, hb, hf, Bool.true_eq_false, Bool.false_eq_true, or_self, if_false]

/-- The oldest word is removed; no MBX_SPACE where a word was free already. -/
theorem Engine.mbxPop_oldest {w : Word} {ws : List Word} (hr : e.mReceiver t d by_ = true) (hb : e.mBlock t d = false)
    (hf : (e.mdir t d).fifo = w :: ws) (hn : (e.mdir t d).free ≠ 0) : e.mbxPop t d by_ =
      (w, e.setMdir t d { e.mdir t d with fifo := ws, msgs := popMsg (e.mdir t d).msgs }) := by
  simp only [Engine.mbxPop, hr, hb, hf, hn, Bool.true_eq_false, Bool.false_eq_true, or_self, if_false]

theorem Engine.mbxHdrRead_unbound (hr : e.mReceiver t d by_ = false) (hs : e.mSender t d by_ = false) :
    e.mbxHdrRead t d by_ = (0#32, e) := by
  simp only [Engine.mbxHdrRead, hr, hs, Bool.false_eq_true, if_false]

theorem Engine.mbxHdrRead_clears (hr : e.mReceiver t d by_ = true) (hb : e.mBlock t d = true)
    (hf : (e.mdir t d).full = true) : e.mbxHdrRead t d by_ =
      (e.rd (mHdr t d), e.setMdir t d { e.mdir t d with fullNext := some false }) := by
  simp only [Engine.mbxHdrRead, hr, hb, hf, and_self, if_true]

end Reads

/-! ### Flushes (R366, R368) -/

section Flush

variable {e : Engine} {by_ : Sender} {t d : Nat} {v : Word}

/-- A flush of direction `d` lets FULL clear: the words held made it full. -/
def Engine.mFullClears (e : Engine) (t d : Nat) : Bool :=
  if e.mBlock t d then (e.mdir t d).full && (e.mdir t d).fwd == 0 else (e.mdir t d).free == 0 && (e.mdir t d).fwd < 16

/-- Direction `d` is emptied, but for the words on their way to their target block. -/
def Engine.mFlushed (e : Engine) (t d : Nat) : Engine := e.setMdir t d { fwd := (e.mdir t d).fwd }

theorem Engine.mFullClears_iff : e.mFullClears t d = true ↔
    if e.mBlock t d then (e.mdir t d).full = true ∧ (e.mdir t d).fwd = 0
    else (e.mdir t d).free = 0 ∧ (e.mdir t d).fwd < 16 := by
  unfold Engine.mFullClears
  split <;> simp

theorem Engine.mbxFlush_notAdmitted (hc : by_.isCC = false) : e.mbxFlush t by_ v = e.mbxRefuse t by_ 0x008 8 :=
  if_pos hc

theorem bitsOf_low_two {v : Word} (h0 : v.getLsbD 0 = true) (h1 : v.getLsbD 1 = false) : bitsOf v 0 2 = 1 := by
  refine Nat.eq_of_testBit_eq fun i => ?_
  rw [bitsOf_testBit, Nat.zero_add]
  match i with
  | 0 => exact h0
  | 1 => exact h1
  | i + 2 =>
    rw [decide_eq_false (by omega : ¬ i + 2 < 2), Bool.false_and,
      Nat.testBit_lt_two_pow (Nat.one_lt_two_pow (by omega : i + 2 ≠ 0))]

/-- A control core's flush of the host's direction alone. -/
theorem Engine.mbxFlush_h2e (hc : by_.isCC = true) (h0 : v.getLsbD 0 = true) (h1 : v.getLsbD 1 = false) :
    e.mbxFlush t by_ v = (if e.mFullClears t 0 then (e.mFlushed t 0).mSpace t 0 by_.hm else e.mFlushed t 0).mbxEvt t 0x06
      .note by_.hm 1 0 := by
  simp only [Engine.mbxFlush, hc, bitsOf_low_two h0 h1, bitOf, h0, h1, List.range_succ, List.range_zero, List.nil_append,
    List.cons_append, List.foldl_cons, List.foldl_nil, Bool.true_eq_false, Bool.false_eq_true, Nat.one_ne_zero,
    if_false, if_true]
  rfl

end Flush

/-! ### The commands -/

section Commands

variable {s : State} {by_ : Sender} {t d : Nat} {v : Word} {g : Engine → Engine}

theorem exec_mbxHdrWrite_does (hs : s.awake = true) (h : s.eng.mbxHdr t d by_ v = g s.eng) :
    exec (.mbxHdrWrite by_ t d v) s = s.does g := by
  rw [exec_mbxHdrWrite]
  exact State.eff_eq_does hs h

theorem exec_mbxHdrcWrite_does (hs : s.awake = true) (h : s.eng.mbxHdrc t d by_ v = g s.eng) :
    exec (.mbxHdrcWrite by_ t d v) s = s.does g := by
  rw [exec_mbxHdrcWrite]
  exact State.eff_eq_does hs h

theorem exec_mbxDataWrite_does (hs : s.awake = true) (h : s.eng.mbxData t d by_ v = g s.eng) :
    exec (.mbxDataWrite by_ t d v) s = s.does g := by
  rw [exec_mbxDataWrite]
  exact State.eff_eq_does hs h

theorem exec_mbxGo_does (hs : s.awake = true) (h : s.eng.mbxGo t d by_ 1#32 = g s.eng) :
    exec (.mbxGo by_ t d) s = s.does g := by
  rw [exec_mbxGo]
  exact State.eff_eq_does hs h

theorem exec_mbxWrites_ignored (h : s.eng.mIgnored t by_ = true) :
    exec (.mbxHdrWrite by_ t d v) s = .next s ∧ exec (.mbxHdrcWrite by_ t d v) s = .next s ∧
      exec (.mbxDataWrite by_ t d v) s = .next s ∧ exec (.mbxGo by_ t d) s = .next s := by
  rw [exec_mbxHdrWrite, exec_mbxHdrcWrite, exec_mbxDataWrite, exec_mbxGo]
  exact ⟨State.eff_eq_self (Engine.mbxHdr_ignored h), State.eff_eq_self (Engine.mbxHdrc_ignored h),
    State.eff_eq_self (Engine.mbxData_ignored h), State.eff_eq_self (Engine.mbxGo_ignored h)⟩

/-- One reason refuses all four writes, but for the data word's own of a FULL block. -/
theorem exec_mbxWrites_refused (hs : s.awake = true) (hi : s.eng.mIgnored t by_ = false) {r : Nat}
    (hr : s.eng.mRefused t d by_ = some r) :
    exec (.mbxHdrWrite by_ t d v) s = (s.does fun e => e.mbxRefuse t by_ (0x100 + 0x100 * d) r) ∧
      exec (.mbxHdrcWrite by_ t d v) s = (s.does fun e => e.mbxRefuse t by_ (0x104 + 0x100 * d) r) ∧
      exec (.mbxDataWrite by_ t d v) s =
        (s.does fun e => e.mbxRefuse t by_ (0x108 + 0x100 * d) (if r = 2 then 4 else r)) ∧
      exec (.mbxGo by_ t d) s = (s.does fun e => e.mbxRefuse t by_ (0x110 + 0x100 * d) r) :=
  ⟨exec_mbxHdrWrite_does hs (Engine.mbxHdr_refused hi hr), exec_mbxHdrcWrite_does hs (Engine.mbxHdrc_refused hi hr),
    exec_mbxDataWrite_does hs (Engine.mbxData_refused hi hr), exec_mbxGo_does hs (Engine.mbxGo_refused hi hr)⟩

/-- A complement that is late, by another hallmark or not the complement is a mismatch. -/
theorem exec_mbxHdrcWrite_mismatch {p : CpPend} (hs : s.awake = true) (hi : s.eng.mIgnored t by_ = false)
    (hr : s.eng.mRefused t d by_ = none) (hp : (s.eng.mdir t d).pend = some p)
    (hbad : p.hm ≠ by_.hm ∨ p.cyc + 64 ≤ s.eng.now ∨ (~~~ v).toNat % 2 ^ 24 ≠ p.val.toNat % 2 ^ 24)
    (h : s.eng.mHdrMismatch t d by_.hm p.val v = g s.eng) : exec (.mbxHdrcWrite by_ t d v) s = s.does g := by
  refine exec_mbxHdrcWrite_does hs ((Engine.mbxHdrc_pending hi hr hp).trans ((if_pos ?_).trans h))
  simpa only [bitsOf, Nat.pow_zero, Nat.div_one] using hbad

/-- The complement in time by the same hallmark accepts the header. -/
theorem exec_mbxHdrcWrite_accepts {p : CpPend} (hs : s.awake = true) (hi : s.eng.mIgnored t by_ = false)
    (hr : s.eng.mRefused t d by_ = none) (hp : (s.eng.mdir t d).pend = some p)
    (hm : p.hm = by_.hm) (ht : s.eng.now < p.cyc + 64) (hv : (~~~ v).toNat % 2 ^ 24 = p.val.toNat % 2 ^ 24)
    (h : s.eng.mbxAccept t d by_ p.val v = g s.eng) : exec (.mbxHdrcWrite by_ t d v) s = s.does g := by
  refine exec_mbxHdrcWrite_does hs ((Engine.mbxHdrc_pending hi hr hp).trans ((if_neg ?_).trans h))
  simp only [bitsOf, Nat.pow_zero, Nat.div_one, hm, hv, Nat.not_le.mpr ht, ne_eq, not_true_eq_false, or_self,
    not_false_eq_true]

theorem exec_mbxHdrTimeout_late {p : CpPend} (hs : s.awake = true) (hp : (s.eng.mdir t d).pend = some p)
    (ht : p.cyc + 64 ≤ s.eng.now) (h : s.eng.mHdrMismatch t d p.hm p.val 0#32 = g s.eng) :
    exec (.mbxHdrTimeout t d) s = s.does g := by
  rw [exec_mbxHdrTimeout]
  exact State.eff_eq_does hs (by simp only [hp, ht, h, if_true])

theorem exec_mbxHdrTimeout_early {p : CpPend} (hp : (s.eng.mdir t d).pend = some p)
    (ht : s.eng.now < p.cyc + 64) : exec (.mbxHdrTimeout t d) s = .next s := by
  rw [exec_mbxHdrTimeout]
  exact State.eff_eq_self (by simp only [hp, Nat.not_le.mpr ht, if_false])

theorem exec_mbxPop_does (hs : s.awake = true) (h : Engine.answer (s.eng.mbxPop t d by_) = g s.eng) :
    exec (.mbxPop by_ t d) s = s.does g := by
  rw [exec_mbxPop]
  exact State.eff_eq_does hs h

theorem exec_mbxHdrRead_does (hs : s.awake = true) (h : Engine.answer (s.eng.mbxHdrRead t d by_) = g s.eng) :
    exec (.mbxHdrRead by_ t d) s = s.does g := by
  rw [exec_mbxHdrRead]
  exact State.eff_eq_does hs h

theorem exec_mbxFlush_does (hs : s.awake = true) (hb : s.eng.direct by_ (MBX_CTRL t) = true)
    (h : s.eng.mbxFlush t by_ v = g s.eng) : exec (.mbxFlush by_ t v) s = s.does g := by
  rw [exec_mbxFlush, execMbxFlush, State.eff_row hb]
  exact State.eff_eq_does hs h

end Commands

/-- Settles O34: a write is ignored, refused for one reason or taken, and each clause is the case of
its command that its hypotheses choose. -/
theorem mailboxes : Obligations.Mailboxes := by
  unfold Obligations.Mailboxes
  refine ⟨fun s by_ t d v hs _ _ hlock _ => ?alone, fun s by_ t v hs _ hen hsnd => ?paired⟩
  case alone =>
    intro e x does event refused mismatch sender receiver
    have hstand : e.isStandby = false := Bool.and_eq_false_iff.mpr (.inl hlock)
    refine ⟨fun hdis hc => exec_mbxWrites_ignored (Engine.mIgnored_disabled hdis hc), fun hen => ?enabled,
      fun p hp => ⟨fun ht => exec_mbxHdrTimeout_late hs hp ht rfl, exec_mbxHdrTimeout_early hp⟩,
      fun h => exec_mbxPop_does hs (congrArg Engine.answer (Engine.mbxPop_barred h)),
      fun hr hb => ⟨fun hf => exec_mbxPop_does hs (congrArg Engine.answer (Engine.mbxPop_empty hr hb hf)),
        fun w ws hf hn => exec_mbxPop_does hs (congrArg Engine.answer (Engine.mbxPop_oldest hr hb hf hn))⟩,
      fun hr hsnd => exec_mbxHdrRead_does hs (congrArg Engine.answer (Engine.mbxHdrRead_unbound hr hsnd)),
      fun hr hb hf => exec_mbxHdrRead_does hs (congrArg Engine.answer (Engine.mbxHdrRead_clears hr hb hf)),
      fun hb hc => exec_mbxFlush_does hs hb (Engine.mbxFlush_notAdmitted hc), fun hb hc h0 h1 => ?flush⟩
    case enabled =>
      have hi : e.mIgnored t by_ = false := Engine.mIgnored_enabled hen
      refine ⟨fun hsnd => exec_mbxWrites_refused hs hi (Engine.mRefused_unbound hsnd),
        fun hsnd hb hf => exec_mbxWrites_refused hs hi (Engine.mRefused_full hsnd hstand hb hf), fun hsnd hf => ?taken⟩
      case taken =>
        have hr : e.mRefused t d by_ = none := Engine.mRefused_none hsnd hstand hf
        refine ⟨exec_mbxHdrWrite_does hs (Engine.mbxHdr_taken hi hr),
          fun p hp => ⟨fun hbad => exec_mbxHdrcWrite_mismatch hs hi hr hp hbad rfl, fun hm ht hv => ?complement⟩,
          fun hp => exec_mbxHdrcWrite_does hs (Engine.mbxHdrc_alone hi hr hp),
          fun hb ho => ⟨fun hl => exec_mbxDataWrite_does hs (Engine.mbxData_joins hi hr hb ho hl),
            fun hl hd => ?lastWord⟩,
          fun _ ho => exec_mbxDataWrite_does hs (Engine.mbxData_closed hi hr ho),
          fun ha => exec_mbxGo_does hs (Engine.mbxGo_noHeader hi hr ha),
          fun h hb ha hh => ⟨fun hl => exec_mbxGo_does hs (Engine.mbxGo_tooLong hi hr hb ha hh hl), fun hl hd => ?go⟩⟩
        case complement =>
          intro h c len taken kept
          have accepts {g : Engine → Engine} : e.mbxAccept t d by_ p.val v = g e → does (.mbxHdrcWrite by_ t d v) g :=
            exec_mbxHdrcWrite_accepts hs hi hr hp hm ht hv
          exact ⟨fun hb => accepts (Engine.mbxAccept_block hb),
            fun hb ho => ⟨fun hl => accepts (Engine.mbxAccept_tooLong hb ho hl),
              fun hl hn => accepts (Engine.mbxAccept_noSpace hb ho hl hn),
              fun hl h0 hn => accepts (Engine.mbxAccept_opens hb ho hl h0 hn)⟩⟩
        case lastWord =>
          subst hd
          exact exec_mbxDataWrite_does hs (Engine.mbxData_last_e2h hi hr hb ho hl)
        case go =>
          subst hd
          exact exec_mbxGo_does hs (Engine.mbxGo_e2h hi hr hb ha hh hl)
    case flush =>
      intro y clears gone
      have hflush : e.mbxFlush t by_ v = _ := Engine.mbxFlush_h2e hc h0 h1
      refine ⟨fun hn => exec_mbxFlush_does hs hb (hflush.trans ?quiet),
        fun hy => exec_mbxFlush_does hs hb (hflush.trans ?space)⟩
      case quiet => rw [if_neg fun h => hn (Engine.mFullClears_iff.mp h)]; rfl
      case space => rw [if_pos (Engine.mFullClears_iff.mpr hy)]; rfl
  case paired =>
    intro e x refused
    have hi : e.mIgnored t by_ = false := Engine.mIgnored_enabled hen
    refine ⟨fun hsb ho => exec_mbxWrites_refused hs hi (Engine.mRefused_standby hsnd hsb ho),
      fun hsb hf hb ho hl => ?forwarded⟩
    case forwarded =>
      have hr : e.mRefused t 0 by_ = none := Engine.mRefused_none hsnd hsb (.inl hb)
      exact exec_mbxDataWrite_does hs (Engine.mbxData_last_forward hi hr hf hb ho hl)

end Sys2Proof.Machine

/-!
PROOFS. The tenant event queue (R369, R370) and doorbells (R371, R373). A doorbell word with one bit
set rings that one doorbell, whose map stands apart from the pending register.
-/
namespace Sys2Proof.Machine

/-! ### The tenant event queue (R369, R370) -/

section EventQueue

variable {e : Engine} {by_ : Sender} {t : Nat}

theorem Engine.evqPop_notAdmitted (ht : by_.isTenant t = false) (hc : by_.isCC = false) : e.evqPop t by_ = (0#32, e) :=
  if_pos ⟨ht, hc⟩

theorem evqBarred_iff_not_admitted :
    by_.isTenant t = false ∧ by_.isCC = false ↔ ¬ (by_.isTenant t = true ∨ by_.isCC = true) := by
  simp only [not_or, Bool.not_eq_true]

/-- An empty queue answers zero words. -/
theorem Engine.evqPop_empty (h : by_.isTenant t = true ∨ by_.isCC = true) (hq : Tbl.get [] e.mbx.evq t = []) :
    e.evqPop t by_ = (0#32, e.capture (MBX_EVQ_W0 t) by_.hm [0, 0, 0]) := by
  simp only [Engine.evqPop, evqBarred_iff_not_admitted, h, hq, not_true_eq_false, if_false]

/-- The oldest record leaves the queue; its first word is answered and the others are captured. -/
theorem Engine.evqPop_oldest (h : by_.isTenant t = true ∨ by_.isCC = true) {r : Evt} {rs : List Evt}
    (hq : Tbl.get [] e.mbx.evq t = r :: rs) : e.evqPop t by_ =
      (r.words.headD 0#32, (e.updMbx fun m => { m with evq := Tbl.set [] m.evq t rs }).capture (MBX_EVQ_W0 t) by_.hm
        ((r.words.drop 1).map (·.toNat))) := by
  simp only [Engine.evqPop, evqBarred_iff_not_admitted, h, hq, not_true_eq_false, if_false]

theorem Engine.evqOverflow_written (hl : Tbl.get 0 e.mbx.evqLost t ≠ 0) (hq : (Tbl.get [] e.mbx.evq t).length < 64) :
    e.evqOverflow t = e.updMbx fun m => { m with
      evq := Tbl.set [] m.evq t (Tbl.get [] e.mbx.evq t ++ [e.evqOverflowRec t]), evqLost := Tbl.set 0 m.evqLost t 0 } :=
  if_pos ⟨hl, hq⟩

theorem Engine.evqOverflow_waits (h : Tbl.get 0 e.mbx.evqLost t = 0 ∨ 64 ≤ (Tbl.get [] e.mbx.evq t).length) :
    e.evqOverflow t = e :=
  if_neg fun ⟨hl, hq⟩ => h.elim hl (Nat.not_le.mpr hq)

end EventQueue

/-! ### Doorbells (R371, R373) -/

section Doorbells

variable {e : Engine} {by_ : Sender} {t k : Nat} {v : Word}

/-- Doorbell `k` of tenant `t` is pending. -/
def Engine.bellPends (e : Engine) (t k : Nat) : Engine := e.put ⟨MBX_DB_PEND t, k, 1⟩ 1

theorem dbMap_ne_dbPend (t j : Nat) : MBX_DB_MAP t j ≠ MBX_DB_PEND t := by
  unfold MBX_DB_MAP MBX_DB_PEND
  omega

/-- The map of the doorbells is no part of the pending register. -/
theorem Engine.get_bellPends {f : Fld} {j : Nat} (hf : f.addr = MBX_DB_MAP t j) : (e.bellPends t k).get f = e.get f :=
  Engine.get_put_other_reg e 1 (hf ▸ dbMap_ne_dbPend t j)

theorem Engine.ringBell_unmapped (h : e.on (MBX_DB_MAP_V t k) = false) : e.ringBell t k by_ = e.bellPends t k := by
  have hv : (e.bellPends t k).on (MBX_DB_MAP_V t k) = false := by
    unfold Engine.on
    rw [Engine.get_bellPends rfl]
    exact h
  exact if_neg (ne_true_of_eq_false hv)

theorem Engine.ringBell_mapped (h : (e.bellPends t k).on (MBX_DB_MAP_V t k) = true) : e.ringBell t k by_ =
    (e.bellPends t k).schedReadyWrite by_ (e.get (MBX_DB_MAP_IDX t k)) (e.get (MBX_DB_MAP_CTR t k)) := by
  rw [← Engine.get_bellPends (e := e) (k := k) (f := MBX_DB_MAP_IDX t k) rfl,
    ← Engine.get_bellPends (e := e) (k := k) (f := MBX_DB_MAP_CTR t k) rfl]
  exact if_pos h

/-- The one doorbell that a word with one bit set names. -/
theorem filter_bitOf_two_pow : ∀ k, k < 16 → (List.range 16).filter (bitOf (BitVec.ofNat 32 (2 ^ k))) = [k] := by
  decide

variable (hi : e.mIgnored t by_ = false)
include hi

theorem Engine.bellRing_admitted (h : e.mHost t by_ = true ∨ by_.isCC = true) : e.bellRing t by_ v =
    ((List.range 16).filter (bitOf v)).foldl (fun e k => e.ringBell t k by_) e := by
  have hby (p : Bool) : (e.mHost t by_ || p || by_.isCC) = true := by rcases h with h | h <;> simp [h]
  rw [List.foldl_filter]
  exact (if_neg (ne_true_of_eq_false hi)).trans (if_pos (hby _))

theorem Engine.bellRing_one (hk : k < 16) (h : e.mHost t by_ = true ∨ by_.isCC = true) :
    e.bellRing t by_ (BitVec.ofNat 32 (2 ^ k)) = e.ringBell t k by_ := by
  rw [Engine.bellRing_admitted hi h, filter_bitOf_two_pow k hk]
  rfl

/-- Neither the bound host side, nor the control core, nor path code. -/
theorem Engine.bellRing_refused (hh : e.mHost t by_ = false) (hc : by_.isCC = false)
    (hp : by_.dma = true ∨ hmOrigin by_.hm ≠ 2) : e.bellRing t by_ v = e.mbxRefuse t by_ 0x500 1 := by
  have hpath : (!by_.dma && hmPriv by_.hm == 0 && hmTenant by_.hm == t && hmOrigin by_.hm == 2) = false := by
    rcases hp with hp | hp <;> simp [hp]
  simp only [Engine.bellRing, hi, hh, hc, hpath, Bool.or_false, Bool.false_eq_true, if_false]

/-- A wake by the bound host side goes by the power mode. -/
theorem Engine.bellWake_host (hh : e.mHost t by_ = true) : e.bellWake t by_ 1#32 =
    if e.get PWR_STATUS_MODE = 1 ∨ e.get PWR_STATUS_MODE = 2 then (e.requestRun 4).mbxEvt t 0x08 .note by_.hm by_.hm 0
    else e := by
  simp only [Engine.bellWake, Engine.bitSet_not_ignored hi, hh, Bool.true_eq_false, if_false]

theorem Engine.bellWake_refused (hh : e.mHost t by_ = false) : e.bellWake t by_ 1#32 = e.mbxRefuse t by_ 0x508 1 := by
  simp only [Engine.bellWake, Engine.bitSet_not_ignored hi, hh, if_false, if_true]

end Doorbells

/-! ### The commands -/

section Commands

variable {s : State} {by_ : Sender} {t : Nat} {v : Word} {g : Engine → Engine}

theorem exec_evqPop_does (hs : s.awake = true) (h : Engine.answer (s.eng.evqPop t by_) = g s.eng) :
    exec (.evqPop by_ t) s = s.does g := by
  rw [exec_evqPop]
  exact State.eff_eq_does hs h

theorem exec_evqOverflow_does (hs : s.awake = true) (h : s.eng.evqOverflow t = g s.eng) :
    exec (.evqOverflow t) s = s.does g := by
  rw [exec_evqOverflow]
  exact State.eff_eq_does hs h

theorem exec_evqOverflow_waits (h : s.eng.evqOverflow t = s.eng) : exec (.evqOverflow t) s = .next s := by
  rw [exec_evqOverflow]
  exact State.eff_eq_self h

theorem exec_doorbellRing_does (hs : s.awake = true) (hb : s.eng.direct by_ (MBX_DB_RING t) = true)
    (h : s.eng.bellRing t by_ v = g s.eng) : exec (.doorbellRing by_ t v) s = s.does g := by
  rw [exec_doorbellRing, execDoorbellRing, State.eff_row hb]
  exact State.eff_eq_does hs h

theorem exec_doorbellWake_does (hs : s.awake = true) (hb : s.eng.direct by_ (MBX_DB_WAKE t) = true)
    (h : s.eng.bellWake t by_ 1#32 = g s.eng) : exec (.doorbellWake by_ t) s = s.does g := by
  rw [exec_doorbellWake, execDoorbellWake, State.eff_row hb]
  exact State.eff_eq_does hs h

end Commands

/-- Settles O35: each clause is the case of its command that its hypotheses choose; a word with one
bit set rings one doorbell. -/
theorem eventQueueAndDoorbells : Obligations.EventQueueAndDoorbells := by
  unfold Obligations.EventQueueAndDoorbells
  intro s by_ t hs e does event here q lost
  refine ⟨fun ht hc => exec_evqPop_does hs (congrArg Engine.answer (Engine.evqPop_notAdmitted ht hc)),
    fun h => ⟨fun hq => exec_evqPop_does hs (congrArg Engine.answer (Engine.evqPop_empty h hq)),
      fun r rs hq => exec_evqPop_does hs (congrArg Engine.answer (Engine.evqPop_oldest h hq))⟩,
    fun hl hq => exec_evqOverflow_does hs (Engine.evqOverflow_written hl hq),
    fun h => exec_evqOverflow_waits (Engine.evqOverflow_waits h), fun hen => ?doorbells⟩
  case doorbells =>
    have hi : e.mIgnored t by_ = false := Engine.mIgnored_enabled hen
    refine ⟨fun k hb hk hby => ?ring,
      fun hb hh hc hp v => exec_doorbellRing_does hs hb (Engine.bellRing_refused hi hh hc hp),
      fun hb hh => exec_doorbellWake_does hs hb (Engine.bellWake_refused hi hh),
      fun hb hh => ⟨fun hm => exec_doorbellWake_does hs hb ((Engine.bellWake_host hi hh).trans (if_pos hm)),
        fun hm => exec_doorbellWake_does hs hb (g := id) ((Engine.bellWake_host hi hh).trans (if_neg ?run))⟩⟩
    case ring =>
      have hone := Engine.bellRing_one hi hk hby
      exact ⟨fun hv => exec_doorbellRing_does hs hb (hone.trans (Engine.ringBell_unmapped hv)),
        fun hv => exec_doorbellRing_does hs hb (hone.trans (Engine.ringBell_mapped hv))⟩
    case run =>
      rw [hm]
      decide

end Sys2Proof.Machine
